-- ==== Sys2Proof/Word.lean ====
section
/-! DEFINITION. The word types of the part and their plainest arithmetic: R9 (bit numbering), R23 (`wrap_s`, `sat_s`, `sat_u`, `floor_div`). -/

namespace Sys2Proof

/-- One byte (R10). -/
abbrev Byte := BitVec 8
/-- A 64-bit word of the scratchpad, a register or a packet. -/
abbrev Word := BitVec 64
/-- A logical core in module coordinates: `y` in bits [11:6], `x` in bits [5:0], as the destination value of R39 places them. -/
abbrev CoreId := BitVec 12
/-- A field, 0 to 7 (R16). -/
abbrev FieldId := BitVec 3
/-- A host function, which is also the number of its plot (R407). -/
abbrev Fn := BitVec 8
/-- A deep-store module channel, 0 to 511 (R311). -/
abbrev ChanId := BitVec 9
/-- An optical port, 0 to 15 (R506). -/
abbrev PortId := BitVec 4

/-- `wrap_s(v, n)` of R23: the low `n` bits of `v`. -/
abbrev wrapS (n : Nat) (v : Int) : BitVec n := BitVec.ofInt n v

/-- `sat_s(v, n)` of R23 as an integer. -/
def satSInt (n : Nat) (v : Int) : Int :=
  if v > 2 ^ (n - 1) - 1 then 2 ^ (n - 1) - 1 else if v < -(2 ^ (n - 1)) then -(2 ^ (n - 1)) else v

/-- `sat_u(v, n)` of R23 as an integer. -/
def satUInt (n : Nat) (v : Int) : Int :=
  if v > 2 ^ n - 1 then 2 ^ n - 1 else if v < 0 then 0 else v

/-- The field of `w` from bit `lo`, `len` bits long, as a number (R9). -/
abbrev fieldOf {n : Nat} (w : BitVec n) (lo len : Nat) : Nat := (w.extractLsb' lo len).toNat

/-- Bit `k` of `w`. -/
abbrev bitOf {n : Nat} (w : BitVec n) (k : Nat) : Bool := w.getLsbD k

/-- The field of `w` from bit `lo`, `len` bits long, in signed meaning. -/
abbrev signedFieldOf {n : Nat} (w : BitVec n) (lo len : Nat) : Int := (w.extractLsb' lo len).toInt

/-- A Bool as a number, 1 for true. -/
abbrev b2n (b : Bool) : Nat := if b then 1 else 0

/-- Ceiling division of naturals. -/
def ceilDiv (a b : Nat) : Nat := (a + b - 1) / b

/-- `bit_length(a)` of R92: bits of `a` without leading zeros. -/
def bitLength (a : Nat) : Nat := if a = 0 then 0 else Nat.log2 a + 1

end Sys2Proof
end

