-- ==== Sys2Proof/Slots.lean ====
section
/-! DEFINITION. The operations of the six slots of a bundle as decoded terms, one constructor per opcode (R108, R109, R149, R153, R165, R199, R239, R248). Fields stand in the order of the encoding, highest bits first. -/

namespace Sys2Proof

/-- Scalar-slot operations (R199). -/
inductive ScalarOp where
  | snop
  | sadd (d a b : BitVec 5) (ov : BitVec 2) (sub : BitVec 1)
  | saddi (d a : BitVec 5) (imm : BitVec 19)
  | smul (d a b : BitVec 5) (ov : BitVec 2)
  | slogic (d a b : BitVec 5) (fn : BitVec 2)
  | sshift (d a b : BitVec 5) (kind : BitVec 2) (reg : BitVec 1) (amt : BitVec 6) (mode : BitVec 2)
  | sminmax (d a b : BitVec 5) (max uns : BitVec 1)
  | scmp (d a b : BitVec 5) (cond : BitVec 3)
  | ssel (d a b c : BitVec 5)
  | slui (d : BitVec 5) (imm : BitVec 24)
  | smovi (d : BitVec 5) (imm : BitVec 29)
  | sfeat (d : BitVec 5) (index : BitVec 3)
  | amov (ad : BitVec 4) (sa : BitVec 5) (imm : BitVec 19)
  | aadd (ad aa : BitVec 4) (imm : BitVec 19)
  | aget (sd : BitVec 5) (aa : BitVec 4)
  | lbegin (frame : BitVec 3) (creg : BitVec 1) (sa : BitVec 5) (count : BitVec 19)
  | linc (frame : BitVec 3) (slot : BitVec 2) (ar : BitVec 4) (en : BitVec 1) (inc : BitVec 19)
  | snext (f nreg : BitVec 1) (sa : BitVec 5) (entry : BitVec 13)
  | sown (handle : BitVec 6) (owner : BitVec 2)
  deriving DecidableEq, Repr

/-- Vector-slot operations (R165). -/
inductive VectorOp where
  | vnop
  | vadd (d a b : BitVec 5) (ov : BitVec 2) (sub : BitVec 1)
  | vmul (d a b : BitVec 5) (sgn ah bh : BitVec 1)
  | vmulh (d a b : BitVec 5) (sh : BitVec 6) (mode : BitVec 2)
  | vshift (d a b : BitVec 5) (kind : BitVec 3) (lane : BitVec 1) (amt : BitVec 6) (mode : BitVec 2)
  | vlogic (d a b : BitVec 5) (fn : BitVec 2)
  | vminmax (d a b : BitVec 5) (max uns : BitVec 1)
  | vcount (d a : BitVec 5) (cls : BitVec 1)
  | vcmp (md : BitVec 3) (a b : BitVec 5) (cond : BitVec 3)
  | vsel (d a b : BitVec 5) (ms : BitVec 3)
  | vperm (d a b : BitVec 5) (pat : BitVec 3) (p : BitVec 5)
  | vunpk (d a b : BitVec 5) (fmt : BitVec 4) (part : BitVec 3) (k : BitVec 10) (kreg : BitVec 1) (mode : BitVec 2)
  | vpack (d a b : BitVec 5) (fmt : BitVec 4) (part : BitVec 3) (k : BitVec 10) (kreg : BitVec 1) (mode : BitVec 2) (rule : BitVec 1)
  | vlut (d a : BitVec 5) (th : BitVec 6) (t16 : BitVec 1)
  | vmovi (d : BitVec 5) (imm : BitVec 32)
  | vsplat (d ss : BitVec 5)
  | vget (sd a lane : BitVec 5)
  | mset (md : BitVec 3) (imm : BitVec 32)
  | mlogic (md ma mb : BitVec 3) (fn : BitVec 2)
  deriving DecidableEq, Repr

/-- Matrix-slot operations (R109, R149, R153). -/
inductive MatrixOp where
  | mnop (warm : BitVec 1)
  | mload (bank : BitVec 1) (xh : BitVec 6) (ax rows : BitVec 4) (klen : BitVec 7)
  | mstream (bank : BitVec 1) (wh : BitVec 6) (aw : BitVec 4) (ss : BitVec 5) (kind ovw : BitVec 1)
  | mtile (xh : BitVec 6) (ax : BitVec 4) (wh : BitVec 6) (aw : BitVec 4) (ss : BitVec 5) (kind ovw : BitVec 1)
  | manchor (group : BitVec 4) (kind : BitVec 1) (anchor : BitVec 10)
  | mread (vd : BitVec 5) (row : BitVec 4) (entry : BitVec 10) (shift : BitVec 7) (mode : BitVec 2) (sreg kind : BitVec 1)
  | mprobe (group : BitVec 4) (sd : BitVec 5) (clear : BitVec 1)
  deriving DecidableEq, Repr

/-- Load-slot operations (R239). -/
inductive LoadOp where
  | lnop
  | ldv (d : BitVec 5) (h : BitVec 6) (ar : BitVec 4) (off : BitVec 17)
  | lds (d : BitVec 5) (h : BitVec 6) (ar : BitVec 4) (off : BitVec 17)
  | ldvs (d : BitVec 5) (h : BitVec 6) (ar : BitVec 4) (dim : BitVec 3) (sx : BitVec 1) (step : BitVec 13)
  | ldvg (d : BitVec 5) (h : BitVec 6) (ar : BitVec 4) (ih : BitVec 6) (sx : BitVec 1)
  deriving DecidableEq, Repr

/-- Store-slot operations (R239). -/
inductive StoreOp where
  | snopst
  | stv (vs : BitVec 5) (h : BitVec 6) (ar firstw nw : BitVec 4) (off : BitVec 9)
  | sts (ss : BitVec 5) (h : BitVec 6) (ar : BitVec 4) (off : BitVec 17)
  | stvs (vs : BitVec 5) (h : BitVec 6) (ar : BitVec 4) (dim : BitVec 3) (step : BitVec 13)
  | stvg (vs : BitVec 5) (h : BitVec 6) (ar : BitVec 4) (ih : BitVec 6)
  deriving DecidableEq, Repr

/-- Sync-slot operations (R248). -/
inductive SyncOp where
  | synop
  | wait (tally : BitVec 6) (sub : BitVec 1) (thr : BitVec 19)
  | waitReg (tally : BitVec 6) (sub : BitVec 1) (sa : BitVec 5)
  | test (tally : BitVec 6) (sd : BitVec 5)
  | tadd (tally : BitVec 6) (neg : BitVec 1) (amt : BitVec 19)
  | taddReg (tally : BitVec 6) (neg : BitVec 1) (sa : BitVec 5)
  | sig (sa : BitVec 5)
  | bar (group : BitVec 6)
  | post (src sb : BitVec 5) (count : BitVec 2) (vec : BitVec 1)
  | select (mask : BitVec 8) (rot : BitVec 1) (sd : BitVec 5)
  | release (ring : BitVec 3)
  | cadd (ctally : BitVec 12) (amount : BitVec 15)
  | cwait (ctally : BitVec 12) (sa : BitVec 5)
  | cput (plot : BitVec 8) (sa : BitVec 5)
  | ctake (sd : BitVec 5)
  | amsg (sa sb : BitVec 5) (handler : BitVec 4) (count : BitVec 2)
  deriving DecidableEq, Repr

end Sys2Proof
end

