-- ==== Sys2Proof/Arguments.lean ====
section
/-! DEFINITION. The operands of the commands: where a slot operation issues, host packets, register places, and what the physical observations report. -/

namespace Sys2Proof

/-- The head of a bundle: the field cycles since the core's last event, the header of R190, and the six slots, bundle bits [255:16] (R187). -/
structure BundleHead where
  dt : Nat
  header : BitVec 16
  slots : BitVec 240
  deriving DecidableEq, Repr

/-- The scalar slot of a bundle (R187). -/
def BundleHead.scalar (h : BundleHead) : BitVec 40 := h.slots.extractLsb' 0 40

/-- The vector slot of a bundle (R187). -/
def BundleHead.vector (h : BundleHead) : BitVec 48 := h.slots.extractLsb' 40 48

/-- The matrix slot of a bundle (R187). -/
def BundleHead.matrix (h : BundleHead) : BitVec 48 := h.slots.extractLsb' 88 48

/-- The load slot of a bundle (R187). -/
def BundleHead.load (h : BundleHead) : BitVec 36 := h.slots.extractLsb' 136 36

/-- The store slot of a bundle (R187). -/
def BundleHead.store (h : BundleHead) : BitVec 36 := h.slots.extractLsb' 172 36

/-- The sync slot of a bundle (R187). -/
def BundleHead.sync (h : BundleHead) : BitVec 32 := h.slots.extractLsb' 208 32

/-- Whether the sync slot of a bundle is all zero (R191). -/
def BundleHead.syncZero (h : BundleHead) : Bool := h.sync == 0

/-- Where a slot operation issues: its core, its stream, and the head of its bundle when it is the first command of the bundle (`none`: the same bundle as the stream's last command). -/
structure Issue where
  core : CoreId
  fill : Bool
  head : Option BundleHead
  deriving DecidableEq, Repr

/-- A host packet as the device reads it from the submission ring of function `fn`: the header of R417 less its TYPE, which the row gives, and the payload. -/
structure PacketIn where
  fn : Fn
  flags : BitVec 8
  plot : Fn
  byte3 : BitVec 8
  length : BitVec 32
  tag : Word
  bell : Word
  param : Word
  digest : BitVec 256
  payload : List Byte
  deriving DecidableEq, Repr

/-- The RWL fields (R99, R135, R349). -/
inductive RwlField where
  | bruiseNan | rampDown | rampUp | floor | requireSigned | steps
  deriving DecidableEq, Repr

/-- A register's place: the window it is reached through and its byte offset there (R408, R410, R411, R412). -/
inductive RegAddr where
  | function (offset : BitVec 16)
  | core (y x : BitVec 6) (offset : BitVec 16)
  | module (offset : BitVec 26)
  deriving DecidableEq, Repr

/-- The size of a register access (R409). -/
inductive AccessSize where
  | whole | low | high | other
  deriving DecidableEq, Repr

/-- The complete list of codes (R405), without OK. -/
def knownCodes : List (BitVec 16) :=
  [0x0001, 0x0002, 0x0003, 0x0004,
   0x1001, 0x1002, 0x1003, 0x1004, 0x1005, 0x1006, 0x1007, 0x1008, 0x1009, 0x100A, 0x100B, 0x100C, 0x100D, 0x100E, 0x100F, 0x1010, 0x1011,
   0x2001, 0x2002, 0x2003, 0x2004, 0x2005, 0x2006, 0x2007, 0x2008, 0x2009, 0x200A, 0x200B, 0x200C, 0x200D, 0x200E, 0x200F, 0x2010] ++
  [0x2011, 0x2012, 0x2013, 0x2014, 0x2015, 0x2016, 0x2017, 0x2018, 0x2019, 0x201A, 0x201B, 0x201C, 0x201D, 0x201E, 0x201F, 0x2020,
   0x3001, 0x3002, 0x3003, 0x3004, 0x3005, 0x3006, 0x3007, 0x3008, 0x3009,
   0x4001, 0x4002, 0x4003, 0x4004, 0x4005, 0x4006, 0x4007, 0x5001, 0x5002, 0x5003, 0x5004, 0x5005]

/-- How a diagnostic step ended early (R455): the first class P or class S code, its core, offset and site. -/
structure DiagFault where
  code : BitVec 16
  core : CoreId
  offset : BitVec 24
  site : BitVec 10
  deriving DecidableEq, Repr

/-- What the partner of a lock-step pair sends (R400): its step digest for a bell, or its run-start exchange, or that its plot stopped (R403). -/
inductive LockstepExchange where
  | digest (bell : BitVec 48) (d : BitVec 256)
  | runStart (image : BitVec 256) (rows cols : BitVec 7) (seed : Word) (plotkey : BitVec 16)
  | stopped (bell : BitVec 48)
  deriving DecidableEq, Repr

/-- One finding of the self-test of phase 4 (R478). -/
inductive TestFinding where
  | core (field : FieldId) (row : BitVec 4) (col : BitVec 6)
  | column (c : CoreId) (col : BitVec 6)
  | bridge (edge : Nat) (link : BitVec 6)
  | channel (ch : ChanId)
  deriving DecidableEq, Repr

/-- What phase 5 ends with (R513, R515): whether training succeeded, the module's number and depth, and whether any port is lit. -/
structure LinksResult where
  ok : Bool
  module : BitVec 12
  depth : BitVec 3
  lit : Bool
  deriving DecidableEq, Repr

/-- What training of one port found (R514, R515, R521): success, the far module and port, the measured delay in 1/8 hc, and a lock-step partner's claim (R534). -/
structure TrainResult where
  ok : Bool
  neighbour : BitVec 12
  nport : BitVec 4
  delay : BitVec 12
  namesUs : Bool
  deriving DecidableEq, Repr

/-- The temperatures of one 100 µs sample in °C (R555, R557, R559): each field's highest sensor, each stack, the hub die, each optical engine. -/
structure ThermalReading where
  junction : List Nat
  stackTemps : List Nat
  hub : Nat
  optical : List Nat
  deriving DecidableEq, Repr

/-- The JTAG instructions of R498 and R499. -/
inductive JtagInstr where
  | bypass | idcode | samplePreload | extest | dbgchal | dbgresp | debugRead | debugFull
  deriving DecidableEq, Repr

/-- Why a core is taken as lost (R388): a heartbeat missing for 64 hc, or a repeated logic check. -/
inductive LostCause where
  | heartbeat | logicCheck
  deriving DecidableEq, Repr

end Sys2Proof
end

