-- ==== Sys2Proof/Syntax.lean ====
section
/-! DEFINITION. The commands of the block: one constructor of `Instr` per row of spec/opcode_table.json, with the row's operands. -/

namespace Sys2Proof

/-- The commands. -/
inductive Instr where
  /-- SNOP (R199): Scalar-slot no-operation; the slot changes no state. -/
  | snop (i : Issue) (w : BitVec 34)
  /-- SADD (R200): Adds or subtracts two scalar registers with wrap, signed or unsigned saturation; the result is written at t + 1. -/
  | sadd (i : Issue) (w : BitVec 34)
  /-- SADDI (R200): Adds a sign-extended immediate to a scalar register, wrapping. -/
  | saddi (i : Issue) (w : BitVec 34)
  /-- SMUL (R200): Multiplies two scalar registers with wrap or saturation; the result is written at t + 2. -/
  | smul (i : Issue) (w : BitVec 34)
  /-- SLOGIC (R200): Applies a bitwise AND, OR, XOR or ANDN to two scalar registers. -/
  | slogic (i : Issue) (w : BitVec 34)
  /-- SSHIFT (R200): Shifts a scalar register left, logically right, arithmetically right, or right with rounding. -/
  | sshift (i : Issue) (w : BitVec 34)
  /-- SMINMAX (R200): Writes the signed or unsigned minimum or maximum of two scalar registers. -/
  | sminmax (i : Issue) (w : BitVec 34)
  /-- SCMP (R200): Writes 1 when a comparison between two scalar registers holds, and 0 otherwise. -/
  | scmp (i : Issue) (w : BitVec 34)
  /-- SSEL (R200): Selects SA when SC is nonzero, and SB otherwise. -/
  | ssel (i : Issue) (w : BitVec 34)
  /-- SLUI (R200): Shifts SD left by 24 bits and ORs in a zero-extended 24-bit immediate. -/
  | slui (i : Issue) (w : BitVec 34)
  /-- SMOVI (R200): Writes a sign-extended 29-bit immediate to a scalar register. -/
  | smovi (i : Issue) (w : BitVec 34)
  /-- SFEAT (R213): Reads the feature register that INDEX selects into a scalar register. -/
  | sfeat (i : Issue) (w : BitVec 34)
  /-- AMOV (R200): Sets an address register to a scalar register plus an immediate, modulo 2^32. -/
  | amov (i : Issue) (w : BitVec 34)
  /-- AADD (R200): Adds an immediate to an address register, modulo 2^32. -/
  | aadd (i : Issue) (w : BitVec 34)
  /-- AGET (R200): Copies an address register, zero-extended, into a scalar register. -/
  | aget (i : Issue) (w : BitVec 34)
  /-- LBEGIN (R201): Opens the next loop frame of the issuing stream, with its count and start address. -/
  | lbegin (i : Issue) (w : BitVec 34)
  /-- LINC (R201): Sets one increment slot of a loop frame. -/
  | linc (i : Issue) (w : BitVec 34)
  /-- SNEXT (R211): Requests a new main or fill entry address, which takes effect at the committing bell. -/
  | snext (i : Issue) (w : BitVec 34)
  /-- SOWN (R205): Requests a new stream attribute for a handle, which takes effect at the committing bell. -/
  | sown (i : Issue) (w : BitVec 34)
  /-- LOOP_END (R202): A bundle whose header CLASS is from 1 to 6 closes that many innermost frames, applies their increments and selects the next bundle address. -/
  | loopEnd (i : Issue)
  /-- STOP_BUNDLE (R192): The stop bit ends the issuing stream for the step, after the stop-bundle checks. -/
  | stopBundle (i : Issue)
  /-- VNOP (R165): Vector-slot no-operation. -/
  | vnop (i : Issue) (w : BitVec 40)
  /-- VADD (R169): Adds or subtracts lanes with wrap, signed saturation or unsigned saturation. -/
  | vadd (i : Issue) (w : BitVec 40)
  /-- VMUL (R169): Multiplies 16-bit halves of the lanes, signed or unsigned. -/
  | vmul (i : Issue) (w : BitVec 40)
  /-- VMULH (R169): Forms the exact 64-bit lane product, rounds and shifts it, then saturates. -/
  | vmulh (i : Issue) (w : BitVec 40)
  /-- VSHIFT (R170): Shifts lanes by LSL, LSR, ASR, RSR or SLS, by an immediate or by per-lane amounts. -/
  | vshift (i : Issue) (w : BitVec 40)
  /-- VLOGIC (R169): Applies a bitwise operation to two vector registers. -/
  | vlogic (i : Issue) (w : BitVec 40)
  /-- VMINMAX (R169): Writes the lane-wise minimum or maximum, signed or unsigned. -/
  | vminmax (i : Issue) (w : BitVec 40)
  /-- VCOUNT (R169): Counts the leading zeros or leading sign bits of each lane. -/
  | vcount (i : Issue) (w : BitVec 40)
  /-- VCMP (R171): Writes the mask bits of a lane-wise comparison. -/
  | vcmp (i : Issue) (w : BitVec 40)
  /-- VSEL (R171): Selects each lane from one of two registers under a mask. -/
  | vsel (i : Issue) (w : BitVec 40)
  /-- VPERM (R172): Permutes lanes by a ROT, XOR, BCAST, REV, ZIP, UNZIP or SHIFTIN pattern. -/
  | vperm (i : Issue) (w : BitVec 40)
  /-- VUNPK (R175): Decodes 32 packed elements into lanes at a lane exponent. -/
  | vunpk (i : Issue) (w : BitVec 40)
  /-- VPACK (R175): Encodes 32 lanes into packed elements, and for MX formats also writes the scale. -/
  | vpack (i : Issue) (w : BitVec 40)
  /-- VLUT (R176): Reads one table entry for each lane over 8 fc and writes the result at t + 12. -/
  | vlut (i : Issue) (w : BitVec 40)
  /-- VMOVI (R173): Writes an immediate into every lane. -/
  | vmovi (i : Issue) (w : BitVec 40)
  /-- VSPLAT (R173): Writes a scalar register into every lane. -/
  | vsplat (i : Issue) (w : BitVec 40)
  /-- VGET (R173): Copies one lane, sign-extended, into a scalar register, and counts an escape when the lane is bruised. -/
  | vget (i : Issue) (w : BitVec 40)
  /-- MSET (R171): Writes an immediate into a mask register and clears its bruise bits. -/
  | mset (i : Issue) (w : BitVec 40)
  /-- MLOGIC (R171): Combines two mask registers bit by bit. -/
  | mlogic (i : Issue) (w : BitVec 40)
  /-- MNOP (R134): Matrix no-operation; with WARM set, it begins the chaff current ramp-up. -/
  | mnop (i : Issue) (w : BitVec 44)
  /-- MLOAD (R111): Loads an input tile into an array bank. -/
  | mload (i : Issue) (w : BitVec 44)
  /-- MSTREAM (R114): Streams weight columns through a loaded bank into accumulator entries. -/
  | mstream (i : Issue) (w : BitVec 44)
  /-- MTILE (R124): Folds a logical tile into timed MLOAD and MSTREAM passes. -/
  | mtile (i : Issue) (w : BitVec 44)
  /-- MANCHOR (R120): Sets the anchor and kind of an accumulator group and zeroes its entries. -/
  | manchor (i : Issue) (w : BitVec 44)
  /-- MREAD (R149): Reads 32 accumulator entries out into vector lanes, with shift and rounding. -/
  | mread (i : Issue) (w : BitVec 44)
  /-- MPROBE (R153): Snapshots a group's block top, sum top, saturation and bruise into a scalar register. -/
  | mprobe (i : Issue) (w : BitVec 44)
  /-- MTILE_PASS (R125): A pass of a running MTILE begins its load or stream at its fixed offset. -/
  | mtilePass (c : CoreId)
  /-- MSTREAM_COLUMN (R116): The reads of one weight column begin at their fixed offset, and the column is checked. -/
  | mstreamColumn (c : CoreId)
  /-- CONTRIBUTION_LANDS (R140): A column's block contributions land in an accumulator entry, adding or replacing. -/
  | contributionLands (c : CoreId)
  /-- RESIDUE_CHECK_EVENT (R131): The modulo-3 residue check of a row mismatches, so a column test is scheduled. -/
  | residueCheckEvent (c : CoreId) (chaff : Bool)
  /-- COLUMN_TEST_DONE (R132): The 4,096 fc column test ends, and its findings are acted on. -/
  | columnTestDone (c : CoreId) (found : BitVec 34)
  /-- LNOP (R239): Load-slot no-operation. -/
  | lnop (i : Issue) (w : BitVec 32)
  /-- LDV (R240): Loads 128 raw bytes into a vector register. -/
  | ldv (i : Issue) (w : BitVec 32)
  /-- LDS (R240): Loads 8 raw bytes into a scalar register. -/
  | lds (i : Issue) (w : BitVec 32)
  /-- LDVS (R240): Loads 32 strided elements into lanes. -/
  | ldvs (i : Issue) (w : BitVec 32)
  /-- LDVG (R240): Gathers 32 elements into lanes through an index tensor. -/
  | ldvg (i : Issue) (w : BitVec 32)
  /-- SNOPST (R239): Store-slot no-operation. -/
  | snopst (i : Issue) (w : BitVec 32)
  /-- STV (R240): Stores raw words of a vector register. -/
  | stv (i : Issue) (w : BitVec 32)
  /-- STS (R240): Stores 8 bytes of a scalar register. -/
  | sts (i : Issue) (w : BitVec 32)
  /-- STVS (R240): Stores 32 lanes as strided elements. -/
  | stvs (i : Issue) (w : BitVec 32)
  /-- STVG (R240): Scatters 32 lanes through an index tensor. -/
  | stvg (i : Issue) (w : BitVec 32)
  /-- RESULT_WRITE_LANDS (R166): A result of a vector, scalar, load, MREAD or MPROBE operation lands in its register at its fixed offset. -/
  | resultWriteLands (c : CoreId)
  /-- STORE_WRITE_LANDS (R241): A store's line writes land at their fixed offsets, with read-modify-write for partial words. -/
  | storeWriteLands (c : CoreId)
  /-- FILL_OP_RESUMES (R207): A held fill-stream operation takes a port or write path in a free fc. -/
  | fillOpResumes (c : CoreId)
  /-- PATROL_SCRUB_READ (R228): The patrol scrub reads its next line in a free read port. -/
  | patrolScrubRead (c : CoreId) (dt : Nat)
  /-- PATROL_SCRUB_WRITEBACK (R228): The scrub writes back corrected or bruised words in the next free write port, or drops the write-back. -/
  | patrolScrubWriteback (c : CoreId) (dt : Nat)
  /-- SYNOP (R248): Sync-slot no-operation. -/
  | synop (i : Issue) (w : BitVec 27)
  /-- WAIT (R252): Holds the bundle until a tally reaches a threshold, then optionally subtracts the threshold. -/
  | wait (i : Issue) (w : BitVec 27)
  /-- TEST (R251): Copies a tally into a scalar register. -/
  | test (i : Issue) (w : BitVec 27)
  /-- TADD (R247): Adds to or subtracts from a local tally. -/
  | tadd (i : Issue) (w : BitVec 27)
  /-- SIG (R254): Sends a tally increment to a core in a SIG train slot. -/
  | sig (i : Issue) (w : BitVec 27)
  /-- BAR (R258): Registers the core's arrival in the next round of a barrier group. -/
  | bar (i : Issue) (w : BitVec 27)
  /-- POST (R261): Queues a posted message of one to four words for a receiver's ring. -/
  | post (i : Issue) (w : BitVec 27)
  /-- SELECT (R266): Waits for and takes an untaken entry from the enabled rings that MASK names. -/
  | select (i : Issue) (w : BitVec 27)
  /-- RELEASE (R266): Frees the oldest taken entry of a ring. -/
  | release (i : Issue) (w : BitVec 27)
  /-- CADD (R274): Requests an addition to a commons tally, which is applied at the committing bell. -/
  | cadd (i : Issue) (w : BitVec 27)
  /-- CWAIT (R252): Waits until the core's view of a commons tally reaches a threshold. -/
  | cwait (i : Issue) (w : BitVec 27)
  /-- CPUT (R274): Requests a put of a word into a plot's mailbox at the committing bell. -/
  | cput (i : Issue) (w : BitVec 27)
  /-- CTAKE (R277): Waits for the plot's own mailbox to be full and reads its word. -/
  | ctake (i : Issue) (w : BitVec 27)
  /-- AMSG (R271): Sends an active message naming a handler, where active messages are enabled. -/
  | amsg (i : Issue) (w : BitVec 27)
  /-- SIGNAL_LANDS (R254): A signal reaches its destination and raises the tally. -/
  | signalLands (flit : Nat)
  /-- POSTED_MESSAGE_LANDS (R265): A posted delivery is written into a ring entry through a free write port. -/
  | postedMessageLands (flit : Nat)
  /-- GRANARY_SPILL (R267): A delivery held 256 fc at a full ring is written to the granary instead. -/
  | granarySpill (c : CoreId) (ring : BitVec 3)
  /-- GRANARY_DRAIN_LANDS (R268): A drained granary entry lands in its ring. -/
  | granaryDrainLands (c : CoreId) (ring : BitVec 3)
  /-- POSTED_FLIT_ADVANCE (R298): A posted flit moves on when a link slot and the next buffer are free. -/
  | postedFlitAdvance (flit : Nat)
  /-- ACTIVE_MESSAGE_ARRIVES (R271): An active message reaches a core and is queued, or is discarded when it is not enabled. -/
  | activeMessageArrives (flit : Nat)
  /-- HANDLER_START (R272): When the main stream is idle, the oldest queued active message starts its handler. -/
  | handlerStart (c : CoreId) (dt : Nat)
  /-- BARRIER_COMPLETION_LANDS (R258): A completed barrier round raises the group tally in a member field at the landing offset. -/
  | barrierCompletionLands (fn : Fn) (group : BitVec 6) (field : FieldId)
  /-- ORPHAN_WAIT (R278): A wait held on a commons object that became orphaned is released and reported. -/
  | orphanWait (c : CoreId)
  /-- DOZE_ENTRY (R253): After 4,096 fc of waiting with nothing in flight, the core clock-gates its pipelines. -/
  | dozeEntry (c : CoreId) (dt : Nat)
  /-- LINE_FIRING (R292): A LINE train copies scratchpad lines to a remote handle as flits. -/
  | lineFiring (c : CoreId) (slot : BitVec 10)
  /-- PARTIAL_FIRING (R293): A PARTIAL train reads accumulator entries and sends them as a partial block. -/
  | partialFiring (c : CoreId) (slot : BitVec 10)
  /-- LAND_FIRING (R288): A LAND train claims write ports for arriving flits. -/
  | landFiring (c : CoreId) (slot : BitVec 10)
  /-- RECV_FIRING (R296): A RECV train releases flits from a bridge elastic buffer. -/
  | recvFiring (c : CoreId) (slot : BitVec 10)
  /-- BRIDGE_FLIT_ARRIVES (R296): A flit that crossed a field edge enters the receiving elastic buffer, which overruns when it is full. -/
  | bridgeFlitArrives (flit : Nat) (offset : Nat)
  /-- FLIT_ADVANCE (R299): A scheduled flit moves a hop, or is held by link-collision order and tries again in the next fc. -/
  | flitAdvance (flit : Nat)
  /-- SCHEDULED_FLIT_LANDS (R300): A scheduled flit lands in the receiver's scratchpad through a write port and is checked. -/
  | scheduledFlitLands (flit : Nat)
  /-- PARTIAL_MERGE_LANDS (R146): A received partial block is checked and merged into target entries. -/
  | partialMergeLands (c : CoreId)
  /-- DS_READ_FIRING (R317): A deep-store READ entry requests its units. -/
  | dsReadFiring (ch : ChanId) (entry : BitVec 6)
  /-- DS_WRITE_FIRING (R318): A deep-store WRITE entry reads source lines and requests journaled unit writes. -/
  | dsWriteFiring (ch : ChanId) (entry : BitVec 6)
  /-- DS_GRANARY_FIRING (R319): A GRANARY entry serves one drain or spill unit of a core. -/
  | dsGranaryFiring (ch : ChanId) (entry : BitVec 6)
  /-- DS_READ_UNIT_LANDS (R317): A READ unit lands in the core 512 fc after its request. -/
  | dsReadUnitLands (ch : ChanId)
  /-- DS_WRITE_PERFORMED (R318): A WRITE unit comes to stand in the stack after its pre-image is journaled. -/
  | dsWritePerformed (ch : ChanId)
  /-- DEEP_STALL (R326): A late READ unit or a full write queue stalls the plot in that field. -/
  | deepStall (ch : ChanId)
  /-- DEEP_STALL_END (R326): The awaited unit arrives or the queue has room, so the field's clock gate resumes. -/
  | deepStallEnd (ch : ChanId) (periods : Nat)
  /-- DS_REFRESH (R324): A refresh falls due and occupies the channel for 200 beats. -/
  | dsRefresh (ch : ChanId)
  /-- DS_SCRUB (R332): A channel scrubs a unit in a free beat and rewrites it corrected or bruised. -/
  | dsScrub (ch : ChanId) (unit : Nat)
  /-- CORE_ARRIVES (R54): A participant core meets all arrival conditions for the step. -/
  | coreArrives (c : CoreId)
  /-- FIELD_ARRIVAL_REGISTERED (R57): A field's arrival is registered at the bell logic. -/
  | fieldArrivalRegistered (fn : Fn) (field : FieldId) (dh : Nat)
  /-- BELL_INTERVAL_ELAPSED (R52): 2,000 hc pass since the domain's previous bell, so a waiting bell may ring. -/
  | bellIntervalElapsed (fn : Fn) (dh : Nat)
  /-- BELL_IN_EDGE (R60): An edge of the configured polarity on BELL_IN is accepted into the latch or rejected. -/
  | bellInEdge (falling : Bool) (dh : Nat)
  /-- SYNC_LATE (R61): The frame-mode hold window ends without an edge, and the bell rings. -/
  | syncLate (fn : Fn) (dh : Nat)
  /-- BELL_RINGS (R43): The domain's bell rings; the step commits or is retried, and bell-time changes and packet stages apply. -/
  | bellRings (fn : Fn) (dh : Nat)
  /-- STEP_RELEASE (R57): The release reaches a field, and its domain's cores start offset 0. -/
  | stepRelease (fn : Fn) (field : FieldId)
  /-- STEP_LIMIT (R59): A core reaches the end of offset 0xFF_FFFF without arriving; the domain stops. -/
  | stepLimit (fn : Fn)
  /-- IDLE_BELL (R50): The idle domain rings on its 2,000 hc grid and applies management changes that are due. -/
  | idleBell (dh : Nat)
  /-- EMPTY_BELL (R443): A plot in state 1 or 2 rings a bell for an accepted packet, running the packet stages. -/
  | emptyBell (fn : Fn) (dh : Nat)
  /-- DROOP_TRIP (R65): A field's droop detector trips and the oscillator lengthens its period. -/
  | droopTrip (field : FieldId)
  /-- DROOP_FLOOR (R69): The droop stays tripped 8 fc at 1.10 GHz; the plots retry and the ceiling is lowered. -/
  | droopFloor (field : FieldId)
  /-- DROOP_CEILING_RESTORE (R69): After each further 1,024 idle bells, the lowered ceiling rises by 100 MHz. -/
  | droopCeilingRestore (field : FieldId)
  /-- SYSREF_LOSS (R77): Loss of SYSREF is declared; holdover begins and domains are held at their next bell. -/
  | sysrefLoss (dh : Nat)
  /-- SYSREF_RELOCK (R76): SYSREF has been stable 1 ms with the PLL locked; held domains are released. -/
  | sysrefRelock (dh : Nat)
  /-- HOLDOVER_EXPIRY (R77): SYSREF has not relocked 10 ms after loss; the optical ports go down and multi-module domains stop. -/
  | holdoverExpiry (dh : Nat)
  /-- PCIE_REFCLK_LOSS (R78): Loss of PCIE_REFCLK is declared and reported; steps continue. -/
  | pcieRefclkLoss (dh : Nat)
  /-- PCIE_REFCLK_RELOCK (R76): PCIE_REFCLK has been stable for 1 ms and counts as relocked. -/
  | pcieRefclkRelock (dh : Nat)
  /-- STEP_ABANDON (R385): A fault abandons the attempt; the plot is halted, bell images and journals are restored and repairs run. -/
  | stepAbandon (fn : Fn) (dh : Nat)
  /-- RETRY_RELEASE (R385): Once restore and repair have ended in every module, the retried attempt is released. -/
  | retryRelease (fn : Fn) (dh : Nat)
  /-- CORE_LOST (R388): A missing heartbeat of 64 hc or a repeated logic check marks a core failed and remaps it. -/
  | coreLost (c : CoreId) (cause : LostCause)
  /-- POWER_DOMAIN_FAULT (R388): A core's power domain reports a fault and the core is marked failed. -/
  | powerDomainFault (c : CoreId)
  /-- LOGIC_CHECK_EVENT (R388): A parity or residue mismatch in a pipeline or router buffer is detected. -/
  | logicCheckEvent (c : CoreId)
  /-- BRIDGE_LINK_FAILURE (R37): A bridge link fails and is replaced by a spare, or the plots using it stop. -/
  | bridgeLinkFailure (field : FieldId) (edge : BitVec 2) (link : BitVec 6)
  /-- IMAGE_SCRUB_PASS (R392): The scrubber completes a 20 µs pass over a core's image state and compares signatures. -/
  | imageScrubPass (c : CoreId) (object : BitVec 4) (block : BitVec 12) (mismatch copyBad : Bool)
  /-- LASER_AGEING (R398): The once-per-second read of lane FEC counts flags lanes above THRESH. -/
  | laserAgeing (port : PortId)
  /-- LOCKSTEP_DIGEST_RECEIVED (R400): The partner's step digest arrives and is compared before commit. -/
  | lockstepDigestReceived (fn : Fn) (x : LockstepExchange)
  /-- RECORD_DELIVERY (R365): A closed record, once signed, is delivered to the host and frees its record place. -/
  | recordDelivery
  /-- NOP (R419): Host packet that does nothing but earn a COMPLETION. -/
  | nop (p : PacketIn)
  /-- STATE (R427): Host packet, staged for its bell, that writes state into plot space. -/
  | state (p : PacketIn)
  /-- REQUEST (R427): Host packet, staged for its bell, that writes a request's input into plot space. -/
  | request (p : PacketIn)
  /-- FETCH (R428): Host packet that reads plot-space units at its bell and returns a RESULT. -/
  | fetch (p : PacketIn)
  /-- STEPARG (R321): Host packet that sets a stream base register at its bell. -/
  | steparg (p : PacketIn)
  /-- RUN_START (R336): Host packet that opens a run with SEED and PLOTKEY at its bell. -/
  | runStart (p : PacketIn)
  /-- RUN_END (R336): Host packet that ends the open run at its bell. -/
  | runEnd (p : PacketIn)
  /-- RECORD_CLOSE (R355): Host packet that closes the open record with CLOSE 2 at its bell. -/
  | recordClose (p : PacketIn)
  /-- LOAD_IMAGE (R493): Host packet that loads a catalogue image into the plot at its bell. -/
  | loadImage (p : PacketIn)
  /-- PLOT_CREATE (R444): Management packet that places a new plot on a rectangle of cores. -/
  | plotCreate (p : PacketIn)
  /-- PLOT_RESIZE (R447): Management packet that moves a plot to a new rectangle. -/
  | plotResize (p : PacketIn)
  /-- PLOT_PREEMPT (R450): Management packet that saves a plot's cores to deep store and frees them. -/
  | plotPreempt (p : PacketIn)
  /-- PLOT_RESUME (R451): Management packet that re-places a pre-empted or stopped plot. -/
  | plotResume (p : PacketIn)
  /-- PLOT_RESET (R454): Management packet that removes a plot. -/
  | plotReset (p : PacketIn)
  /-- QUOTA (R457): Management packet that sets a plot's channel and footprint quota. -/
  | quota (p : PacketIn)
  /-- BUDGET (R460): Management packet that sets a plot's power budget. -/
  | budget (p : PacketIn)
  /-- COMMONS_ASSIGN (R465): COMMONS operation 0: assigns ownership of tallies or the plot's mailbox, zeroing or emptying them. -/
  | commonsAssign (p : PacketIn)
  /-- COMMONS_GRANT (R465): COMMONS operation 1: adds a grant window. -/
  | commonsGrant (p : PacketIn)
  /-- COMMONS_REVOKE (R465): COMMONS operation 2: removes matching grant windows. -/
  | commonsRevoke (p : PacketIn)
  /-- PLOT_JOIN (R526): Management packet that joins a plot to a multi-module plot group. -/
  | plotJoin (p : PacketIn)
  /-- PLOT_LEAVE (R525): PLOT_JOIN with LEAVE set, which leaves the group. -/
  | plotLeave (p : PacketIn)
  /-- JOIN_CONFIRMED (R526): The root holds equal joins from every member, and the members are joined at the next group bell. -/
  | joinConfirmed (group : BitVec 8)
  /-- JOIN_TIMEOUT (R526): Not every member has joined within 100 ms, so the join is refused at every member. -/
  | joinTimeout (group : BitVec 8)
  /-- CALENDAR (R502): Management packet that sets the calendar. -/
  | calendar (p : PacketIn)
  /-- FLASH_BEGIN (R494): FLASH operation that claims and erases a range and marks a slot pending. -/
  | flashBegin (p : PacketIn)
  /-- FLASH_WRITE (R494): FLASH operation that programs container bytes. -/
  | flashWrite (p : PacketIn)
  /-- FLASH_COMMIT (R494): FLASH operation that verifies a container and writes the catalogue with the slot valid. -/
  | flashCommit (p : PacketIn)
  /-- FLASH_DELETE (R494): FLASH operation that writes the catalogue with a slot empty. -/
  | flashDelete (p : PacketIn)
  /-- FLASH_CONFIG (R494): FLASH operation that verifies and writes a configuration block. -/
  | flashConfig (p : PacketIn)
  /-- FLASH_RAISE (R494): FLASH operation that blows fuses to raise the minimum security version. -/
  | flashRaise (p : PacketIn)
  /-- FLASH_KEYLOAD (R497): FLASH operation that unwraps and installs a new battery key. -/
  | flashKeyload (p : PacketIn)
  /-- FLASH_OP_DONE (R495): A queued flash operation ends and its COMPLETION is written. -/
  | flashOpDone
  /-- PREEMPT_SAVE_DONE (R450): The save blocks have been written; the cores are cleared and STATE reads 6. -/
  | preemptSaveDone (fn : Fn)
  /-- RESUME_RESTORE_DONE (R451): The share copies and save-block restores end, and the plot reaches state 2 or 1. -/
  | resumeRestoreDone (fn : Fn)
  /-- CORE_CLEAR_DONE (R445): A core that left a plot finishes clearing and joins the free idle domain. -/
  | coreClearDone (c : CoreId)
  /-- CHANNEL_ZERO_DONE (R456): A released channel's share has been zeroed and the channel becomes free. -/
  | channelZeroDone (ch : ChanId)
  /-- SQ_READ_RESUME (R424): A bell frees staging room, so reading of a paused submission ring resumes. -/
  | sqReadResume (fn : Fn)
  /-- DEVICE_PACKET_WRITE (R433): A device packet is written into the completion ring once it has room. -/
  | devicePacketWrite (fn : Fn)
  /-- IRQ_HOLDOFF_EXPIRY (R434): HOLDOFF µs pass since the first unsignalled unit, so vector 0 fires. -/
  | irqHoldoffExpiry (fn : Fn)
  /-- DMA_ERROR (R438): A DMA request completes with an error, which halts its ring with CAUSE 2. -/
  | dmaError (fn : Fn) (completion : Bool)
  /-- PCIE_LINK_DOWN (R438): The host link goes down and DMA stops while plots run on. -/
  | pcieLinkDown
  /-- PCIE_LINK_RETRAIN (R438): The link retrains without reset and DMA resumes. -/
  | pcieLinkRetrain
  /-- FLR (R437): A function-level reset or VF disable discards the function's packets and resets its plot. -/
  | flr (fn : Fn)
  /-- PERST_N (R479): PERST_N or hot reset resets the controller; after bell zero every function resets and the start-up plots reload. -/
  | perstN
  /-- SQTAIL_DOORBELL (R416): A host write of the submission TAIL, taken when it obeys the ring limits. -/
  | sqtailDoorbell (fn : Fn) (tail : BitVec 32)
  /-- CQHEAD_WRITE (R416): A host write of the completion HEAD, which frees consumed units. -/
  | cqheadWrite (fn : Fn) (head : BitVec 32)
  /-- RING_ENABLE (R415): Setting ENABLE zeroes TAIL and HEAD and clears HALTED. -/
  | ringEnable (fn : Fn) (completion : Bool) (v : Word)
  /-- RING_DISABLE (R415): Clearing ENABLE stops the ring after the packet in progress. -/
  | ringDisable (fn : Fn) (completion : Bool) (v : Word)
  /-- BELLCTL_WRITE (R62): A write to PLT.BELLCTL is held and takes effect at the next bell, or is ignored. -/
  | bellctlWrite (fn : Fn) (v : Word)
  /-- RWL_FIELD_WRITE (R21): A write to an RWL field stands before the image load and is ignored after it. -/
  | rwlFieldWrite (fn : Fn) (field : RwlField) (v : Word)
  /-- DIAG_GO (R455): Writing GO releases diagnostic steps of a stopped plot. -/
  | diagGo (fn : Fn) (v : Word)
  /-- DIAG_STEP (R455): One diagnostic step runs to arrival or fault and is undone. -/
  | diagStep (fn : Fn) (fault : Option DiagFault)
  /-- FAULTSUM_CLEAR (R382): Writing 1 to a HUB.FAULTSUM status bit clears it and updates FAULT_N. -/
  | faultsumClear (v : Word)
  /-- MBOXFROM_READ (R435): A host read of PLT.MBOXFROM returns the answer and clears FROM_FULL. -/
  | mboxfromRead (fn : Fn)
  /-- READ_CLEAR (R20): A read of an RC field returns the value and clears it. -/
  | readClear (fn : Fn) (addr : RegAddr)
  /-- REGISTER_WRITE (R409): A write to a register with no row of its own is taken, or is ignored and counted. -/
  | registerWrite (fn : Fn) (addr : RegAddr) (size : AccessSize) (v : Word)
  /-- PING (R436): Mailbox command that echoes its argument. -/
  | ping (fn : Fn) (arg : BitVec 56)
  /-- STATUS (R436): Mailbox command that returns the plot state and bell number. -/
  | status (fn : Fn) (arg : BitVec 56)
  /-- DRAIN (R436): Mailbox command that waits for the submission ring and backlog to empty. -/
  | drain (fn : Fn) (arg : BitVec 56)
  /-- DRAIN_COMPLETE (R436): The ring is idle and the backlog empty; DRAIN is answered and ENABLE cleared. -/
  | drainComplete (fn : Fn)
  /-- PWR_OK_RISE (R470): PWR_OK rises and a cold start begins at phase 0. -/
  | pwrOkRise
  /-- PWR_OK_FALL (R479): PWR_OK falls, and all state except the retained domains is lost. -/
  | pwrOkFall
  /-- RESET_PHASE_DONE (R470): Phase 0 ends once the fuses are read and the hub PLL is locked. -/
  | resetPhaseDone
  /-- HUB_TEST_DONE (R471): The hub known-answer tests end, passing or halting the module. -/
  | hubTestDone (pass : Bool)
  /-- KEYS_DONE (R470): The key store is loaded and JTAG is locked, ending phase 2. -/
  | keysDone
  /-- FLASH_PHASE_DONE (R470): Phase 3 ends with the boot header, catalogue and configuration read and the images verified. -/
  | flashPhaseDone
  /-- FIELD_TEST_DONE (R478): Self-test of cores, columns, links and channels ends, with failures remapped or recorded. -/
  | fieldTestDone (findings : List TestFinding)
  /-- LINKS_DONE (R515): Optical training and module numbering end. -/
  | linksDone (r : LinksResult)
  /-- LOAD_PHASE_DONE (R476): The start-up plots are loaded and LOADED_N is released or held under the policy. -/
  | loadPhaseDone
  /-- LOADED_N_RISE (R474): LOADED_N has been sampled high for 1,000 hc and counts as risen. -/
  | loadedNRise (dh : Nat)
  /-- BELL_ZERO (R474): The module rings bell zero at its time or epoch. -/
  | bellZero (dh : Nat)
  /-- CODEWORD_RECEIVED (R509): A lane codeword is decoded, corrected or found uncorrectable and answered by a NAK. -/
  | codewordReceived (port : PortId) (lane : BitVec 4) (seq : BitVec 12) (symbolErrors : Nat)
  /-- NAK_RECEIVED (R511): The sender replays from the named SEQ; the eighth failed replay marks the lane failed. -/
  | nakReceived (port : PortId) (lane : BitVec 4) (seq : BitVec 12) (replayed : Nat)
  /-- ACK_RECEIVED (R511): A cumulative acknowledgement frees retry-buffer codewords. -/
  | ackReceived (port : PortId) (lane : BitVec 4) (seq : BitVec 12)
  /-- BELL_FRAME_RECEIVED (R510): A bell frame is removed from the lane and its word is taken, or resent on a CRC error. -/
  | bellFrameReceived (port : PortId) (word : Word) (crcOk : Bool)
  /-- SPARE_LANE_TRAINED (R512): The spare lane completes training and takes the failed lane's number. -/
  | spareLaneTrained (port : PortId) (ok : Bool)
  /-- LINK_TRAINING (R515): A lit port trains, deskews, tests its spare and measures DELAY. -/
  | linkTraining (port : PortId) (r : TrainResult)
  /-- OPTICAL_LINK_DOWN (R535): An optical port goes down, and the plot groups that use it stop. -/
  | opticalLinkDown (port : PortId)
  /-- SYNC (R517): Bell word carrying timestamps for system-time alignment, sent at training and every 1 ms. -/
  | sync (port : PortId) (w : Word) (correction : Int)
  /-- ARRIVE (R520): Bell word reporting that a subtree's members have arrived. -/
  | arrive (port : PortId) (w : Word)
  /-- EDGE (R523): Bell word carrying an accepted BELL_IN edge to the root. -/
  | edge (port : PortId) (w : Word)
  /-- RING (R520): Bell word carrying the epoch at which members ring the bell. -/
  | ring (port : PortId) (w : Word)
  /-- HALT (R524): Bell word that halts every member of a group. -/
  | halt (port : PortId) (w : Word)
  /-- STOP (R524): Bell word naming the bell at which every member stops. -/
  | stop (port : PortId) (w : Word)
  /-- CONTROL (R527): Bell word carrying a group packet or join to the members or the root. -/
  | control (port : PortId) (w : Word)
  /-- BELL_EPOCH (R520): A member's system time reaches the epoch E and the group bell rings. -/
  | bellEpoch (fn : Fn) (dh : Nat)
  /-- TRANSIT_FLIT (R529): A flit for another module passes through the hub's transit switch. -/
  | transitFlit (flit : Nat)
  /-- GATE_RELEASE (R531): A gate releases an inter-module flit into the mesh at its receive offset, or stalls the field. -/
  | gateRelease (gate : CoreId) (flit : Nat) (periods : Nat)
  /-- CREDIT_RETURN (R530): Credit returns to a sending gate and a held flit may leave. -/
  | creditReturn (gate : CoreId) (n : Nat) (periods : Nat)
  /-- THERMAL_SAMPLE (R555): The 100 µs temperature sample sets each field's thermal ceiling. -/
  | thermalSample (t : ThermalReading)
  /-- THERMAL (R556): Ten hot samples begin a thermal hold of the field's plots at the next bell. -/
  | thermal (field : FieldId)
  /-- THERMAL_HOLD_END (R556): Ten samples at or below 100 °C end the thermal hold. -/
  | thermalHoldEnd (field : FieldId)
  /-- POWER_SAMPLE (R540): The 100 µs power and current sample lowers or raises field ceilings. -/
  | powerSample (watts amps : Nat)
  /-- VSET_SETTLED (R539): 100 µs after VSET rises, the waiting ceiling rise applies. -/
  | vsetSettled
  /-- RAIL_TRIP (R544): A rail stays past its trip limit for 10 µs, and the module resets as on a PWR_OK fall. -/
  | railTrip (rail : BitVec 4)
  /-- THERMTRIP (R558): A sensor reads 115 °C or more; THERMTRIP_N is asserted and the module resets. -/
  | thermtrip (sensor : Nat)
  /-- VBAT_LOSS (R541): VBAT falls below 2.2 V without VIO, losing the battery domain. -/
  | vbatLoss
  /-- CALENDAR_END (R501): The calendar reaches its last instant and stops. -/
  | calendarEnd (dh : Nat)
  /-- JTAG_INSTRUCTION (R498): An instruction is loaded on the JTAG port, or BYPASS is loaded when it is locked. -/
  | jtagInstruction (ins : JtagInstr)
  /-- DEBUG_UNLOCK (R499): A response shifted into DBGRESP is verified and grants level 1 or 2. -/
  | debugUnlock (level : BitVec 8) (key signature : Nat)
  /-- I3C_DYNAMIC_ADDRESS (R552): ENTDAA or SETDASA assigns the target's dynamic address. -/
  | i3cDynamicAddress (addr : BitVec 7)
  /-- I3C_SET_OFFSET (R553): A 4-byte private write sets the window offset. -/
  | i3cSetOffset (offset : BitVec 32)
  /-- I3C_READ (R553): A private read returns registers and advances the offset. -/
  | i3cRead (len : Nat)
  /-- I3C_WRITE (R553): A longer private write writes registers, of which only HUB.FAULTSUM takes writes. -/
  | i3cWrite (offset : BitVec 32) (words : List Word)
  /-- LOGPORT_READ (R553): A 64-byte read of HUB.LOGPORT returns the next unread log report. -/
  | logportRead
  /-- DROOP_RECOVERY (R65): Once the supply has recovered, a tripped field oscillator returns to its ceiling. -/
  | droopRecovery (field : FieldId)
  /-- COMMONS_VIEW_UPDATE (R276): A committed commons add or mailbox put becomes visible in a core's view, within 200 hc of the commit, which can release a held CWAIT or CTAKE. -/
  | commonsViewUpdate (c : CoreId)
  /-- COMMONS_REQUEST_ACCEPTED (R274): A CADD or CPUT request reaches the hub and is accepted, which counts it as landed for arrival and in PENDING. -/
  | commonsRequestAccepted (c : CoreId)
  /-- PERST_N_DEASSERT (R473): PERST_N is deasserted, and the PCI Express controller leaves reset and answers with Request Retry Status until phase 2. -/
  | perstNDeassert
  /-- LOADED_N_FALL (R476): LOADED_N falls again after release and before the rise is taken, which restarts the 1,000 hc count. -/
  | loadedNFall
  /-- VBAT_APPLIED (R501): VBAT is applied, and the battery domain starts running, with the calendar and battery key in their lost state. -/
  | vbatApplied
  deriving DecidableEq, Repr

end Sys2Proof
end

