-- ==== Sys2Proof/Decode.lean ====
section
/-! DEFINITION. The command decoder (the table gives no row any bits) and the slot decoders and encoders of a bundle, written from the encoding tables of R108, R109, R149, R153, R165, R199, R239 and R248. A slot decoder accepts a word only when the encoder gives the word back, so every reserved bit is 0, and only when every field is in its range. -/

namespace Sys2Proof

/-- The command that a table word spells: no row of the table has bits, so none does. -/
def decodeTableWord (_nbits _w : Nat) : Option Instr := none

/-- The element width in bits of a format code, 0 for a reserved code (R81). -/
def fmtWidth (f : BitVec 4) : Nat :=
  match f.toNat with
  | 0 => 8 | 1 => 16 | 2 => 32 | 3 => 8 | 4 => 8 | 5 => 8 | 6 => 6 | 7 => 6 | 8 => 4 | 9 => 16 | 10 => 16 | 11 => 32
  | _ => 0

/-- Block-scaled formats (R81). -/
def fmtIsMx (f : BitVec 4) : Bool := 3 ≤ f.toNat && f.toNat ≤ 8

/-- Parts of a packed register that a format has (R174). -/
def partCount (f : BitVec 4) : Nat :=
  match fmtWidth f with
  | 4 => 8 | 6 => 5 | 8 => 4 | 16 => 2 | 32 => 1
  | _ => 0

/-- The scalar slot bits of an operation (R199). -/
def encodeScalar : ScalarOp → BitVec 40
  | .snop => 0#6 ++ 0#34
  | .sadd d a b ov sub => 1#6 ++ d ++ a ++ b ++ ov ++ sub ++ 0#16
  | .saddi d a imm => 2#6 ++ d ++ a ++ 0#5 ++ imm
  | .smul d a b ov => 3#6 ++ d ++ a ++ b ++ ov ++ 0#17
  | .slogic d a b fn => 4#6 ++ d ++ a ++ b ++ fn ++ 0#17
  | .sshift d a b kind reg amt mode => 5#6 ++ d ++ a ++ b ++ kind ++ reg ++ amt ++ mode ++ 0#8
  | .sminmax d a b max uns => 6#6 ++ d ++ a ++ b ++ max ++ uns ++ 0#17
  | .scmp d a b cond => 7#6 ++ d ++ a ++ b ++ cond ++ 0#16
  | .ssel d a b c => 8#6 ++ d ++ a ++ b ++ c ++ 0#14
  | .slui d imm => 9#6 ++ d ++ 0#5 ++ imm
  | .smovi d imm => 10#6 ++ d ++ imm
  | .sfeat d index => 11#6 ++ d ++ 0#10 ++ index ++ 0#16
  | .amov ad sa imm => 12#6 ++ ad ++ 0#1 ++ sa ++ 0#5 ++ imm
  | .aadd ad aa imm => 13#6 ++ ad ++ 0#2 ++ aa ++ 0#5 ++ imm
  | .aget sd aa => 14#6 ++ sd ++ 0#1 ++ aa ++ 0#24
  | .lbegin frame creg sa count => 15#6 ++ frame ++ creg ++ 0#1 ++ sa ++ 0#5 ++ count
  | .linc frame slot ar en inc => 16#6 ++ frame ++ slot ++ ar ++ en ++ 0#5 ++ inc
  | .snext f nreg sa entry => 17#6 ++ f ++ nreg ++ 0#3 ++ sa ++ 0#11 ++ entry
  | .sown handle owner => 18#6 ++ handle ++ owner ++ 0#26

/-- The fields of a scalar slot word under its opcode, reserved bits not yet looked at. -/
def fieldsScalar (w : BitVec 40) : Option ScalarOp :=
  match (w.extractLsb' 34 6).toNat with
  | 0 => some .snop
  | 1 => some (.sadd (w.extractLsb' 29 5) (w.extractLsb' 24 5) (w.extractLsb' 19 5) (w.extractLsb' 17 2) (w.extractLsb' 16 1))
  | 2 => some (.saddi (w.extractLsb' 29 5) (w.extractLsb' 24 5) (w.extractLsb' 0 19))
  | 3 => some (.smul (w.extractLsb' 29 5) (w.extractLsb' 24 5) (w.extractLsb' 19 5) (w.extractLsb' 17 2))
  | 4 => some (.slogic (w.extractLsb' 29 5) (w.extractLsb' 24 5) (w.extractLsb' 19 5) (w.extractLsb' 17 2))
  | 5 => some (.sshift (w.extractLsb' 29 5) (w.extractLsb' 24 5) (w.extractLsb' 19 5) (w.extractLsb' 17 2) (w.extractLsb' 16 1) (w.extractLsb' 10 6) (w.extractLsb' 8 2))
  | 6 => some (.sminmax (w.extractLsb' 29 5) (w.extractLsb' 24 5) (w.extractLsb' 19 5) (w.extractLsb' 18 1) (w.extractLsb' 17 1))
  | 7 => some (.scmp (w.extractLsb' 29 5) (w.extractLsb' 24 5) (w.extractLsb' 19 5) (w.extractLsb' 16 3))
  | 8 => some (.ssel (w.extractLsb' 29 5) (w.extractLsb' 24 5) (w.extractLsb' 19 5) (w.extractLsb' 14 5))
  | 9 => some (.slui (w.extractLsb' 29 5) (w.extractLsb' 0 24))
  | 10 => some (.smovi (w.extractLsb' 29 5) (w.extractLsb' 0 29))
  | 11 => some (.sfeat (w.extractLsb' 29 5) (w.extractLsb' 16 3))
  | 12 => some (.amov (w.extractLsb' 30 4) (w.extractLsb' 24 5) (w.extractLsb' 0 19))
  | 13 => some (.aadd (w.extractLsb' 30 4) (w.extractLsb' 24 4) (w.extractLsb' 0 19))
  | 14 => some (.aget (w.extractLsb' 29 5) (w.extractLsb' 24 4))
  | 15 => some (.lbegin (w.extractLsb' 31 3) (w.extractLsb' 30 1) (w.extractLsb' 24 5) (w.extractLsb' 0 19))
  | 16 => some (.linc (w.extractLsb' 31 3) (w.extractLsb' 29 2) (w.extractLsb' 25 4) (w.extractLsb' 24 1) (w.extractLsb' 0 19))
  | 17 => some (.snext (w.extractLsb' 33 1) (w.extractLsb' 32 1) (w.extractLsb' 24 5) (w.extractLsb' 0 13))
  | 18 => some (.sown (w.extractLsb' 28 6) (w.extractLsb' 26 2))
  | _ => none

/-- Whether every field is in the range that its table states. -/
def inRangeScalar : ScalarOp → Bool
  | .sadd _ _ _ ov _ => ov != 3
  | .smul _ _ _ ov => ov != 3
  | .sshift _ _ b kind reg amt mode => mode != 3 && (kind == 3 || mode == 0) && (if reg == 1 then amt == 0 else b == 0)
  | .sfeat _ index => index.ult 4
  | .lbegin frame creg sa count => frame.ult 6 && (if creg == 1 then count == 0 else sa == 0)
  | .linc frame _ _ _ _ => frame.ult 6
  | .snext _ nreg sa entry => if nreg == 1 then entry == 0 else sa == 0
  | .sown _ owner => owner != 3
  | _ => true

/-- The operation of a scalar slot word; `none` for a reserved opcode, a nonzero reserved bit or a field out of range. -/
def decodeScalar (w : BitVec 40) : Option ScalarOp :=
  (fieldsScalar w).filter (fun o => encodeScalar o == w && inRangeScalar o)

/-- The vector slot bits of an operation (R165). -/
def encodeVector : VectorOp → BitVec 48
  | .vnop => 0#8 ++ 0#40
  | .vadd d a b ov sub => 1#8 ++ d ++ a ++ b ++ ov ++ sub ++ 0#22
  | .vmul d a b sgn ah bh => 2#8 ++ d ++ a ++ b ++ sgn ++ ah ++ bh ++ 0#22
  | .vmulh d a b sh mode => 3#8 ++ d ++ a ++ b ++ sh ++ mode ++ 0#17
  | .vshift d a b kind lane amt mode => 4#8 ++ d ++ a ++ b ++ kind ++ lane ++ amt ++ mode ++ 0#13
  | .vlogic d a b fn => 5#8 ++ d ++ a ++ b ++ fn ++ 0#23
  | .vminmax d a b max uns => 6#8 ++ d ++ a ++ b ++ max ++ uns ++ 0#23
  | .vcount d a cls => 7#8 ++ d ++ a ++ 0#5 ++ cls ++ 0#24
  | .vcmp md a b cond => 8#8 ++ md ++ 0#2 ++ a ++ b ++ cond ++ 0#22
  | .vsel d a b ms => 9#8 ++ d ++ a ++ b ++ ms ++ 0#22
  | .vperm d a b pat p => 10#8 ++ d ++ a ++ b ++ pat ++ p ++ 0#17
  | .vunpk d a b fmt part k kreg mode => 11#8 ++ d ++ a ++ b ++ fmt ++ part ++ k ++ kreg ++ mode ++ 0#5
  | .vpack d a b fmt part k kreg mode rule => 12#8 ++ d ++ a ++ b ++ fmt ++ part ++ k ++ kreg ++ mode ++ rule ++ 0#4
  | .vlut d a th t16 => 13#8 ++ d ++ a ++ 0#5 ++ th ++ t16 ++ 0#18
  | .vmovi d imm => 14#8 ++ d ++ 0#3 ++ imm
  | .vsplat d ss => 15#8 ++ d ++ ss ++ 0#30
  | .vget sd a lane => 16#8 ++ sd ++ a ++ 0#5 ++ lane ++ 0#20
  | .mset md imm => 17#8 ++ md ++ 0#5 ++ imm
  | .mlogic md ma mb fn => 18#8 ++ md ++ 0#2 ++ ma ++ 0#2 ++ mb ++ 0#2 ++ fn ++ 0#23

/-- The fields of a vector slot word under its opcode, reserved bits not yet looked at. -/
def fieldsVector (w : BitVec 48) : Option VectorOp :=
  match (w.extractLsb' 40 8).toNat with
  | 0 => some .vnop
  | 1 => some (.vadd (w.extractLsb' 35 5) (w.extractLsb' 30 5) (w.extractLsb' 25 5) (w.extractLsb' 23 2) (w.extractLsb' 22 1))
  | 2 => some (.vmul (w.extractLsb' 35 5) (w.extractLsb' 30 5) (w.extractLsb' 25 5) (w.extractLsb' 24 1) (w.extractLsb' 23 1) (w.extractLsb' 22 1))
  | 3 => some (.vmulh (w.extractLsb' 35 5) (w.extractLsb' 30 5) (w.extractLsb' 25 5) (w.extractLsb' 19 6) (w.extractLsb' 17 2))
  | 4 => some (.vshift (w.extractLsb' 35 5) (w.extractLsb' 30 5) (w.extractLsb' 25 5) (w.extractLsb' 22 3) (w.extractLsb' 21 1) (w.extractLsb' 15 6) (w.extractLsb' 13 2))
  | 5 => some (.vlogic (w.extractLsb' 35 5) (w.extractLsb' 30 5) (w.extractLsb' 25 5) (w.extractLsb' 23 2))
  | 6 => some (.vminmax (w.extractLsb' 35 5) (w.extractLsb' 30 5) (w.extractLsb' 25 5) (w.extractLsb' 24 1) (w.extractLsb' 23 1))
  | 7 => some (.vcount (w.extractLsb' 35 5) (w.extractLsb' 30 5) (w.extractLsb' 24 1))
  | 8 => some (.vcmp (w.extractLsb' 37 3) (w.extractLsb' 30 5) (w.extractLsb' 25 5) (w.extractLsb' 22 3))
  | 9 => some (.vsel (w.extractLsb' 35 5) (w.extractLsb' 30 5) (w.extractLsb' 25 5) (w.extractLsb' 22 3))
  | 10 => some (.vperm (w.extractLsb' 35 5) (w.extractLsb' 30 5) (w.extractLsb' 25 5) (w.extractLsb' 22 3) (w.extractLsb' 17 5))
  | 11 => some (.vunpk (w.extractLsb' 35 5) (w.extractLsb' 30 5) (w.extractLsb' 25 5) (w.extractLsb' 21 4) (w.extractLsb' 18 3) (w.extractLsb' 8 10) (w.extractLsb' 7 1) (w.extractLsb' 5 2))
  | 12 => some (.vpack (w.extractLsb' 35 5) (w.extractLsb' 30 5) (w.extractLsb' 25 5) (w.extractLsb' 21 4) (w.extractLsb' 18 3) (w.extractLsb' 8 10) (w.extractLsb' 7 1) (w.extractLsb' 5 2) (w.extractLsb' 4 1))
  | 13 => some (.vlut (w.extractLsb' 35 5) (w.extractLsb' 30 5) (w.extractLsb' 19 6) (w.extractLsb' 18 1))
  | 14 => some (.vmovi (w.extractLsb' 35 5) (w.extractLsb' 0 32))
  | 15 => some (.vsplat (w.extractLsb' 35 5) (w.extractLsb' 30 5))
  | 16 => some (.vget (w.extractLsb' 35 5) (w.extractLsb' 30 5) (w.extractLsb' 20 5))
  | 17 => some (.mset (w.extractLsb' 37 3) (w.extractLsb' 0 32))
  | 18 => some (.mlogic (w.extractLsb' 37 3) (w.extractLsb' 32 3) (w.extractLsb' 27 3) (w.extractLsb' 23 2))
  | _ => none

/-- Whether every field is in the range that its table states. With a reserved FMT the ranges of PART and RULE are not judged, so that the operation faults with BAD_FORMAT and not with BAD_BUNDLE, which R186 gives beside it (DESIGN CHOICE, log entry 104). -/
def inRangeVector : VectorOp → Bool
  | .vadd _ _ _ ov _ => ov != 3
  | .vshift _ _ b kind lane amt mode => kind.ult 5 && (kind == 3 || mode == 0) && (if lane == 1 then amt == 0 else b == 0)
  | .vperm _ _ b pat p => pat != 7 && (pat.ule 6 && (4 ≤ pat.toNat || b == 0)) && (if pat == 3 then p == 0 else if pat == 4 || pat == 5 then p.ult 2 else true)
  | .vunpk _ _ _ fmt part k kreg _ => (fmtWidth fmt == 0 || part.toNat < partCount fmt) && (kreg == 0 || k.ult 32)
  | .vpack _ _ _ fmt part k kreg _ rule => (fmtWidth fmt == 0 || part.toNat < partCount fmt) && (kreg == 0 || k.ult 32) && (rule == 0 || fmtWidth fmt == 0 || fmtIsMx fmt)
  | _ => true

/-- The operation of a vector slot word; `none` for a reserved opcode, a nonzero reserved bit or a field out of range. -/
def decodeVector (w : BitVec 48) : Option VectorOp :=
  (fieldsVector w).filter (fun o => encodeVector o == w && inRangeVector o)

/-- The matrix slot bits of an operation (R108, R109, R149, R153). -/
def encodeMatrix : MatrixOp → BitVec 48
  | .mnop warm => 0#4 ++ warm ++ 0#43
  | .mload bank xh ax rows klen => 1#4 ++ bank ++ xh ++ ax ++ rows ++ klen ++ 0#22
  | .mstream bank wh aw ss kind ovw => 2#4 ++ bank ++ wh ++ aw ++ ss ++ kind ++ ovw ++ 0#26
  | .mtile xh ax wh aw ss kind ovw => 3#4 ++ xh ++ ax ++ wh ++ aw ++ ss ++ kind ++ ovw ++ 0#17
  | .manchor group kind anchor => 4#4 ++ group ++ kind ++ anchor ++ 0#29
  | .mread vd row entry shift mode sreg kind => 5#4 ++ vd ++ row ++ entry ++ shift ++ mode ++ sreg ++ kind ++ 0#14
  | .mprobe group sd clear => 6#4 ++ group ++ sd ++ clear ++ 0#34

/-- The fields of a matrix slot word under its opcode, reserved bits not yet looked at. -/
def fieldsMatrix (w : BitVec 48) : Option MatrixOp :=
  match (w.extractLsb' 44 4).toNat with
  | 0 => some (.mnop (w.extractLsb' 43 1))
  | 1 => some (.mload (w.extractLsb' 43 1) (w.extractLsb' 37 6) (w.extractLsb' 33 4) (w.extractLsb' 29 4) (w.extractLsb' 22 7))
  | 2 => some (.mstream (w.extractLsb' 43 1) (w.extractLsb' 37 6) (w.extractLsb' 33 4) (w.extractLsb' 28 5) (w.extractLsb' 27 1) (w.extractLsb' 26 1))
  | 3 => some (.mtile (w.extractLsb' 38 6) (w.extractLsb' 34 4) (w.extractLsb' 28 6) (w.extractLsb' 24 4) (w.extractLsb' 19 5) (w.extractLsb' 18 1) (w.extractLsb' 17 1))
  | 4 => some (.manchor (w.extractLsb' 40 4) (w.extractLsb' 39 1) (w.extractLsb' 29 10))
  | 5 => some (.mread (w.extractLsb' 39 5) (w.extractLsb' 35 4) (w.extractLsb' 25 10) (w.extractLsb' 18 7) (w.extractLsb' 16 2) (w.extractLsb' 15 1) (w.extractLsb' 14 1))
  | 6 => some (.mprobe (w.extractLsb' 40 4) (w.extractLsb' 35 5) (w.extractLsb' 34 1))
  | _ => none

/-- Whether every field is in the range that its table states. -/
def inRangeMatrix : MatrixOp → Bool
  | .mread _ _ _ shift _ sreg _ => sreg == 0 || shift.ult 32
  | _ => true

/-- The operation of a matrix slot word; `none` for a reserved opcode, a nonzero reserved bit or a field out of range. -/
def decodeMatrix (w : BitVec 48) : Option MatrixOp :=
  (fieldsMatrix w).filter (fun o => encodeMatrix o == w && inRangeMatrix o)

/-- The load slot bits of an operation (R239). -/
def encodeLoad : LoadOp → BitVec 36
  | .lnop => 0#4 ++ 0#32
  | .ldv d h ar off => 1#4 ++ d ++ h ++ ar ++ off
  | .lds d h ar off => 2#4 ++ d ++ h ++ ar ++ off
  | .ldvs d h ar dim sx step => 3#4 ++ d ++ h ++ ar ++ dim ++ sx ++ step
  | .ldvg d h ar ih sx => 4#4 ++ d ++ h ++ ar ++ ih ++ sx ++ 0#10

/-- The fields of a load slot word under its opcode, reserved bits not yet looked at. -/
def fieldsLoad (w : BitVec 36) : Option LoadOp :=
  match (w.extractLsb' 32 4).toNat with
  | 0 => some .lnop
  | 1 => some (.ldv (w.extractLsb' 27 5) (w.extractLsb' 21 6) (w.extractLsb' 17 4) (w.extractLsb' 0 17))
  | 2 => some (.lds (w.extractLsb' 27 5) (w.extractLsb' 21 6) (w.extractLsb' 17 4) (w.extractLsb' 0 17))
  | 3 => some (.ldvs (w.extractLsb' 27 5) (w.extractLsb' 21 6) (w.extractLsb' 17 4) (w.extractLsb' 14 3) (w.extractLsb' 13 1) (w.extractLsb' 0 13))
  | 4 => some (.ldvg (w.extractLsb' 27 5) (w.extractLsb' 21 6) (w.extractLsb' 17 4) (w.extractLsb' 11 6) (w.extractLsb' 10 1))
  | _ => none

/-- Whether every field is in the range that its table states. -/
def inRangeLoad : LoadOp → Bool
  | _ => true

/-- The operation of a load slot word; `none` for a reserved opcode, a nonzero reserved bit or a field out of range. -/
def decodeLoad (w : BitVec 36) : Option LoadOp :=
  (fieldsLoad w).filter (fun o => encodeLoad o == w && inRangeLoad o)

/-- The store slot bits of an operation (R239). -/
def encodeStore : StoreOp → BitVec 36
  | .snopst => 0#4 ++ 0#32
  | .stv vs h ar firstw nw off => 1#4 ++ vs ++ h ++ ar ++ firstw ++ nw ++ off
  | .sts ss h ar off => 2#4 ++ ss ++ h ++ ar ++ off
  | .stvs vs h ar dim step => 3#4 ++ vs ++ h ++ ar ++ dim ++ step ++ 0#1
  | .stvg vs h ar ih => 4#4 ++ vs ++ h ++ ar ++ ih ++ 0#11

/-- The fields of a store slot word under its opcode, reserved bits not yet looked at. -/
def fieldsStore (w : BitVec 36) : Option StoreOp :=
  match (w.extractLsb' 32 4).toNat with
  | 0 => some .snopst
  | 1 => some (.stv (w.extractLsb' 27 5) (w.extractLsb' 21 6) (w.extractLsb' 17 4) (w.extractLsb' 13 4) (w.extractLsb' 9 4) (w.extractLsb' 0 9))
  | 2 => some (.sts (w.extractLsb' 27 5) (w.extractLsb' 21 6) (w.extractLsb' 17 4) (w.extractLsb' 0 17))
  | 3 => some (.stvs (w.extractLsb' 27 5) (w.extractLsb' 21 6) (w.extractLsb' 17 4) (w.extractLsb' 14 3) (w.extractLsb' 1 13))
  | 4 => some (.stvg (w.extractLsb' 27 5) (w.extractLsb' 21 6) (w.extractLsb' 17 4) (w.extractLsb' 11 6))
  | _ => none

/-- Whether every field is in the range that its table states. -/
def inRangeStore : StoreOp → Bool
  | .stv _ _ _ firstw nw _ => firstw.toNat + nw.toNat ≤ 15
  | _ => true

/-- The operation of a store slot word; `none` for a reserved opcode, a nonzero reserved bit or a field out of range. -/
def decodeStore (w : BitVec 36) : Option StoreOp :=
  (fieldsStore w).filter (fun o => encodeStore o == w && inRangeStore o)

/-- The sync slot bits of an operation (R248). -/
def encodeSync : SyncOp → BitVec 32
  | .synop => 0#5 ++ 0#27
  | .wait tally sub thr => 1#5 ++ tally ++ sub ++ 0#1 ++ thr
  | .waitReg tally sub sa => 1#5 ++ tally ++ sub ++ 1#1 ++ sa ++ 0#14
  | .test tally sd => 2#5 ++ tally ++ sd ++ 0#16
  | .tadd tally neg amt => 3#5 ++ tally ++ neg ++ 0#1 ++ amt
  | .taddReg tally neg sa => 3#5 ++ tally ++ neg ++ 1#1 ++ sa ++ 0#14
  | .sig sa => 4#5 ++ sa ++ 0#22
  | .bar group => 5#5 ++ group ++ 0#21
  | .post src sb count vec => 6#5 ++ src ++ sb ++ count ++ vec ++ 0#14
  | .select mask rot sd => 7#5 ++ mask ++ rot ++ sd ++ 0#13
  | .release ring => 8#5 ++ ring ++ 0#24
  | .cadd ctally amount => 9#5 ++ ctally ++ amount
  | .cwait ctally sa => 10#5 ++ ctally ++ sa ++ 0#10
  | .cput plot sa => 11#5 ++ plot ++ sa ++ 0#14
  | .ctake sd => 12#5 ++ sd ++ 0#22
  | .amsg sa sb handler count => 13#5 ++ sa ++ sb ++ handler ++ count ++ 0#11

/-- The fields of a sync slot word under its opcode, reserved bits not yet looked at. -/
def fieldsSync (w : BitVec 32) : Option SyncOp :=
  match (w.extractLsb' 27 5).toNat with
  | 0 => some .synop
  | 1 => if w.getLsbD 19 then some (.waitReg (w.extractLsb' 21 6) (w.extractLsb' 20 1) (w.extractLsb' 14 5)) else some (.wait (w.extractLsb' 21 6) (w.extractLsb' 20 1) (w.extractLsb' 0 19))
  | 2 => some (.test (w.extractLsb' 21 6) (w.extractLsb' 16 5))
  | 3 => if w.getLsbD 19 then some (.taddReg (w.extractLsb' 21 6) (w.extractLsb' 20 1) (w.extractLsb' 14 5)) else some (.tadd (w.extractLsb' 21 6) (w.extractLsb' 20 1) (w.extractLsb' 0 19))
  | 4 => some (.sig (w.extractLsb' 22 5))
  | 5 => some (.bar (w.extractLsb' 21 6))
  | 6 => some (.post (w.extractLsb' 22 5) (w.extractLsb' 17 5) (w.extractLsb' 15 2) (w.extractLsb' 14 1))
  | 7 => some (.select (w.extractLsb' 19 8) (w.extractLsb' 18 1) (w.extractLsb' 13 5))
  | 8 => some (.release (w.extractLsb' 24 3))
  | 9 => some (.cadd (w.extractLsb' 15 12) (w.extractLsb' 0 15))
  | 10 => some (.cwait (w.extractLsb' 15 12) (w.extractLsb' 10 5))
  | 11 => some (.cput (w.extractLsb' 19 8) (w.extractLsb' 14 5))
  | 12 => some (.ctake (w.extractLsb' 22 5))
  | 13 => some (.amsg (w.extractLsb' 22 5) (w.extractLsb' 17 5) (w.extractLsb' 13 4) (w.extractLsb' 11 2))
  | _ => none

/-- Whether every field is in the range that its table states. -/
def inRangeSync : SyncOp → Bool
  | .post src _ count vec => vec == 1 || src.toNat + count.toNat ≤ 31
  | .select mask _ _ => mask != 0
  | .cadd _ amount => amount != 0
  | .amsg _ sb _ count => sb.toNat + count.toNat ≤ 31
  | _ => true

/-- The operation of a sync slot word; `none` for a reserved opcode, a nonzero reserved bit or a field out of range. -/
def decodeSync (w : BitVec 32) : Option SyncOp :=
  (fieldsSync w).filter (fun o => encodeSync o == w && inRangeSync o)

end Sys2Proof
end

