-- ==== Sys2Proof/Config.lean ====
section
/-! DEFINITION. What the part fixes outside its spec: the cryptographic engines, the golden-signature function and the fuse contents. Every one is a constant without a body, so no proof sees a value of it. -/

namespace Sys2Proof.Config

/-- ECDSA P-384 verification under FIPS 186-5 (R362, R485, R487, R499): public key, signature, message digest. Log entry 5. -/
opaque ecdsaVerify (publicKey signature digest : Nat) : Bool

/-- The ECDSA signature that the module's identity key makes over a digest (R362), `r` in the low 384 bits. Log entry 5. -/
opaque ecdsaSign (digest : Nat) : Nat

/-- AES-256-GCM opening under SP 800-38D (R486): key, nonce, additional data, tag, ciphertext; `none` when the tag does not match. Log entry 5. -/
opaque gcmOpen (key nonce : Nat) (aad : List Byte) (tag : Nat) (ciphertext : List Byte) : Option (List Byte)

/-- Key unwrapping by KW of SP 800-38F (R497): wrapping key, wrapped bytes; `none` when the integrity check fails. Log entry 5. -/
opaque kwUnwrap (key : Nat) (wrapped : List Byte) : Option (BitVec 256)

/-- The 64-bit golden signature of a block of image state (R392); the function is not given. Log entry 6. -/
opaque goldenSignature (block : List Word) : Word

/-- HUB.IDKEY0 to IDKEY11 (R481), reset "fuse". Log entry 7. -/
opaque idKey (k : Nat) : Word

/-- The SHA-256 digest in fuses of the key that signs images (R480). Log entry 7. -/
opaque signerDigest : BitVec 256

/-- The SHA-256 digest in fuses of the key that authorises debug unlock (R480). Log entry 7. -/
opaque debugDigest : BitVec 256

/-- The 256 fuse bits of AES key slot `k` (R480). Log entry 7. -/
opaque aesSlotKey (k : Nat) : BitVec 256

/-- The random nonce of unlock attempt `n` (R499). Log entry 8. -/
opaque debugNonce (n : Nat) : BitVec 256

/-- The fused VCORE code table of R539: code for ceiling point `k`, 1,100 MHz + 100 MHz * k. Log entry 7. -/
opaque vsetCode (k : Nat) : BitVec 7

/-- The frequency in MHz that a field's oscillator shows at a hub time (R67); the spec gives no number. Log entry 25. -/
opaque oscillatorMHz (field hubTime : Nat) : BitVec 11

/-- The size in bytes of the flash device that the board carries, 256 MiB to 2 GiB (R482). Log entry 27. -/
opaque flashBytes : Nat

/-- Write attempts that an increment of the monotonic counter from a value takes (R395). Log entry 43. -/
opaque counterAttempts (value : Word) : Nat

/-- The part of a group's down delay in hc below one of the root's own links: the links and modules from that neighbour to its farthest member (R520). Log entry 41. -/
opaque farDelay (group : BitVec 8) (neighbour : BitVec 12) : Nat

/-- Where the member plot of a joined group stands in another module, as multiples of 16 rows and of 32 columns (R526); the spec does not say how a module learns it. Log entry 98. -/
opaque farOrigin (group : BitVec 8) (module : BitVec 12) : BitVec 2 × BitVec 1

/-- The bell control that a group's domain root uses at a bell, as the tree root in another module knows it; the spec does not say how it learns it (R523). Log entry 42. -/
opaque farBellCtl (group : BitVec 8) (bell : Nat) : Word

/-- Whether the edge that a domain root module sent had reached the tree root in another module by the last arrival there (R61, R523). Log entry 42. -/
opaque farSlip (group : BitVec 8) (bell : Nat) : Bool

/-- A free value for what the spec leaves open, by draw number (log entry 10). -/
opaque freeWord (n : Nat) : Word

end Sys2Proof.Config
end

