-- ==== Sys2Proof/Machine/AMap.lean ====
section
/-! DEFINITION. Sparse maps as plain data: a list of key and value pairs with rising keys, read through a default value. `put` never lists the default value, so equal maps are equal data; `set` lists whatever it is given. -/

namespace Sys2Proof.Machine

/-- A sparse map from natural keys. -/
abbrev AMap (α : Type) := List (Nat × α)

/-- The value at key `k`, `d` where none is listed. -/
def AMap.get {α : Type} (d : α) : AMap α → Nat → α
  | [], _ => d
  | (k', v) :: m, k => if k' = k then v else AMap.get d m k

/-- The value at key `k`, if one is listed. -/
def AMap.find {α : Type} : AMap α → Nat → Option α
  | [], _ => none
  | (k', v) :: m, k => if k' = k then some v else AMap.find m k

/-- Lists `v` at key `k`, keeping rising keys. -/
def AMap.set {α : Type} : AMap α → Nat → α → AMap α
  | [], k, v => [(k, v)]
  | (k', v') :: m, k, v =>
    if k' = k then (k, v) :: m
    else if k < k' then (k, v) :: (k', v') :: m
    else (k', v') :: AMap.set m k v

/-- Unlists key `k`. -/
def AMap.erase {α : Type} : AMap α → Nat → AMap α
  | [], _ => []
  | (k', v') :: m, k => if k' = k then AMap.erase m k else (k', v') :: AMap.erase m k

/-- Writes `v` at key `k` of a map whose unlisted keys read `d`: the canonical form never lists `d`. -/
def AMap.put {α : Type} [DecidableEq α] (d : α) (m : AMap α) (k : Nat) (v : α) : AMap α :=
  if v = d then AMap.erase m k else AMap.set m k v

/-- Keys strictly rising. -/
def AMap.rising {α : Type} : AMap α → Bool
  | [] => true
  | [_] => true
  | (a, _) :: (b, v) :: m => decide (a < b) && AMap.rising ((b, v) :: m)

/-- The canonical form: keys strictly rising and no entry equal to the default. -/
def AMap.wf {α : Type} [DecidableEq α] (d : α) (m : AMap α) : Bool :=
  AMap.rising m && m.all (fun e => decide (e.2 ≠ d))

/-- The canonical form of a memory: addresses strictly rising, and no entry equal to the 0 that an unlisted address reads as. -/
def Memory.wf (m : AMap Byte) : Bool := AMap.wf 0 m

/-- Inserts `x` behind every entry that does not come after it. -/
def insertBy {α : Type} (le : α → α → Bool) (x : α) : List α → List α
  | [] => [x]
  | y :: l => if le y x then y :: insertBy le x l else x :: y :: l

/-- A stable sort. -/
def sortBy {α : Type} (le : α → α → Bool) (l : List α) : List α := l.foldl (fun acc x => insertBy le x acc) []

/-- Entry `k` of a list, `d` beyond its end. -/
def listGet {α : Type} (d : α) (l : List α) (k : Nat) : α := l.getD k d

/-- Entry `k` of a list replaced. -/
def listSet {α : Type} (l : List α) (k : Nat) (v : α) : List α := l.set k v

end Sys2Proof.Machine
end

