-- ==== Sys2Proof/Machine/State.lean ====
section
/-! DEFINITION. The state of the block as plain data: every register, store, queue and counter that the spec gives the module, its value at reset, and the reasons a step can stop. Field defaults are the reset values. -/

namespace Sys2Proof.Machine

/-- A device fault code of R405. -/
abbrev Code := BitVec 16

/-! ### Reports and events (R360, R377) -/

/-- A fault as a core raises it, before the plot's common fields are added (R377, R378). `slot` is 0 to 6 as R378 numbers bundle slots and 7 for a report of no bundle slot (R379). -/
structure CoreReport where
  code : Code
  fill : Bool
  offset : Nat
  site : BitVec 10
  slot : Nat
  d0 : Word
  d1 : Word
  d2 : Word
  num : Nat := 0
  deriving DecidableEq, Repr

/-- A fault report (R377). -/
structure Report where
  code : Code
  fill : Bool := false
  retry : Bool := false
  stop : Bool := false
  primary : Bool := false
  log : Bool := false
  attempt : BitVec 8 := 0
  core : BitVec 32 := 0xFFFFFFFF
  bell : BitVec 48 := 0
  offset : BitVec 32 := 0xFFFFFFFF
  site : BitVec 10 := 0
  function : Fn := 0
  hostTag : Word := 0
  time : Word := 0
  d0 : Word := 0
  d1 : Word := 0
  d2 : Word := 0
  slot : Nat := 7
  num : Nat := 0
  seq : Nat := 0
  deriving DecidableEq, Repr

/-- An event entry of a Deruri record (R360). -/
structure EventEntry where
  code : Code
  bell : BitVec 48
  attempt : BitVec 8
  kind : BitVec 8
  site : BitVec 10
  offset : BitVec 32
  d0 : Word
  d1 : Word
  deriving DecidableEq, Repr

/-! ### Registers of a core -/

/-- A vector register: 1,024 bits and one bruise bit per lane (R162). -/
structure VReg where
  bits : BitVec 1024 := 0
  bruise : BitVec 32 := 0
  deriving DecidableEq, Repr

/-- A mask register: 32 mask bits and 32 bruise bits (R162). -/
structure MReg where
  bits : BitVec 32 := 0
  bruise : BitVec 32 := 0
  deriving DecidableEq, Repr

/-- An increment slot of a loop frame (R197). -/
structure IncSlot where
  en : Bool := false
  ar : BitVec 4 := 0
  inc : BitVec 19 := 0
  deriving DecidableEq, Repr

/-- A loop frame (R197). -/
structure Frame where
  count : BitVec 32 := 0
  start : BitVec 13 := 0
  inc0 : IncSlot := {}
  inc1 : IncSlot := {}
  inc2 : IncSlot := {}
  inc3 : IncSlot := {}
  deriving DecidableEq, Repr

/-- CORE.ENTRY and the SNEXT requests still to take effect (R211). -/
structure EntryReg where
  mainNext : BitVec 13 := 0
  fillNext : BitVec 13 := 0
  fillEn : Bool := false
  deriving DecidableEq, Repr

/-- CORE.RINGPTR (R264). -/
structure RingPtr where
  wr : BitVec 16 := 0
  tk : BitVec 16 := 0
  rd : BitVec 16 := 0
  spill : BitVec 16 := 0
  deriving DecidableEq, Repr

/-- CORE.ARITHSTAT (R156). -/
structure ArithStat where
  overflow : BitVec 16 := 0
  underflow : BitVec 16 := 0
  bruise : BitVec 16 := 0
  sumSat : Bool := false
  narrowSat : Bool := false
  contribSat : Bool := false
  deriving DecidableEq, Repr

/-- CORE.VECSTAT (R178). -/
structure VecStat where
  sat : BitVec 16 := 0
  escape : BitVec 16 := 0
  satSeen : Bool := false
  deriving DecidableEq, Repr

/-- CORE.ISSUESTAT (R212). -/
structure IssueStat where
  ssat : BitVec 16 := 0
  wait : BitVec 24 := 0
  fill : BitVec 24 := 0
  deriving DecidableEq, Repr

/-- CORE.SYNCSTAT (R282). -/
structure SyncStat where
  doze : BitVec 24 := 0
  landed : BitVec 16 := 0
  held : BitVec 8 := 0
  spilled : BitVec 8 := 0
  deriving DecidableEq, Repr

/-- CORE.SCRSTAT (R229). -/
structure ScrStat where
  ce : BitVec 16 := 0
  ue : BitVec 8 := 0
  bruised : BitVec 16 := 0
  escape : BitVec 8 := 0
  scrubBruise : BitVec 8 := 0
  deriving DecidableEq, Repr

/-- CORE.MESHSTAT (R304). -/
structure MeshStat where
  linkColl : BitVec 16 := 0
  wordColl : BitVec 16 := 0
  postedWait : BitVec 16 := 0
  deriving DecidableEq, Repr

/-- CORE.ARRAYSTAT (R136). -/
structure ArrayStat where
  chaff : BitVec 24 := 0
  cold : BitVec 8 := 0
  checks : BitVec 8 := 0
  accCe : BitVec 8 := 0
  deriving DecidableEq, Repr

/-- CORE.ARRAYMAP and the physical columns marked failed (R129, R130). -/
structure ArrayMap where
  colEnable : BitVec 34 := 0xFFFFFFFF
  bad : BitVec 34 := 0
  live : BitVec 2 := 0
  deriving DecidableEq, Repr

/-- What belongs to a physical core of a field, beside the logical core that it serves: its array map, the map that takes its place at the next bell or retry restart (R42, R132), and the domain and bell count of its last logic check event (R388). -/
structure PhysCore where
  map : ArrayMap := {}
  next : Option ArrayMap := none
  lastLogic : Option (Option Fn × Nat) := none
  deriving DecidableEq, Repr

/-- The stored class of a scratchpad word that is not clean (R224). -/
inductive WordClass where
  | correctable | bruised | uncorrectable
  deriving DecidableEq, Repr

/-- The damage of a protected item that is no scratchpad word: an accumulator entry (R121) or a deep-store unit (R331). -/
inductive Damage where
  | sound | correctable | uncorrectable
  deriving DecidableEq, Repr

/-- An accumulator entry: its 144-bit content (a narrow sum sign-extended), its bruise mark and its check state (R118, R121, R141, R143). -/
structure AccEntry where
  content : BitVec 144 := 0
  bruise : Bool := false
  damage : Damage := .sound
  deriving DecidableEq, Repr

/-- An accumulator group: CORE.ACCGRP, block top, saturation flag and entries keyed by 64 * row + place in the group (R118, R119, R152). -/
structure AccGroup where
  anchor : BitVec 10 := 0
  narrow : Bool := false
  blockTop : Option Int := none
  satFlag : Bool := false
  entries : AMap AccEntry := []
  deriving DecidableEq, Repr

/-- An input bank: element codes keyed by 128 * row + k, scale codes keyed by 4 * row + block, and the marks of codes that lay in bruised words (R105, R111, R225). -/
structure Bank where
  loaded : Bool := false
  fmt : BitVec 4 := 0
  rows : Nat := 0
  klen : Nat := 0
  codes : AMap (BitVec 16) := []
  scales : AMap (BitVec 8) := []
  bruised : List Nat := []
  scaleBruised : List Nat := []
  deriving DecidableEq, Repr

/-- An entry as it lands in a ring or waits for the granary: header and words (R262). -/
structure RingEntry where
  line : BitVec 512
  bruise : BitVec 8
  deriving DecidableEq, Repr

/-- An entry of a ring's granary queue with the plot-space unit that holds it (R267; the unit's place in the queue is the model's, log entry 24). -/
structure GranaryEntry where
  e : RingEntry
  unit : Nat
  deriving DecidableEq, Repr

/-- A delivery that waits in its core for a granary firing, with the core that sent it (R54, R319). -/
structure SpillWait where
  ring : BitVec 3
  e : RingEntry
  unit : Nat
  sender : CoreId
  deriving DecidableEq, Repr

/-- A granary drain on its way to its core: ring, entry, ordinal and unit, whether the unit was uncorrectable, landing fc (R268, R319, R333). -/
structure Drain where
  ring : BitVec 3
  e : RingEntry
  ordinal : BitVec 9
  unit : Nat
  bad : Bool
  land : Nat
  site : BitVec 10
  deriving DecidableEq, Repr

/-- The working state of a core that its bell image copies (R383). -/
structure CoreWork where
  mem : List Host.Cell := []
  marks : AMap WordClass := []
  groups : AMap AccGroup := []
  bank0 : Bank := {}
  bank1 : Bank := {}
  v : AMap VReg := []
  m : AMap MReg := []
  s : AMap Word := []
  a : AMap (BitVec 32) := []
  mainFrames : AMap Frame := []
  fillFrames : AMap Frame := []
  tallies : AMap (BitVec 32) := []
  ringPtr : AMap RingPtr := []
  rotation : BitVec 3 := 7
  rounds : AMap Nat := []
  dseq : AMap (BitVec 27) := []
  queues : AMap (List GranaryEntry) := []
  spills : AMap Nat := []
  entry : EntryReg := {}
  own : AMap (BitVec 2) := []
  arith : ArithStat := {}
  vec : VecStat := {}
  issue : IssueStat := {}
  sync : SyncStat := {}
  deriving DecidableEq, Repr

/-- What the image loads into a core: instruction store, handles, descriptors (4n + k), rings, handlers, granary, slot table (2n + k), transfer channels (3n + k), feature registers, golden signatures (R188, R214, R230, R232, R263, R267, R271, R287, R291, R392). -/
structure CoreTables where
  istore : AMap (BitVec 256) := []
  handle : AMap Word := []
  desc : AMap Word := []
  ring : AMap Word := []
  handler : AMap Word := []
  granary : Word := 0
  slot : AMap Word := []
  xchan : AMap Word := []
  featPos : Word := 0
  featPlot : Word := 0
  golden : AMap Word := []
  cleanBell : AMap (BitVec 48) := []
  passesSinceReload : AMap Nat := []
  deriving DecidableEq, Repr

/-! ### Work in flight in a core -/

/-- A result on its way to a register (R166, R193, R196, R241). -/
inductive RegWrite where
  | s (r : BitVec 5) (v : Word)
  | a (r : BitVec 4) (v : BitVec 32)
  | v (r : BitVec 5) (v : VReg)
  | vpart (r : BitVec 5) (v : VReg) (lo len : Nat)
  | vlane (r : BitVec 5) (lane : Nat) (x : BitVec 32)
  | m (r : BitVec 3) (v : MReg)
  deriving DecidableEq, Repr

/-- The class of register that a write claims (R167, R193). -/
inductive RegClass where
  | s | a | v | m
  deriving DecidableEq, Repr

/-- A register write claimed for a coming fc: the slot that issued it and the fc of that issue (R168, R193). -/
structure RegClaim where
  cls : RegClass
  reg : Nat
  fc : Nat
  fill : Bool
  slot : Nat
  issued : Nat
  deriving DecidableEq, Repr

/-- Main-stream and slot-table claims of scratchpad ports in one fc (R222, R223). -/
structure PortClaim where
  fc : Nat
  reads : Nat
  writes : Nat
  deriving DecidableEq, Repr

/-- Who issued a piece of work: stream, site and slot bits, for its report (R244, R378); for work of no slot the train, channel entry or tally (R379) and the place of a landing in the order of R301. -/
structure Origin where
  fill : Bool := false
  site : BitVec 10 := 0
  slot : Nat := 7
  word : Word := 0
  num : Nat := 0
  port : Nat := 0
  deriving DecidableEq, Repr

/-- One byte of a scratchpad write, with the bruise it carries. -/
structure WByte where
  addr : Nat
  val : Byte
  bruise : Bool
  deriving DecidableEq, Repr

/-- A raw read into a vector or scalar register (LDV, LDS): handle, element position and handle byte offsets; `held` once a fill-stream read has been held (R207, R243). -/
structure RawLoad where
  vec : Bool
  reg : BitVec 5
  handle : BitVec 6
  pos : Nat
  offs : List Nat
  held : Bool := false
  origin : Origin
  deriving DecidableEq, Repr

/-- A lane-by-lane read (LDVS, LDVG, VLUT): for each lane its element position and handle byte offset, `none` for a bruised index; `held` as in `RawLoad`. -/
structure Gather where
  reg : BitVec 5
  handle : BitVec 6
  lanes : List (Option (Nat × Nat))
  width : Nat
  signExt : Bool
  acc : VReg
  held : Bool := false
  origin : Origin
  deriving DecidableEq, Repr

/-- An LDVG or STVG between its index read and its indexed accesses (R243): the index handle with the handle byte offsets of the indices; `held` as in `RawLoad`. -/
structure Indexed where
  load : Bool
  reg : BitVec 5
  handle : BitVec 6
  idxHandle : BitVec 6
  idxPos : Nat
  idxOffs : List Nat
  signExt : Bool
  idx : List (Option (BitVec 32))
  src : VReg
  held : Bool := false
  origin : Origin
  deriving DecidableEq, Repr

/-- A fill-stream store on its way (R207): for each coming fc the bytes that it writes, with the element position and handle byte offset of each; `held` as in `RawLoad`. -/
structure FillStore where
  handle : BitVec 6
  writes : List (List WByte × List (Nat × Nat))
  held : Bool := false
  origin : Origin
  deriving DecidableEq, Repr

/-- One line read of an MLOAD: the elements or scales (bank key, bit offset in their handle) it supplies. -/
structure TileRead where
  scale : Bool
  els : List (Nat × Nat)
  deriving DecidableEq, Repr

/-- An MLOAD, or the load of an MTILE pass, on its way (R111, R113). -/
structure TileLoad where
  bank : Bool
  xh : BitVec 6
  acc : Bank
  reads : List TileRead
  origin : Origin
  deriving DecidableEq, Repr

/-- An MSTREAM, or the stream of an MTILE pass (`tile`), that is running (R114 to R116, R126). -/
structure StreamOp where
  id : Nat
  start : Nat
  bank : Bool
  handle : BitVec 6
  pos : BitVec 32
  kskip : Nat
  klen : Nat
  rows : Nat
  tile : Bool
  count : Nat
  base : Nat
  window : Nat
  narrow : Bool
  ovw : Bool
  cost : Nat
  column : Nat
  codes : List (BitVec 16 × Bool)
  scales : List (BitVec 8 × Bool)
  held : List (Nat × Byte × Bool)
  landed : Nat
  lastLand : Nat
  failed : Bool
  origin : Origin
  deriving DecidableEq, Repr

/-- An MTILE that is running (R123 to R125). -/
structure TileOp where
  issued : Nat
  xh : BitVec 6
  ax : BitVec 32
  wh : BitVec 6
  aw : BitVec 32
  m : Nat
  n : Nat
  k : Nat
  base : Nat
  narrow : Bool
  ovw : Bool
  kpass : Nat
  load : Nat
  cost : Nat
  free : Nat
  ready : Nat
  pass : Nat
  origin : Origin
  deriving DecidableEq, Repr

/-- The block sums of one column for one entry of one accumulator row (R115, R138). -/
structure BlockSum where
  sum : Int
  lo : Int
  bruise : Bool
  deriving DecidableEq, Repr

/-- The contributions of one column: entry number and, for each row, its block sums (R115). -/
structure Contribution where
  op : Nat
  entry : Nat
  narrow : Bool
  ovw : Bool
  rows : List (List BlockSum)
  deriving DecidableEq, Repr

/-- A partial block (R145): its header, word 0, and its body, words 1 and on; then its target, arrival port, sender and tally. -/
structure PartialBlock where
  header : Word
  body : List Word
  row : Nat
  entry : Nat
  port : Nat
  sender : CoreId
  site : BitVec 10
  tallyEn : Bool
  tally : BitVec 6
  amount : Nat
  train : Nat
  deriving DecidableEq, Repr

/-- An active message: handler, header in the layout of R262, words (R271, R272). -/
structure Message where
  handler : BitVec 4
  header : Word
  words : List Word
  deriving DecidableEq, Repr

/-- What a flit carries (R254, R261, R271, R292, R293). -/
inductive FlitKind where
  | sig (tally : BitVec 6) (amount : Nat)
  | line (handle : BitVec 6) (pos : Nat) (j last : Nat) (tallyEn : Bool) (tally : BitVec 6) (amount : Nat) (data : BitVec 512) (bruise : BitVec 8)
  | part (j last : Nat) (block : PartialBlock)
  | posted (ring : BitVec 3) (e : RingEntry)
  | active (m : Message)
  deriving DecidableEq, Repr

/-- A flit as its core sends it: where it goes, the fc in which it is at its own router, its train's link, slot-table place and firing (R286, R292). -/
structure FlitOut where
  dest : CoreId
  destModule : Option (BitVec 12)
  ready : Nat
  link1 : Bool
  order : Nat
  firing : Nat
  site : BitVec 10
  kind : FlitKind
  deriving DecidableEq, Repr

/-- A WRITE unit requested in fc `req` by an entry and not yet performed; a spill names its core, its ring and the core that sent the message (R54, R318, R319, R322). -/
structure WriteUnit where
  chan : ChanId
  entry : BitVec 6
  req : Nat
  unit : Nat
  data : BitVec 512
  bruise : BitVec 8
  spill : Bool
  core : CoreId
  ring : BitVec 3
  sender : CoreId := 0
  site : BitVec 10
  deriving DecidableEq, Repr

/-- One line of a WRITE firing (R318, R330). -/
structure SourceLine where
  chan : ChanId
  entry : BitVec 6
  firing : Nat
  handle : BitVec 6
  pos : Nat
  j : Nat
  last : Nat
  unit : Nat
  tallyEn : Bool
  tally : BitVec 6
  amount : Nat
  site : BitVec 10
  deriving DecidableEq, Repr

/-- What a core does at a later fc. -/
inductive CoreEv where
  | result (w : RegWrite) (origin : Origin)
  | loopInc (incs : List (Nat × Int))
  | rawRead (o : RawLoad)
  | gather (o : Gather) (j : Nat)
  | indexRead (o : Indexed)
  | indexCheck (o : Indexed)
  | write (bytes : List WByte) (landing : Bool) (origin : Origin)
  | tileRead (o : TileLoad)
  | passLoad (pass : Nat)
  | passStream (pass : Nat)
  | column (op : Nat) (k : Nat)
  | contribution (c : Contribution)
  | merge (b : PartialBlock)
  | anchor (group : Nat) (narrow : Bool) (anchor : BitVec 10)
  | accRead (vd : BitVec 5) (row entry shift : Nat) (mode : BitVec 2) (narrow : Bool) (draw : List Nat) (origin : Origin)
  | accProbe (group : Nat) (sd : BitVec 5) (clear : Bool) (origin : Origin)
  | postedLand (ring : BitVec 3) (port : Nat) (e : RingEntry) (drained : Bool)
  | ringMove (ring : BitVec 3) (take rot : Bool) (origin : Origin)
  | takeMail (origin : Origin)
  | fillStore (o : FillStore)
  | scrubWrite
  | tally (t : BitVec 6) (delta : Int)
  | lineRead (line : Nat) (out : FlitOut) (origin : Origin)
  | partialRead (row entry count : Nat) (narrow : Bool) (out : FlitOut) (block : PartialBlock)
  | sourceRead (l : SourceLine)
  deriving DecidableEq, Repr

/-- An event with its fc. -/
structure Timed where
  fc : Nat
  ev : CoreEv
  deriving DecidableEq, Repr

/-- One issue stream of a core within a step (R192, R197, R206, R209). `waitWord` is the sync slot of a held bundle; `late` marks a main stream that let a fc pass in which R192 has it issue. -/
structure StreamState where
  next : Nat := 0
  cur : Nat := 0
  curFc : Nat := 0
  header : BitVec 16 := 0
  issued : Bool := false
  cancelled : Bool := false
  stopped : Bool := false
  depth : Nat := 0
  waiting : Bool := false
  waitFrom : Nat := 0
  waitObject : Option (BitVec 16) := none
  waitWord : BitVec 32 := 0
  late : Bool := false
  deriving DecidableEq, Repr

/-- What a core's step holds beyond the working state: its offset, work in flight, claims, streams, array operations, send queue, reports and counts. -/
structure CoreStep where
  offset : Nat := 0
  events : List Timed := []
  regClaims : List RegClaim := []
  ports : List PortClaim := []
  main : StreamState := {}
  fill : StreamState := {}
  haltAt : Option Nat := none
  arrayFree : Nat := 0
  bankFree0 : Nat := 0
  bankFree1 : Nat := 0
  bankReady0 : Nat := 0
  bankReady1 : Nat := 0
  streams : List StreamOp := []
  tile : Option TileOp := none
  tileOld : Option TileOp := none
  nextOp : Nat := 0
  vlutEnd : Nat := 0
  written : AMap Bool := []
  warm : Option (Nat × Nat) := none
  lastMatrixEnd : Option Nat := none
  deriving DecidableEq, Repr

/-- The step's traffic and bookkeeping in a core. -/
structure CoreTraffic where
  sendQueue : List FlitOut := []
  held : List (Nat × Nat) := []
  spillWait : List SpillWait := []
  drains : List Drain := []
  amQueue : List Message := []
  slotFired : AMap Nat := []
  chanFired : AMap Nat := []
  outbox : List FlitOut := []
  unitsOut : List WriteUnit := []
  failedWrites : List (Nat × Nat × Nat) := []
  landClaims : List Nat := []
  routerStopped : Bool := false
  blocks : List (Nat × PartialBlock) := []
  reports : List CoreReport := []
  collided : Bool := false
  snextMain : Option (BitVec 13) := none
  snextFill : Option (BitVec 13) := none
  sown : AMap (BitVec 2) := []
  deriving DecidableEq, Repr

/-- An item that CORE.WCHECK is to fold at the end of its fc: its place among the items of that fc (0 for a local write, else past the input ports of R301), and what `fold_item` takes (R402). -/
structure CheckItem where
  order : Nat
  word : Nat
  mask : Byte
  data : Word
  bruise : Bool
  deriving DecidableEq, Repr

/-- Totals of R157 in the running attempt, the mailbox word taken, doze, arrival, and CORE.WCHECK with the items of the present fc. -/
structure CoreTotals where
  overflow : Nat := 0
  underflow : Nat := 0
  bruise : Nat := 0
  sumSat : Bool := false
  ctaken : Bool := false
  doze : Bool := false
  dozeFc : Nat := 0
  arrived : Bool := false
  arriveFc : Nat := 0
  wcheck : Word := 0
  folds : List CheckItem := []
  deriving DecidableEq, Repr

/-- Patrol scrub of a core: its line, the fc of its read and the write-back it waits to make (R228). -/
structure Scrub where
  line : Nat := 0
  waiting : Bool := false
  readFc : Nat := 0
  touched : Bool := false
  deriving DecidableEq, Repr

/-- A logical core. -/
structure CoreState where
  work : CoreWork := {}
  image : CoreWork := {}
  tables : CoreTables := {}
  step : CoreStep := {}
  traffic : CoreTraffic := {}
  totals : CoreTotals := {}
  scrub : Scrub := {}
  scr : ScrStat := {}
  mesh : MeshStat := {}
  array : ArrayStat := {}
  owner : Option Fn := none
  clearing : Bool := false
  checkPending : Option (Bool × Nat) := none
  viewTallies : AMap (BitVec 32) := []
  viewMail : Option Word := none
  deriving DecidableEq, Repr

/-! ### Plots -/

/-- PLT.PLACE, PLT.QUOTA, PLT.USE (R446, R458), the loaded image with its copy in deep store (R312), the field pattern and size that a pre-empted plot resumes with (R451), and the image loads that have taken effect. -/
structure Place where
  state : BitVec 3 := 0
  rows : BitVec 7 := 0
  cols : BitVec 7 := 0
  originY : BitVec 6 := 0
  originX : BitVec 6 := 0
  channels : BitVec 10 := 0
  mib : BitVec 32 := 0
  foot : BitVec 20 := 0
  image : Option (BitVec 4) := none
  imageDigest : BitVec 256 := 0
  coreDependent : Bool := false
  pattern : List (Nat × Nat) := []
  savedRows : BitVec 7 := 0
  savedCols : BitVec 7 := 0
  hadImage : Bool := false
  imageBody : List Byte := []
  loads : Nat := 0
  deriving DecidableEq, Repr

/-- Where a plot's step stands. -/
inductive StepPhase where
  | idle | running | arrived | held | abandoned | diagnostic
  deriving DecidableEq, Repr

/-- The causes of a hold between steps (R63, R77, R365, R433, R556). -/
structure Holds where
  reference : Bool := false
  recordPlace : Bool := false
  completion : Bool := false
  thermal : Bool := false
  partner : Bool := false
  deriving DecidableEq, Repr

/-- PLT.BELLNUM, PLT.BELLCTL, PLT.BELLSTAT and the bell logic of a domain (R50 to R64): the edge latch with the timestamp of its edge, and the bells that the domain has rung since its plot was created (R388). -/
structure BellState where
  bell : BitVec 48 := 0
  attempt : BitVec 8 := 0
  held : Bool := false
  stopped : Bool := false
  ctl : Word := 0
  ctlUse : Word := 0
  late : BitVec 16 := 0
  slip : BitVec 16 := 0
  rejected : BitVec 8 := 0
  overrun : BitVec 8 := 0
  heldCount : BitVec 8 := 0
  cause : BitVec 4 := 0
  latch : Option Nat := none
  latchStamp : Word := 0
  lastEdge : Option Nat := none
  lastLate : Option Nat := none
  rungs : Nat := 0
  deriving DecidableEq, Repr

/-- The running step of a domain (R43, R49, R54, R57). `rung` says that the bell has rung and the commit waits for a lock-step partner: since when, what the ringing recorded, and what has happened since, which belongs to the next step (R43, R400); `retriedAt` is the time of the step's first abandoned attempt (R44). -/
structure StepState where
  phase : StepPhase := .idle
  holds : Holds := {}
  fieldsIn : BitVec 8 := 0
  released : BitVec 8 := 0
  lastArrival : Nat := 0
  lastBell : Nat := 0
  everRung : Bool := false
  windowFrom : Option Nat := none
  overruns : Nat := 0
  stopAtBell : Option Report := none
  partner : Option LockstepExchange := none
  rung : Bool := false
  epoch : Option Nat := none
  retried : Bool := false
  heldFrom : Nat := 0
  heldStamp : Word := 0
  undecided : Bool := false
  ringEvents : List EventEntry := []
  heldEvents : List EventEntry := []
  rungAt : Nat := 0
  retriedAt : Option Nat := none
  gateStall : BitVec 8 := 0
  deriving DecidableEq, Repr

/-- PLT.CLOCK (R68) and PLT.POWER (R462); `lent` is LENT in mW (R461). -/
structure PlotClock where
  pass : BitVec 7 := 0x40
  capFields : BitVec 8 := 0
  capPass : BitVec 7 := 0
  capBells : BitVec 8 := 0
  budget : BitVec 16 := 0xFFFF
  floor : BitVec 16 := 0
  passBudget : BitVec 7 := 0x40
  lent : Nat := 0
  deriving DecidableEq, Repr

/-- PLT.FMTCTL, PLT.CHAFFCTL and PLT.REPLAY (R99, R135, R349), with the marks of RWL fields that the host wrote (R21). Their reset is 'image': before any image they read 0 (DESIGN CHOICE, log entry 114). -/
structure PlotRegs where
  bruiseNan : Bool := false
  rampDown : BitVec 10 := 0
  rampUp : BitVec 8 := 0
  chaffFloor : BitVec 6 := 0
  replayClass : BitVec 2 := 0
  batchInv : Bool := false
  requireSigned : Bool := false
  steps : BitVec 13 := 0
  wroteNan : Bool := false
  wroteRampDown : Bool := false
  wroteRampUp : Bool := false
  wroteFloor : Bool := false
  wroteSigned : Bool := false
  wroteSteps : Bool := false
  deriving DecidableEq, Repr

/-- PLT.ARITHTOT (R157). -/
structure ArithTot where
  overflow : BitVec 20 := 0
  underflow : BitVec 20 := 0
  bruise : BitVec 20 := 0
  sumSat : Bool := false
  deriving DecidableEq, Repr

/-- A PLT.SBASE register (R321). -/
structure StreamBase where
  base : BitVec 34 := 0
  adv : BitVec 24 := 0
  deriving DecidableEq, Repr

/-- An input or output item of a step (R351). -/
structure Item where
  tag : Word
  kind : BitVec 8
  type : BitVec 8
  length : BitVec 32
  digest : BitVec 256
  deriving DecidableEq, Repr

/-- A step block with its items and events (R356, R358). -/
structure StepBlock where
  bell : BitVec 48
  attempts : BitVec 8
  damaged : Bool
  held : Bool
  commitTime : Word
  stepDigest : BitVec 256
  totals : ArithTot
  inputs : List Item
  outputs : List Item
  events : List EventEntry
  deriving DecidableEq, Repr

/-- A Deruri record (R355 to R358), header fields in the order of R357. -/
structure Record where
  level : BitVec 8 := 2
  replayClass : BitVec 2 := 0
  batchInv : Bool := false
  counter : Word := 0
  runId : Word := 0
  segment : BitVec 32 := 0
  close : BitVec 4 := 0
  unsigned : Bool := false
  prev : BitVec 256 := 0
  image : BitVec 256 := 0
  seed : Word := 0
  plotkey : BitVec 16 := 0
  rows : BitVec 8 := 0
  cols : BitVec 8 := 0
  groupModules : BitVec 16 := 1
  deriving DecidableEq, Repr

/-- The rest of a record: place, bells, times and blocks (R357), and its trailer (R362). -/
structure RecordBody where
  groupIndex : BitVec 16 := 0
  originY : BitVec 8 := 0
  originX : BitVec 8 := 0
  module : BitVec 12 := 0
  function : Fn := 0
  fmt : Bool := false
  openTime : Word := 0
  closeTime : Word := 0
  blocks : List StepBlock := []
  signature : Nat := 0
  deriving DecidableEq, Repr

/-- The run of a plot (R336), its open record and the items and events of its running step. -/
structure Run where
  isOpen : Bool := false
  seed : Word := 0
  plotkey : BitVec 16 := 0
  segment : BitVec 32 := 0
  runId : Word := 0
  prev : BitVec 256 := 0
  blocks : List StepBlock := []
  openTime : Word := 0
  inputs : List Item := []
  outputs : List Item := []
  events : List EventEntry := []
  stepHeld : Bool := false
  hostTag : Word := 0
  unsignedFrom : Bool := false
  owesPlace : Bool := false
  deriving DecidableEq, Repr

/-- PLT.FAULTSTAT (R381) and the queue of undelivered reports (R380); the codes of the running attempt, oldest first (R404). -/
structure FaultState where
  queue : List Report := []
  attemptReports : List Report := []
  stopCode : Code := 0
  lost : BitVec 16 := 0
  retried : BitVec 8 := 0
  deriving DecidableEq, Repr

/-- A round of a barrier group: member arrivals (core, offset) and the fields in which its completion has landed (R258). -/
structure BarRound where
  arrivals : List (Nat × Nat) := []
  landed : BitVec 8 := 0
  deriving DecidableEq, Repr

/-- A commons request of the running step (R274). -/
structure CommonsReq where
  core : CoreId
  put : Bool
  target : BitVec 12
  value : Word
  accepted : Bool
  deriving DecidableEq, Repr

/-- PLT.COMMONSTAT (R279), the requests of the step, and the plot's windows PLT.COWN and PLT.CGRANT (R466). -/
structure CommonsPlot where
  dropped : BitVec 8 := 0
  refused : BitVec 8 := 0
  requests : List CommonsReq := []
  cown : AMap Word := []
  cgrant : AMap Word := []
  deriving DecidableEq, Repr

/-- A packet accepted and not yet in effect (R423, R424). `epoch` counts the image loads that come before its target bell, because each load restarts the bell numbers (R50, R443). -/
structure Staged where
  type : BitVec 8
  p : PacketIn
  unit : BitVec 32
  acceptedAt : Nat
  target : BitVec 48
  epoch : Nat
  deriving DecidableEq, Repr

/-- A device packet on its way to a completion ring (R431); `seq` is its place in the order in which the hub produces packets (R432). -/
structure DevPacket where
  type : BitVec 8
  flags : BitVec 8
  plot : Fn
  tag : Word
  bell : BitVec 48
  param : Word
  payload : List Byte
  irq : Bool
  seq : Nat
  deriving DecidableEq, Repr

/-- A submission or completion ring (R414). -/
structure Ring where
  base : BitVec 52 := 0
  enable : Bool := false
  logsize : BitVec 5 := 0
  halted : Bool := false
  cause : BitVec 2 := 0
  tail : BitVec 32 := 0
  head : BitVec 32 := 0
  deriving DecidableEq, Repr

/-- PLT.IRQCTL, PLT.HOSTERR, the mailbox registers, and the interrupts signalled (R434 to R436). -/
structure HostRegs where
  cqEn : Bool := false
  mboxEn : Bool := false
  errEn : Bool := false
  holdoff : BitVec 16 := 0
  batch : BitVec 16 := 1
  errCode : Code := 0
  errType : BitVec 8 := 0
  errRefused : BitVec 8 := 0
  errUnit : BitVec 32 := 0
  mboxTo : Word := 0
  mboxFrom : Word := 0
  toFull : Bool := false
  fromFull : Bool := false
  draining : Bool := false
  unsignalled : Nat := 0
  answers : List Word := []
  deriving DecidableEq, Repr

/-- Interrupt signals sent, PLT.IGNORED and PLT.DIAG (R434, R455, R467). -/
structure HostCounts where
  vector0 : Nat := 0
  vector1 : Nat := 0
  vector2 : Nat := 0
  ignored : BitVec 16 := 0
  ignoredLast : BitVec 16 := 0
  diagEntry : BitVec 13 := 0
  diagSteps : BitVec 8 := 0
  diagBusy : Bool := false
  diagLeft : Nat := 0
  readPaused : Bool := false
  deriving DecidableEq, Repr

/-- The packets a plot holds: staged, and the parts of its backlog that R433 names less reports and records. -/
structure PlotPackets where
  staged : List Staged := []
  results : List DevPacket := []
  completions : List DevPacket := []
  written : List DevPacket := []
  deriving DecidableEq, Repr

/-- A save block kept in plot space at pre-emption (R448). -/
structure SavedCore where
  rel : Nat
  work : CoreWork
  deriving DecidableEq, Repr

/-- Placement changes under way (R450, R451, R454). -/
structure Moving where
  saving : Bool := false
  restoring : Bool := false
  saved : List SavedCore := []
  flr : Bool := false
  deriving DecidableEq, Repr

/-- HUB.GROUP of a function (R528), the member list of the join (R525), and a join under way (R526). -/
structure GroupReg where
  groupId : BitVec 8 := 0
  root : BitVec 12 := 0
  modules : BitVec 13 := 0
  index : BitVec 12 := 0
  joined : Bool := false
  cross : BitVec 16 := 0
  members : List (BitVec 12) := []
  joining : Option Staged := none
  confirmed : Bool := false
  deriving DecidableEq, Repr

/-- A plot. -/
structure Plot where
  place : Place := {}
  bell : BellState := {}
  step : StepState := {}
  clock : PlotClock := {}
  regs : PlotRegs := {}
  tot : ArithTot := {}
  sbase : AMap StreamBase := []
  sbaseImage : AMap StreamBase := []
  bar : AMap Word := []
  rounds : AMap BarRound := []
  run : Run := {}
  faults : FaultState := {}
  commons : CommonsPlot := {}
  sq : Ring := {}
  cq : Ring := {}
  host : HostRegs := {}
  counts : HostCounts := {}
  packets : PlotPackets := {}
  moving : Moving := {}
  group : GroupReg := {}
  deriving DecidableEq, Repr

/-! ### Fields, edges, channels -/

/-- A row-map register and the cores marked failed (R30, R31, R34). `serving` lists, by logical column, the mask by which a core is still served until its remap takes effect at its domain's next bell or restart (R31, R42). -/
structure RowMap where
  enable : BitVec 36 := 0xFFFFFFFF
  bad : BitVec 36 := 0
  live : BitVec 3 := 0
  serving : AMap (BitVec 36) := []
  deriving DecidableEq, Repr

/-- A field: row maps, physical cores keyed by 64 * row + column, FLD.CLOCK, FLD.THERM and the counts of R69 and R556. -/
structure Field where
  rows : AMap RowMap := []
  arrays : AMap PhysCore := []
  reeveCeil : BitVec 11 := 0x5DC
  droopCeil : BitVec 11 := 0x640
  powerCeil : BitVec 11 := 0x640
  stackCeil : BitVec 11 := 0x640
  thermCeil : BitVec 11 := 0x640
  ceiling : BitVec 11 := 0x5DC
  droops : BitVec 16 := 0
  floors : BitVec 8 := 0
  tripped : Bool := false
  restoreBells : Nat := 0
  stackCool : Nat := 0
  tj : BitVec 8 := 0
  tjMax : BitVec 8 := 0
  deriving DecidableEq, Repr

/-- Thermal hold of a field (R556). -/
structure FieldHold where
  held : Bool := false
  hot : Nat := 0
  cool : Nat := 0
  stackHot : List Nat := []
  deriving DecidableEq, Repr

/-- A shared field edge of 36 bridge links (R36): the failed links, the physical link that serves a logical link, itself where unlisted and 36 where none does, and the spares that take over logical links at the next bell or retry restart (R37, R42). -/
structure Edge where
  bad : BitVec 36 := 0
  serves : AMap Nat := []
  next : AMap Nat := []
  deriving DecidableEq, Repr

/-- A READ unit on its way to its core, requested in fc `req`; `taken` once the channel has read it (R317, R322, R333). -/
structure ReadUnit where
  entry : BitVec 6
  req : Nat
  taken : Bool
  firing : Nat
  core : CoreId
  handle : BitVec 6
  pos : Nat
  j : Nat
  last : Nat
  unit : Nat
  data : BitVec 512
  bruise : BitVec 8
  bad : Bool
  land : Nat
  delayed : Bool
  noted : Bool
  tallyEn : Bool
  tally : BitVec 6
  amount : Nat
  site : BitVec 10
  deriving DecidableEq, Repr

/-- A journal entry: a unit's pre-image (R327). -/
structure JournalEntry where
  unit : Nat
  data : BitVec 512
  bruise : BitVec 8
  damage : Damage
  deriving DecidableEq, Repr

/-- DS.CHSTAT less JOURNAL, which is the journal's length (R334). -/
structure ChStat where
  ce : BitVec 16 := 0
  ue : BitVec 8 := 0
  stall : BitVec 16 := 0
  refresh : BitVec 8 := 0
  refreshSub : Nat := 0
  deriving DecidableEq, Repr

/-- A deep-store channel: DS.CHMAP, its table, its units and its work in flight (R311 to R334). -/
structure Channel where
  ordinal : BitVec 9 := 0
  owner : Option Fn := none
  live : Bool := true
  zeroing : Bool := false
  entry : AMap Word := []
  fired : AMap Nat := []
  mem : List Host.Cell := []
  bruise : AMap (BitVec 8) := []
  damage : AMap Damage := []
  reads : List ReadUnit := []
  writes : List WriteUnit := []
  journal : List JournalEntry := []
  stat : ChStat := {}
  stalled : Bool := false
  stalledInStep : Bool := false
  scrubAt : Nat := 0
  failedFirings : List (Nat × Nat) := []
  deriving DecidableEq, Repr

/-! ### The mesh -/

/-- Where a flit is: at a router, on a bridge since its send offset, in an elastic buffer with that offset, at its receiving gate with the offset at which it was sent, in the hub's transit switch (R286, R296, R529, R531). -/
inductive FlitStage where
  | router
  | bridge (sent : Nat)
  | buffered (sent : Nat)
  | gate (sent : Nat)
  | transit
  deriving DecidableEq, Repr

/-- A flit in flight. Ports are numbered 0 north, 1 east, 2 south, 3 west, 4 local (R299). -/
structure Flit where
  fn : Fn
  src : CoreId
  dest : CoreId
  destModule : Option (BitVec 12)
  router : CoreId
  inPort : BitVec 3
  ready : Nat
  link1 : Bool
  stage : FlitStage
  arrived : Nat
  order : Nat
  firing : Nat
  site : BitVec 10
  delayed : Bool
  noted : Bool
  kind : FlitKind
  deriving DecidableEq, Repr

/-- A link used in an fc: router, port, whether it is an output or an input of the router, second link of a row crossing, fc (R299). -/
structure LinkUse where
  input : Bool := false
  router : CoreId
  port : BitVec 3
  link1 : Bool
  fc : Nat
  deriving DecidableEq, Repr

/-- The mesh of the module: flits by number, links used, LINE firings with a discarded flit (R255, R303). -/
structure Mesh where
  flits : AMap Flit := []
  nextFlit : Nat := 0
  uses : List LinkUse := []
  broken : List (Nat × Nat × Nat) := []
  deriving DecidableEq, Repr

/-! ### The hub -/

/-- A mailbox of the commons (R273, R277, R278). -/
structure CMailbox where
  word : Word := 0
  full : Bool := false
  assigned : Bool := false
  deriving DecidableEq, Repr

/-- The commons (R273, R278): values, owners (unlisted: orphaned), former owners, mailboxes. -/
structure Commons where
  tally : AMap (BitVec 32) := []
  owner : AMap Fn := []
  former : AMap Fn := []
  mail : AMap CMailbox := []
  deriving DecidableEq, Repr

/-- HUB.REFMON, holdover and the PLL (R76 to R79), and whether a loss of PCIE_REFCLK stands. -/
structure Refs where
  pcieOk : Bool := false
  sysrefOk : Bool := false
  holdover : Bool := false
  sysrefLosses : BitVec 16 := 0
  pcieLosses : BitVec 16 := 0
  lostAt : Nat := 0
  faultN : Bool := false
  pcieLost : Bool := false
  deriving DecidableEq, Repr

/-- HUB.BOOTSTAT (R472) and what start-up has done (R470, R474). -/
structure Boot where
  phase : BitVec 4 := 0
  failed : Bool := false
  released : Bool := false
  line : Bool := false
  headerB : Bool := false
  plotsLoaded : BitVec 8 := 0
  plotsFailed : BitVec 8 := 0
  bootMs : BitVec 24 := 0
  fieldTested : Bool := false
  linked : Bool := false
  risen : Bool := false
  bellZero : Bool := false
  zeroAt : Nat := 0
  reload : Bool := false
  deriving DecidableEq, Repr

/-- The pins (R470, R473, R501, R544, R548, R558). -/
structure Pins where
  pwrOk : Bool := true
  perstN : Bool := false
  pcieUp : Bool := false
  vbat : Bool := true
  treeRootN : Bool := true
  thermtripN : Bool := true
  powerLatched : Bool := false
  deriving DecidableEq, Repr

/-- The key store (R480, R499). Slot fuses stand in `Config.aesSlotKey`; revoke fuses here. -/
structure Keys where
  identityPresent : Bool := true
  revoked : BitVec 4 := 0
  batteryKey : Option (BitVec 256) := none
  minSecurity : BitVec 7 := 0
  withheld : Bool := false
  deriving DecidableEq, Repr

/-- A catalogue entry (R484) with its verdict (R492); `body` is the verified plaintext, from which the load summary of R492 is read. -/
structure CatEntry where
  state : BitVec 8 := 0
  offset : BitVec 32 := 0
  length : BitVec 32 := 0
  secVersion : BitVec 32 := 0
  image : BitVec 256 := 0
  verdict : Code := 0
  body : List Byte := []
  deriving DecidableEq, Repr

/-- A START entry of the configuration block (R485). -/
structure StartEntry where
  fn : Fn
  create : Word
  slot : BitVec 4
  quota : Word
  budget : BitVec 16
  deriving DecidableEq, Repr

/-- A flash operation waiting for its turn (R495): packet, SQ unit, operation, the idle bell at which its packet took effect (R432). -/
structure FlashOp where
  op : BitVec 4
  p : PacketIn
  unit : BitVec 32
  bell : BitVec 48 := 0
  deriving DecidableEq, Repr

/-- The configuration flash and what phase 3 reads from it (R482 to R485, R492, R494, R495). -/
structure Flash where
  mem : List Host.Cell := []
  generation : BitVec 32 := 0
  configGen : BitVec 32 := 0
  configB : Bool := false
  catalogue : AMap CatEntry := []
  start : List StartEntry := []
  loadedPolicy : Bool := false
  ops : List FlashOp := []
  deriving DecidableEq, Repr

/-- HUB.DEBUG and the JTAG port (R498 to R500). -/
structure Debug where
  level : BitVec 2 := 0
  fails : BitVec 2 := 0
  isOpen : Bool := true
  attempts : Nat := 0
  instruction : JtagInstr := .idcode
  deriving DecidableEq, Repr

/-- The battery domain: calendar, its status, HUB.PWRCAUSE (R501, R504, R546). The spec resets none of it to a value; zero is the model's (DESIGN CHOICE, log entry 9). -/
structure Battery where
  seconds : BitVec 40 := 0
  usec : BitVec 20 := 0
  sub : Nat := 0
  valid : Bool := false
  lost : Bool := false
  ended : Bool := false
  pwrok : Bool := false
  brownout : Bool := false
  rail : BitVec 4 := 0
  thermtrip : Bool := false
  deriving DecidableEq, Repr

/-- The monotonic counter (R395 to R397). -/
structure Counter where
  value : Word := 0
  next : BitVec 6 := 0
  warn : Bool := false
  warnedNow : Bool := false
  readOnly : Bool := false
  retries : BitVec 24 := 0
  deriving DecidableEq, Repr

/-- HUB.FAULTSUM (R382), HUB.LOCKSTEP (R399), the reeve's log (R380, R413). -/
structure HubFaults where
  sum : BitVec 5 := 0
  mask : BitVec 5 := 0
  lockPort : BitVec 4 := 0
  lockEnable : Bool := false
  diverged : Bool := false
  partner : BitVec 12 := 0
  log : List Report := []
  logWrapped : Bool := false
  logLast : Code := 0
  logEntered : BitVec 32 := 0
  logRead : Nat := 0
  logSent : Nat := 0
  deriving DecidableEq, Repr

/-- HUB.POWER and HUB.THERM (R539, R540, R545, R559), the ceilings that wait for VSET to settle and those that wait for a bell (R42, R539). -/
structure Power where
  vset : BitVec 7 := 0x54
  ilimit : Bool := false
  icore : BitVec 11 := 0
  pmod : BitVec 12 := 0
  pendingRise : AMap (BitVec 11) := []
  settledRise : AMap (BitVec 11) := []
  hubTj : BitVec 8 := 0
  optTmax : BitVec 8 := 0
  optPort : BitVec 4 := 0
  optRaised : List Nat := []
  stackTemps : List Nat := []
  samples : List (Nat × Nat) := []
  belowFor : Nat := 0
  deriving DecidableEq, Repr

/-- The I3C target (R552, R553): dynamic address, window offset, in-band interrupts, bytes last read. -/
structure I3c where
  addr : Option (BitVec 7) := none
  offset : BitVec 32 := 0
  ibi : List Code := []
  readData : List Word := []
  deriving DecidableEq, Repr

/-- An optical lane in both directions (R509 to R512, R536). `corrNow` counts the corrected symbols of the present second (R398). -/
structure Lane where
  corr : BitVec 24 := 0
  uncorr : BitVec 16 := 0
  replay : BitVec 16 := 0
  failed : Bool := false
  corrNow : Nat := 0
  ackSeq : BitVec 12 := 0
  recvSeq : BitVec 12 := 0
  retryFrom : Option (BitVec 12) := none
  replays : Nat := 0
  discarding : Bool := false
  nakDue : Option (BitVec 12) := none
  deriving DecidableEq, Repr

/-- An optical port: OPT.AGECTL, OPT.LINK, OPT.STALL, lanes, bell words waiting to be sent and to be taken (R398, R510, R536). -/
structure Port where
  thresh : BitVec 24 := 0x100000
  overCount : BitVec 9 := 0
  state : BitVec 3 := 0
  role : BitVec 2 := 0
  neighbour : BitVec 12 := 0
  nport : BitVec 4 := 0
  failedLane : BitVec 4 := 0xF
  spareIn : Bool := false
  skew : Bool := false
  delay : BitVec 12 := 0
  stall : BitVec 32 := 0
  lanes : AMap Lane := []
  bellOut : List Word := []
  bellIn : List Word := []
  spareTraining : Option (BitVec 4) := none
  deriving DecidableEq, Repr

/-- A join as the root holds it (R526): its group and the low 40 bits of its payload digest (log entry 40). -/
structure JoinHeld where
  groupId : BitVec 8
  digest : BitVec 40
  deriving DecidableEq, Repr

/-- What the root keeps of a group: where it holds no member, when the last subtree arrived at the bell that is due and that bell's number; the epochs that it has fixed, and the time of the last (R52, R520, R523). -/
structure GroupDomain where
  arrived : Option Nat := none
  bell : Nat := 0
  epochs : Nat := 0
  lastEpoch : Option Nat := none
  deriving DecidableEq, Repr

/-- Multi-module state: HUB.SYSTEM, HUB.STIME with the eighths of its correction still to apply (R517), joins, ARRIVE words received (group, bell, port), edges held at the root, the epoch of bell zero, credits and fc used at gates, CONTROL content received, and the ports below which a group has members (R513 to R537). -/
structure System where
  module : BitVec 12 := 0
  root : Bool := false
  standalone : Bool := false
  depth : BitVec 3 := 0
  frac : BitVec 3 := 0
  stime : BitVec 61 := 0
  joins : List JoinHeld := []
  arrivedWords : List (BitVec 8 × BitVec 12 × PortId) := []
  edges : List (BitVec 8 × Nat) := []
  ringFrom : Option Nat := none
  credits : AMap Nat := []
  gateUse : List (Nat × Nat) := []
  control : List (BitVec 8 × BitVec 40) := []
  branches : List (BitVec 8 × PortId) := []
  slew : Int := 0
  slewSub : Nat := 0
  domains : AMap GroupDomain := []
  deriving DecidableEq, Repr

/-- A closed record in a record place (R365); `fn` is the function whose completion ring takes it, and `seq` is its place in the order in which the hub produces packets (R432). -/
structure RecordPlace where
  fn : Fn
  head : Record
  body : RecordBody
  seq : Nat := 0
  deriving DecidableEq, Repr

/-- The two ordering codes (R3). -/
inductive Grade where
  | mt4096 | mt3584
  deriving DecidableEq, Repr

/-- Bits of the hub die that stand beside no register group, and the time and plot of the last commit that changed commons objects (R274, R280). -/
structure Hub where
  time : Nat := 0
  idleBell : BitVec 48 := 0
  refs : Refs := {}
  boot : Boot := {}
  pins : Pins := {}
  keys : Keys := {}
  flash : Flash := {}
  jtag : Debug := {}
  battery : Battery := {}
  counter : Counter := {}
  faults : HubFaults := {}
  power : Power := {}
  i3c : I3c := {}
  records : List RecordPlace := []
  idleStaged : List Staged := []
  seq : Nat := 0
  hostRead : Word := 0
  commonsAt : Option (Nat × Fn) := none
  deriving DecidableEq, Repr

/-! ### The state -/

/-- Why a step stops with a fault: the command names something that the module does not have. -/
inductive Fault where
  /-- Raised by every command that names a core outside the logical grid of the grade (R3, R4). Safe: the hardware has no such core. -/
  | noSuchCore
  /-- Raised by every command that names a deep-store channel of a fused stack (R3, R311). Safe: the hardware has no such channel. -/
  | noSuchChannel
  /-- Raised by link commands that name a physical lane above 8 (R506). Safe: the hardware has no such lane. -/
  | noSuchLane
  deriving DecidableEq, Repr

/-- Why a step is refused. -/
inductive Refusal where
  /-- Raised by the dispatcher alone, for a command that has no meaning yet. Safe. -/
  | notModelled (mnemonic : String)
  deriving DecidableEq, Repr

/-- The module and the queue of commands that wait, first in, first out. -/
structure State where
  grade : Grade
  hub : Hub
  fields : AMap Field
  fieldHold : AMap FieldHold
  edges : AMap Edge
  cores : AMap CoreState
  plots : AMap Plot
  channels : AMap Channel
  mesh : Mesh
  commons : Commons
  ports : AMap Port
  system : System
  pending : List Instr
  deriving DecidableEq, Repr

/-- The module right after PWR_OK has risen, in phase 0 of R470. -/
def State.reset : State where
  grade := .mt4096
  hub := {}
  fields := []
  fieldHold := []
  edges := []
  cores := []
  plots := []
  channels := []
  mesh := {}
  commons := {}
  ports := []
  system := {}
  pending := []

end Sys2Proof.Machine
end

