-- ==== Sys2Proof/Machine/Formats.lean ====
section
/-! DEFINITION. Number formats and conversions (R81 to R101), rounding (R91) and the counter-based generator (R342, R343). -/

namespace Sys2Proof.Machine

/-- `round_shift(n, d, mode, r)` (R91). -/
def roundShift (n : Int) (d : Nat) (mode : BitVec 2) (r : Nat) : Int :=
  if d = 0 then n
  else
    let q := n / 2 ^ d
    let rem := (n % 2 ^ d).toNat
    if rem = 0 then q
    else if mode = 0 then
      let half := 2 ^ (d - 1)
      if rem > half || (rem == half && q % 2 == 1) then q + 1 else q
    else if mode = 1 then if n < 0 then q + 1 else q
    else if mode = 2 then q
    else
      let t := if d ≤ 24 then rem * 2 ^ (24 - d) else rem / 2 ^ (d - 24)
      if t + r ≥ 2 ^ 24 then q + 1 else q

/-! ### The generator (R342, R343) -/

/-- Words of the generator in a round (R342). -/
structure GenState where
  x0 : BitVec 32
  x1 : BitVec 32
  x2 : BitVec 32
  x3 : BitVec 32
  deriving DecidableEq, Repr

/-- The rotation amounts RA of R342. -/
def genRA : List Nat := [13, 7, 25, 19, 3, 29, 11, 17, 23, 5]

/-- The rotation amounts RB of R342. -/
def genRB : List Nat := [22, 16, 6, 28, 10, 14, 26, 2, 9, 20]

/-- The key words k of R342. -/
def genKey (seed : Word) (i : Nat) : BitVec 32 :=
  let k0 := seed.extractLsb' 0 32
  let k1 := seed.extractLsb' 32 32
  match i with
  | 0 => k0
  | 1 => k1
  | _ => k0 ^^^ k1 ^^^ 0x6C8E9CF5#32

/-- Round `i` of `gen` (R342). -/
def genRound (seed : Word) (s : GenState) (i : Nat) : GenState :=
  let y0 := s.x0 + s.x1 + genKey seed (i % 3)
  let y1 := s.x1.rotateLeft (genRA.getD i 0) ^^^ y0
  let y2 := s.x2 + s.x3 + genKey seed ((i + 1) % 3) + BitVec.ofNat 32 i
  let y3 := s.x3.rotateLeft (genRB.getD i 0) ^^^ y2
  { x0 := y0, x1 := y3, x2 := y2, x3 := y1 }

/-- `gen(seed, c)` (R342). -/
def gen (seed : Word) (c : BitVec 128) : BitVec 128 :=
  let s0 : GenState := { x0 := c.extractLsb' 0 32, x1 := c.extractLsb' 32 32, x2 := c.extractLsb' 64 32, x3 := c.extractLsb' 96 32 }
  let s := (List.range 10).foldl (genRound seed) s0
  (s.x3 ++ (s.x2 + genKey seed 2) ++ s.x1 ++ (s.x0 + genKey seed 1) : BitVec 128)

/-- What a draw depends on beside its stream, lane and key register (R343). -/
structure DrawEnv where
  seed : Word
  plotkey : BitVec 16
  x : BitVec 6
  y : BitVec 6
  gindex : BitVec 12
  bell : BitVec 48
  deriving DecidableEq, Repr

/-- The counter of R343 for a stream, its key register, DSEQ and a lane. -/
def drawCounter (e : DrawEnv) (stream : BitVec 7) (key : Word) (dseq : BitVec 27) (lane : Nat) : BitVec 128 :=
  let seq := BitVec.ofNat 32 (dseq.toNat * 32 + lane)
  if key.getLsbD 63 then
    (seq ++ 0#9 ++ key.extractLsb' 0 63 ++ 1#1 ++ stream ++ e.plotkey : BitVec 128)
  else
    (seq ++ e.bell ++ e.gindex ++ e.y ++ e.x ++ 0#1 ++ stream ++ e.plotkey : BitVec 128)

/-- The 24-bit draw of a lane (R342). -/
def drawOf (e : DrawEnv) (stream : BitVec 7) (key : Word) (dseq : BitVec 27) (lane : Nat) : Nat :=
  ((gen e.seed (drawCounter e stream key dseq lane)).extractLsb' 0 24).toNat

/-! ### Formats (R81, R82) -/

/-- The parameters of a float format (R82); `inf` is its infinity code without the sign, 0 when it has none. -/
structure FloatFmt where
  e : Nat
  m : Nat
  bias : Int
  maxMag : Nat
  inf : Nat
  emax : Int
  deriving DecidableEq, Repr

/-- `emin` (R82). -/
def FloatFmt.emin (f : FloatFmt) : Int := 1 - f.bias

/-- The float parameters of a format code; `none` for integer formats (R82, R84). -/
def floatFmt (f : BitVec 4) : Option FloatFmt :=
  match f.toNat with
  | 4 => some { e := 4, m := 3, bias := 7, maxMag := 0x7E, inf := 0, emax := 8 }
  | 5 => some { e := 5, m := 2, bias := 15, maxMag := 0x7B, inf := 0x7C, emax := 15 }
  | 6 => some { e := 3, m := 2, bias := 3, maxMag := 0x1F, inf := 0, emax := 4 }
  | 7 => some { e := 2, m := 3, bias := 1, maxMag := 0x1F, inf := 0, emax := 2 }
  | 8 => some { e := 2, m := 1, bias := 1, maxMag := 0x7, inf := 0, emax := 2 }
  | 9 => some { e := 8, m := 7, bias := 127, maxMag := 0x7F7F, inf := 0x7F80, emax := 0 }
  | 10 => some { e := 5, m := 10, bias := 15, maxMag := 0x7BFF, inf := 0x7C00, emax := 0 }
  | _ => none

/-- A conversion event (R100). -/
inductive Event where
  | none | bruise | overflow | underflow
  deriving DecidableEq, Repr

/-- The exact form of R90: `n * 2^e` and a bruise mark, with the event that decoding raised. -/
structure Exact where
  n : Int
  e : Int
  bruise : Bool
  event : Event
  deriving DecidableEq, Repr

/-- A bruised zero with the event that made it. -/
def Exact.bruised (ev : Event) : Exact := { n := 0, e := 0, bruise := true, event := ev }

/-- `decode_float` (R92). -/
def decodeFloat (fmt : FloatFmt) (code : Nat) (x : Int) : Exact :=
  let width := 1 + fmt.e + fmt.m
  let neg := code / 2 ^ (width - 1) % 2 == 1
  let mag0 := code % 2 ^ (width - 1)
  if mag0 > fmt.maxMag && !(fmt.inf != 0 && mag0 == fmt.inf) then Exact.bruised .bruise
  else
    let ovf := decide (mag0 > fmt.maxMag)
    let mag := if ovf then fmt.maxMag else mag0
    let f := mag / 2 ^ fmt.m
    let m := mag % 2 ^ fmt.m
    let n : Int := if f = 0 then m else 2 ^ fmt.m + m
    let e : Int := if f = 0 then fmt.emin - fmt.m else f - fmt.bias - fmt.m
    { n := if neg then -n else n, e := e + x, bruise := false, event := if ovf then .overflow else .none }

/-- The signed reading of the low `w` bits of a code. -/
def signedCode (w code : Nat) : Int :=
  let c : Int := (code % 2 ^ w : Nat)
  if c ≥ 2 ^ (w - 1) then c - 2 ^ w else c

/-- Decoding of an unbruised element (R84, R86, R88, R89, R92): format, code, E8M0 scale code (MX formats), anchor (AFX32). -/
def decodeElement (fmt : BitVec 4) (code scale : Nat) (anchor : Int) : Exact :=
  let x : Int := (scale : Int) - 127
  if fmtIsMx fmt && scale == 0xFF then Exact.bruised .bruise
  else
    match floatFmt fmt with
    | some f => decodeFloat f code (if fmtIsMx fmt then x else 0)
    | none =>
      let j := signedCode (fmtWidth fmt) code
      let e : Int := if fmt = 3 then x - 6 else if fmt = 11 then anchor - 31 else 0
      { n := j, e := e, bruise := false, event := .none }

/-- The result of a conversion: value, and the event it raised. -/
structure Converted (α : Type) where
  val : α
  event : Event
  deriving DecidableEq, Repr

/-- `to_lane` (R93); the event joins that of decoding, at most one for an element (R100, R101). An infinity that then rounds to zero keeps its OVERFLOW, but for a scale of 0x00, where a row of R101 gives UNDERFLOW (DESIGN CHOICE, log entry 102). -/
def toLane (x : Exact) (k : Int) (mode : BitVec 2) (r : Nat) : Converted (BitVec 32) :=
  let v := if x.e ≥ k then x.n * 2 ^ (x.e - k).toNat else roundShift x.n (k - x.e).toNat mode r
  let ovf := v > 2 ^ 31 - 1 || v < -(2 ^ 31)
  let unf := x.n != 0 && v == 0
  { val := BitVec.ofInt 32 (satSInt 32 v)
    event := if x.event != .none then x.event else if ovf then .overflow else if unf then .underflow else .none }

/-- `encode_float` (R94). -/
def encodeFloat (n k : Int) (fmt : FloatFmt) (mode : BitVec 2) (r : Nat) : Converted Nat :=
  if n = 0 then { val := 0, event := .none }
  else
    let p : Int := bitLength n.natAbs - 1
    let e0 := max (p + k) fmt.emin
    let q0 := e0 - fmt.m
    let m0 := if q0 > k then roundShift n (q0 - k).toNat mode r else n * 2 ^ (k - q0).toNat
    if m0 = 0 then { val := 0, event := .underflow }
    else
      let carry := m0.natAbs == 2 ^ (fmt.m + 1)
      let a := if carry then m0.natAbs / 2 else m0.natAbs
      let q := if carry then q0 + 1 else q0
      let mag := if a ≥ 2 ^ fmt.m then (q + fmt.m + fmt.bias).toNat * 2 ^ fmt.m + (a - 2 ^ fmt.m) else a
      let sign := if m0 < 0 then 2 ^ (fmt.e + fmt.m) else 0
      if mag > fmt.maxMag then { val := sign + fmt.maxMag, event := .overflow } else { val := sign + mag, event := .none }

/-- Conversion out to an integer target (R95): target exponent `t` (0, X - 6 or A - 31), range `lo` to `hi`, width. -/
def encodeInt (n k t lo hi : Int) (w : Nat) (mode : BitVec 2) (r : Nat) : Converted Nat :=
  let k' := k - t
  let j := if k' < 0 then roundShift n (-k').toNat mode r else n * 2 ^ k'.toNat
  let s := if j > hi then hi else if j < lo then lo else j
  { val := (BitVec.ofInt w s).toNat
    event := if s != j then .overflow else if n != 0 && j == 0 then .underflow else .none }

/-- Conversion out of the exact form `(n, k)` (R94, R95): format, block exponent X (MX formats), anchor (AFX32). -/
def encodeElement (fmt : BitVec 4) (n k x anchor : Int) (mode : BitVec 2) (r : Nat) : Converted Nat :=
  match floatFmt fmt with
  | some f => encodeFloat n (if fmtIsMx fmt then k - x else k) f mode r
  | none =>
    match fmt.toNat with
    | 0 => encodeInt n k 0 (-128) 127 8 mode r
    | 1 => encodeInt n k 0 (-(2 ^ 15)) (2 ^ 15 - 1) 16 mode r
    | 3 => encodeInt n k (x - 6) (-127) 127 8 mode r
    | 11 => encodeInt n k (anchor - 31) (-(2 ^ 31)) (2 ^ 31 - 1) 32 mode r
    | _ => encodeInt n k 0 (-(2 ^ 31)) (2 ^ 31 - 1) 32 mode r

/-- The element type's block emax (R82, R96). -/
def blockEmax (fmt : BitVec 4) : Int :=
  match floatFmt fmt with
  | some f => f.emax
  | none => 0

/-- The first unbruised lane of largest magnitude (R96): lane and magnitude. -/
def packMax : List (Nat × Int × Bool) → Nat × Nat → Nat × Nat
  | [], best => best
  | (i, n, bruised) :: rest, best => packMax rest (if !bruised && n.natAbs > best.2 then (i, n.natAbs) else best)

/-- The block exponent X of 32 lanes `(lane, content, bruise)` under the scale rules of R96; `draw` gives a lane's r. -/
def packExponent (fmt : BitVec 4) (rule : BitVec 1) (k : Int) (lanes : List (Nat × Int × Bool)) (mode : BitVec 2) (draw : List Nat) : Int :=
  let best := packMax lanes (0, 0)
  if best.2 = 0 then -127
  else
    let x := max (-127) (min 127 ((bitLength best.2 : Int) - 1 + k - blockEmax fmt))
    if rule = 0 then x
    else
      let n := ((lanes.find? (fun l => l.1 == best.1)).map (fun l => l.2.1)).getD 0
      let c := encodeElement fmt n k x 0 mode (listGet 0 draw best.1)
      if c.event == .overflow && x < 127 then x + 1 else x

/-- The code of a bruised value and whether the stored value keeps the mark (R97, R98). -/
def bruisedCode (fmt : BitVec 4) (nan : Bool) : Nat × Bool :=
  if nan && fmt == 9 then (0x7FC0, false) else if nan && fmt == 10 then (0x7E00, false) else (0, true)

end Sys2Proof.Machine
end

