-- ==== Sys2Proof/Machine/Flags.lean ====
section
/-! DEFINITION. The counters of a core and how each is raised: CORE.ARITHSTAT and the totals of R157, CORE.VECSTAT, CORE.ISSUESTAT, CORE.SCRSTAT, CORE.SYNCSTAT, CORE.ARRAYSTAT, CORE.MESHSTAT. Every count saturates at its maximum. -/

namespace Sys2Proof.Machine

/-- A count of `n` bits raised by `k`, saturating at its maximum. -/
def satAdd {n : Nat} (c : BitVec n) (k : Nat) : BitVec n := BitVec.ofNat n (min (c.toNat + k) (2 ^ n - 1))

/-- Counts one conversion event in CORE.ARITHSTAT and in the totals of the attempt (R155 to R157). -/
def CoreState.countEvent (c : CoreState) (e : Event) : CoreState :=
  match e with
  | .none => c
  | .overflow => { c with work.arith.overflow := satAdd c.work.arith.overflow 1, totals.overflow := c.totals.overflow + 1 }
  | .underflow => { c with work.arith.underflow := satAdd c.work.arith.underflow 1, totals.underflow := c.totals.underflow + 1 }
  | .bruise => { c with work.arith.bruise := satAdd c.work.arith.bruise 1, totals.bruise := c.totals.bruise + 1 }

/-- Counts a list of events. -/
def CoreState.countEvents (c : CoreState) (es : List Event) : CoreState := es.foldl CoreState.countEvent c

/-- Sets SUM_SAT (R150, R157). -/
def CoreState.markSumSat (c : CoreState) (b : Bool) : CoreState :=
  if b then { c with work.arith.sumSat := true, totals.sumSat := true } else c

/-- Sets NARROW_SAT (R156). -/
def CoreState.markNarrowSat (c : CoreState) (b : Bool) : CoreState :=
  if b then { c with work.arith.narrowSat := true } else c

/-- Sets CONTRIB_SAT (R156). -/
def CoreState.markContribSat (c : CoreState) (b : Bool) : CoreState :=
  if b then { c with work.arith.contribSat := true } else c

/-- Counts `k` clamped lanes in CORE.VECSTAT (R178). -/
def CoreState.countClamps (c : CoreState) (k : Nat) : CoreState :=
  if k = 0 then c else { c with work.vec.sat := satAdd c.work.vec.sat k, work.vec.satSeen := true }

/-- Counts a bruised lane read by VGET (R178). -/
def CoreState.countEscape (c : CoreState) (b : Bool) : CoreState :=
  if b then { c with work.vec.escape := satAdd c.work.vec.escape 1 } else c

/-- Counts a scalar clamp (R200, R212). -/
def CoreState.countScalarClamp (c : CoreState) (b : Bool) : CoreState :=
  if b then { c with work.issue.ssat := satAdd c.work.issue.ssat 1 } else c

/-- Counts correctable words found (R229). -/
def CoreState.countCe (c : CoreState) (k : Nat) : CoreState := { c with scr.ce := satAdd c.scr.ce k }

/-- Counts bruised words delivered to a reader; `scalar` says they reached a scalar register (R225, R229). -/
def CoreState.countBruised (c : CoreState) (k : Nat) (scalar : Bool) : CoreState :=
  { c with scr.bruised := satAdd c.scr.bruised k, scr.escape := if scalar then satAdd c.scr.escape k else c.scr.escape }

/-- Counts an uncorrectable word (R226, R229). -/
def CoreState.countUe (c : CoreState) : CoreState := { c with scr.ue := satAdd c.scr.ue 1 }

end Sys2Proof.Machine
end

