-- ==== Sys2Proof/Machine/Ops.lean ====
section
/-! DEFINITION. The named operations over a core's registers, scratchpad, reports and work in flight, and over the cores, plots and channels of the module. -/

namespace Sys2Proof.Machine

/-! ### Registers (R162, R197) -/

/-- The content of scalar register `r`; S0 reads as 0 (R197). -/
def CoreState.readS (c : CoreState) (r : BitVec 5) : Word := if r = 0 then 0 else AMap.get 0 c.work.s r.toNat

/-- The content of address register `r`; A0 reads as 0 (R197). -/
def CoreState.readA (c : CoreState) (r : BitVec 4) : BitVec 32 := if r = 0 then 0 else AMap.get 0 c.work.a r.toNat

/-- The content of vector register `r` with its bruise bits (R162). -/
def CoreState.readV (c : CoreState) (r : BitVec 5) : VReg := AMap.get {} c.work.v r.toNat

/-- The content of mask register `r` with its bruise bits (R162). -/
def CoreState.readM (c : CoreState) (r : BitVec 3) : MReg := AMap.get {} c.work.m r.toNat

/-- DSEQ of a draw stream (R345). -/
def CoreState.dseq (c : CoreState) (stream : Nat) : BitVec 27 := AMap.get 0 c.work.dseq stream

/-- Sets DSEQ of a draw stream. -/
def CoreState.setDseq (c : CoreState) (stream : Nat) (v : BitVec 27) : CoreState :=
  { c with work.dseq := AMap.put 0 c.work.dseq stream v }

/-- A landed write of a key register zeroes the DSEQ of every stream it keys (R344, R345). -/
def CoreState.keyWritten (c : CoreState) (r : BitVec 5) : CoreState :=
  if r = 23 then (c.setDseq 0 0).setDseq 1 0 else if r = 31 then c.setDseq 2 0 else c

/-- A write to scalar register `r`, ignored for S0 (R197). -/
def CoreState.writeS (c : CoreState) (r : BitVec 5) (v : Word) : CoreState :=
  if r = 0 then c else ({ c with work.s := AMap.put 0 c.work.s r.toNat v } : CoreState).keyWritten r

/-- A write to address register `r`, ignored for A0 (R197). -/
def CoreState.writeA (c : CoreState) (r : BitVec 4) (v : BitVec 32) : CoreState :=
  if r = 0 then c else { c with work.a := AMap.put 0 c.work.a r.toNat v }

/-- A write to a vector register. -/
def CoreState.writeV (c : CoreState) (r : BitVec 5) (v : VReg) : CoreState :=
  { c with work.v := AMap.put {} c.work.v r.toNat v }

/-- A write to a mask register. -/
def CoreState.writeM (c : CoreState) (r : BitVec 3) (v : MReg) : CoreState :=
  { c with work.m := AMap.put {} c.work.m r.toNat v }

/-- Lane `i` of a vector register (R162). -/
def VReg.lane (v : VReg) (i : Nat) : BitVec 32 := v.bits.extractLsb' (32 * i) 32

/-- The bits of a register whose lane `i` is `f i`. -/
def lanesOf (f : Nat → BitVec 32) : BitVec 1024 :=
  BitVec.ofNat 1024 ((List.range 32).foldr (fun i acc => (f i).toNat + acc * 2 ^ 32) 0)

/-- The bruise bits whose bit `i` is `f i`. -/
def marksOf (f : Nat → Bool) : BitVec 32 :=
  BitVec.ofNat 32 ((List.range 32).foldr (fun i acc => b2n (f i) + acc * 2) 0)

/-- A vector register given lane by lane. -/
def VReg.ofLanes (f : Nat → BitVec 32) (b : Nat → Bool) : VReg := { bits := lanesOf f, bruise := marksOf b }

/-- Byte `j` of a vector register (R162). -/
def VReg.byte (v : VReg) (j : Nat) : Byte := v.bits.extractLsb' (8 * j) 8

/-- A tally of the core (R246). -/
def CoreState.tally (c : CoreState) (t : BitVec 6) : BitVec 32 := AMap.get 0 c.work.tallies t.toNat

/-! ### Reports (R194, R375, R377) -/

/-- Adds a report. -/
def CoreState.report (c : CoreState) (r : CoreReport) : CoreState :=
  { c with traffic.reports := c.traffic.reports ++ [r] }

/-- Issue stops after fc `fc` (R194, R243). -/
def CoreState.haltAfter (c : CoreState) (fc : Nat) : CoreState :=
  { c with step.haltAt := some (match c.step.haltAt with | some h => min h fc | none => fc) }

/-- A class P fault found in the present fc in work that `o` issued; issue stops after this fc (R194, R243, R244). -/
def CoreState.fault (c : CoreState) (code : Code) (o : Origin) (d0 d1 d2 : Word) : CoreState :=
  (c.report { code := code, fill := o.fill, offset := c.step.offset, site := o.site, slot := o.slot, d0 := d0, d1 := d1, d2 := d2, num := o.num }).haltAfter c.step.offset

/-- A fault at issue of a bundle slot, with the detail words of the first row of R378. -/
def CoreState.issueFault (c : CoreState) (code : Code) (o : Origin) : CoreState :=
  c.fault code o o.word (BitVec.ofNat 64 o.slot) 0

/-- A report that stops nothing in the core: a class H or class I event of R405. -/
def CoreState.note (c : CoreState) (code : Code) (o : Origin) (d0 d1 d2 : Word) : CoreState :=
  c.report { code := code, fill := o.fill, offset := c.step.offset, site := o.site, slot := o.slot, d0 := d0, d1 := d1, d2 := d2, num := o.num }

/-! ### The scratchpad (R220 to R227) -/

/-- The byte at scratchpad address `a`. -/
def CoreState.byte (c : CoreState) (a : Nat) : Byte := AMap.get 0 c.work.mem a

/-- The class of word `k`; `none` is clean (R224). -/
def CoreState.wordClass (c : CoreState) (k : Nat) : Option WordClass := AMap.find c.work.marks k

/-- Sets the class of word `k`. -/
def CoreState.setWordClass (c : CoreState) (k : Nat) (w : Option WordClass) : CoreState :=
  { c with work.marks := match w with | some x => AMap.set c.work.marks k x | none => AMap.erase c.work.marks k }

/-- A word rewritten bruised; its bell image too when nothing has written it since the opening bell (R226, R384). -/
def CoreState.bruiseWord (c : CoreState) (k : Nat) : CoreState :=
  let c := c.setWordClass k (some .bruised)
  if AMap.get false c.step.written k then c
  else { c with image.marks := AMap.set c.image.marks k .bruised }

/-- What finding word `k` uncorrectable does (R226): rewritten bruised, counted, SCRATCH_UE reported with line, word and store 0. -/
def CoreState.foundUe (c : CoreState) (k : Nat) (o : Origin) : CoreState :=
  ((c.bruiseWord k).countUe).note 0x3001 o (BitVec.ofNat 64 k) 0 0

/-- Reading word `k`, whose data a reader takes: the new core and whether the word came bruised (R224 to R226, R229). Of several readers of one uncorrectable word in one fc, the first reports it and the later ones find it bruised (DESIGN CHOICE, log entry 99). -/
def CoreState.touchWord (c : CoreState) (k : Nat) (scalar : Bool) (o : Origin) : CoreState × Bool :=
  match c.wordClass k with
  | none => (c, false)
  | some .correctable => (c.countCe 1, false)
  | some .bruised => (c.countBruised 1 scalar, true)
  | some .uncorrectable => ((c.foundUe k o).countBruised 1 scalar, true)

/-- Reads each listed word once: the new core and the words that came bruised. -/
def CoreState.touchWords (c : CoreState) (ks : List Nat) (scalar : Bool) (o : Origin) : CoreState × List Nat :=
  ks.dedup.foldl (fun (p : CoreState × List Nat) k =>
    let r := p.1.touchWord k scalar o
    (r.1, if r.2 then p.2 ++ [k] else p.2)) (c, [])

/-- Writes one byte of the data array. -/
def CoreState.putByte (c : CoreState) (a : Nat) (v : Byte) : CoreState :=
  { c with work.mem := AMap.put 0 c.work.mem a v }

/-- The class that a write of `full` or part of word `k` leaves, with its counts and reports (R227). -/
def CoreState.writeWordClass (c : CoreState) (k : Nat) (full bruise : Bool) (o : Origin) : CoreState :=
  let mark : Option WordClass := if bruise then some .bruised else none
  if full then c.setWordClass k mark
  else
    match c.wordClass k with
    | none => c.setWordClass k mark
    | some .correctable => (c.countCe 1).setWordClass k mark
    | some .bruised => c
    | some .uncorrectable => c.foundUe k o

/-- The words that a list of byte writes touches. -/
def wordsOf (bs : List WByte) : List Nat := (bs.map (fun b => b.addr / 8)).dedup

/-- One write of bytes in one fc: word classes, then data (R221, R225, R227). The two lanes of a pair are one write, so two that cover a whole word replace it (DESIGN CHOICE, log entry 100). A write that touches the line of a waiting scrub write-back drops it (R228). -/
def CoreState.writeBytes (c : CoreState) (bs : List WByte) (o : Origin) : CoreState :=
  let c := (wordsOf bs).foldl (fun (c : CoreState) k =>
    let mine := bs.filter (fun b => b.addr / 8 == k)
    let full := (mine.map (fun b => b.addr)).dedup.length == 8
    (c.writeWordClass k full (mine.any (fun b => b.bruise)) o)) c
  let c := bs.foldl (fun c b => c.putByte b.addr b.val) c
  { c with
    step.written := (wordsOf bs).foldl (fun m k => AMap.put false m k true) c.step.written
    scrub.touched := c.scrub.touched || (c.scrub.waiting && bs.any (fun b => b.addr / 64 == c.scrub.line)) }

/-! ### CORE.WCHECK (R402) -/

/-- `fold_item` (R402). -/
def foldItem (c : Word) (word : BitVec 18) (mask : Byte) (data : Word) (bruise landing : Bool) : Word :=
  let h : Word := (BitVec.ofBool landing ++ BitVec.ofBool bruise ++ mask ++ word : BitVec 28).setWidth 64
  let x := data ^^^ (h * 0x8F1B5C3DA6E24097)
  let x := x ^^^ (x >>> 31)
  let x := x * 0xD3A52E719C4B06F5
  let x := x ^^^ (x >>> 29)
  c.rotateLeft 7 ^^^ x

/-- An item for CHECK, in place `order` of its fc; every item but a local write, which has place 0, is a landing or a merge. -/
def CoreState.foldCheck (c : CoreState) (word : Nat) (mask : Byte) (data : Word) (bruise : Bool) (order : Nat) : CoreState :=
  { c with totals.folds := c.totals.folds ++ [{ order := order, word := word, mask := mask, data := data, bruise := bruise }] }

/-- The place of a landing by its input port: a transfer to the core itself, north, east, south, west, then deep store (R301). -/
def landingPlace (port : Nat) : Nat := if port = 4 then 1 else if port < 4 then 2 + port else 6

/-- At the end of a fc CHECK folds the items of that fc: local writes first, then landings and merges by input port (R402), a merge before a landing of its port (log entry 121). -/
def CoreState.foldAll (c : CoreState) : CoreState :=
  { c with
    totals.wcheck := (sortBy (fun a b => decide (a.order ≤ b.order)) c.totals.folds).foldl (fun w i => foldItem w (BitVec.ofNat 18 i.word) i.mask i.data i.bruise (i.order != 0)) c.totals.wcheck
    totals.folds := [] }

/-- The words of one write as items, in ascending order, after it has been made (R402). -/
def CoreState.foldWrites (c : CoreState) (bs : List WByte) (order : Nat) : CoreState :=
  (sortBy (fun a b => decide (a ≤ b)) (wordsOf bs)).foldl (fun (c : CoreState) k =>
    let on (i : Nat) : Bool := bs.any (fun b => b.addr == 8 * k + i)
    let mask : Byte := BitVec.ofNat 8 ((List.range 8).foldr (fun i n => b2n (on i) + 2 * n) 0)
    let data : Word := BitVec.ofNat 64 ((List.range 8).foldr (fun i n => (if on i then (c.byte (8 * k + i)).toNat else 0) + 256 * n) 0)
    c.foldCheck k mask data (c.wordClass k == some .bruised) order) c

/-! ### Work in flight -/

/-- Adds an event at fc `fc`. -/
def CoreState.push (c : CoreState) (fc : Nat) (ev : CoreEv) : CoreState :=
  { c with step.events := c.step.events ++ [{ fc := fc, ev := ev }] }

/-- Whether a write of a register already lands in fc `fc` from work of the same stream (R167, R193). -/
def CoreState.clashes (c : CoreState) (cls : RegClass) (r fc : Nat) (fill : Bool) : Bool :=
  c.step.regClaims.any (fun k => k.cls == cls && k.reg == r && k.fc == fc && k.fill == fill)

/-- Claims a register write. -/
def CoreState.claim (c : CoreState) (cls : RegClass) (r fc : Nat) (o : Origin) : CoreState :=
  { c with step.regClaims := c.step.regClaims ++ [{ cls := cls, reg := r, fc := fc, fill := o.fill, slot := o.slot, issued := c.step.offset }] }

/-- Whether a write to register `r` of class `cls` is discarded: S0 and A0 (R197). -/
def hardZero (cls : RegClass) (r : Nat) : Bool := r == 0 && (cls == .s || cls == .a)

/-! ### Streams (R204, R206) -/

/-- Whether FILL_EN partitions the registers (R204). -/
def CoreState.partitioned (c : CoreState) : Bool := c.work.entry.fillEn

/-- Whether a register belongs to the fill stream while FILL_EN is 1 (R204). -/
def fillOwns (cls : RegClass) (r : Nat) : Bool :=
  match cls with
  | .s => 24 ≤ r
  | .a => 12 ≤ r
  | .v => 24 ≤ r
  | .m => 6 ≤ r

/-- Whether a stream may use a register as operand or destination (R204). -/
def CoreState.mayUse (c : CoreState) (fill : Bool) (u : RegClass × Nat) : Bool :=
  !c.partitioned || (u.1 == .s && u.2 == 0) || fillOwns u.1 u.2 == fill

/-- Whether a fill-stream write to the register is still to land (R206). -/
def CoreState.fillPending (c : CoreState) (u : RegClass × Nat) : Bool :=
  c.step.regClaims.any (fun k => k.fill && k.cls == u.1 && k.reg == u.2 && c.step.offset ≤ k.fc)

/-! ### Cores, plots and channels of the module -/

/-- Rows of the grade: 64 on MT2-4096-A, 56 on MT2-3584-A (R3, R4). -/
def Grade.rows : Grade → Nat
  | .mt4096 => 64
  | .mt3584 => 56

/-- Module channels of the grade (R311). -/
def Grade.channels : Grade → Nat
  | .mt4096 => 512
  | .mt3584 => 448

/-- The module row of a core. -/
def rowOf (c : CoreId) : Nat := c.toNat / 64

/-- The module column of a core. -/
def colOf (c : CoreId) : Nat := c.toNat % 64

/-- The core at a module row and column. -/
def coreAt (y x : Nat) : CoreId := BitVec.ofNat 12 (64 * y + x)

/-- The field of a core (R16): two columns of four fields. -/
def fieldOfCore (c : CoreId) : FieldId := BitVec.ofNat 3 (2 * (rowOf c / 16) + colOf c / 32)

/-- Whether the grade has the core. -/
def State.hasCore (s : State) (c : CoreId) : Bool := rowOf c < s.grade.rows

/-- The core, a cleared one where nothing is listed. -/
def State.core (s : State) (c : CoreId) : CoreState := AMap.get {} s.cores c.toNat

/-- Replaces a core. -/
def State.setCore (s : State) (c : CoreId) (v : CoreState) : State := { s with cores := AMap.put {} s.cores c.toNat v }

/-- Changes a core. -/
def State.modCore (s : State) (c : CoreId) (f : CoreState → CoreState) : State := s.setCore c (f (s.core c))

/-- The plot of a function. -/
def State.plot (s : State) (f : Fn) : Plot := AMap.get {} s.plots f.toNat

/-- Replaces a plot. -/
def State.setPlot (s : State) (f : Fn) (p : Plot) : State := { s with plots := AMap.put {} s.plots f.toNat p }

/-- Changes a plot. -/
def State.modPlot (s : State) (f : Fn) (g : Plot → Plot) : State := s.setPlot f (g (s.plot f))

/-- A deep-store channel. -/
def State.channel (s : State) (ch : ChanId) : Channel := AMap.get {} s.channels ch.toNat

/-- Replaces a channel. -/
def State.setChannel (s : State) (ch : ChanId) (v : Channel) : State := { s with channels := AMap.put {} s.channels ch.toNat v }

/-- A field. -/
def State.field (s : State) (f : FieldId) : Field := AMap.get {} s.fields f.toNat

/-- Replaces a field. -/
def State.setField (s : State) (f : FieldId) (v : Field) : State := { s with fields := AMap.put {} s.fields f.toNat v }

/-- An optical port. -/
def State.port (s : State) (p : PortId) : Port := AMap.get {} s.ports p.toNat

/-- Replaces a port. -/
def State.setPort (s : State) (p : PortId) (v : Port) : State := { s with ports := AMap.put {} s.ports p.toNat v }

/-- Changes the hub die. -/
def State.modHub (s : State) (g : Hub → Hub) : State := { s with hub := g s.hub }

/-! ### Hub time and the calendar (R359, R501, R517) -/

/-- The timestamp of R359. -/
def Battery.timestamp (b : Battery) : Word := ((b.seconds.setWidth 64 : Word) <<< 20) ||| b.usec.setWidth 64

/-- Seconds of the calendar's last instant, 2399-12-31T23:59:59 (R501, R503). -/
def lastSecond : Nat := 12622780799

/-- The calendar `n` hc later (R501): 1 µs for each 1,000 hc, stopping at its last instant. -/
def Battery.run (b : Battery) (n : Nat) : Battery :=
  let k := b.sub + n
  let us := b.seconds.toNat * 1000000 + b.usec.toNat + k / 1000
  let stop := lastSecond * 1000000 + 999999
  if b.ended then b
  else if stop ≤ us then { b with seconds := BitVec.ofNat 40 lastSecond, usec := 999999, sub := 0, ended := true }
  else { b with seconds := BitVec.ofNat 40 (us / 1000000), usec := BitVec.ofNat 20 (us % 1000000), sub := k % 1000 }

/-- The calendar `n` ns later on VBAT alone (R501): 1 s for each 10^9 ns, the microseconds standing still, stopping at its last instant (log entry 124). -/
def Battery.runOff (b : Battery) (n : Nat) : Battery :=
  let k := b.sub + n
  let t := b.seconds.toNat + k / 1000000000
  if b.ended then b
  else if lastSecond < t then { b with seconds := BitVec.ofNat 40 lastSecond, usec := 999999, sub := 0, ended := true }
  else { b with seconds := BitVec.ofNat 40 t, sub := k % 1000000000 }

/-- Whether the hub runs: its power is good and no trip holds it (R479, R544, R558). -/
def Pins.hubOn (p : Pins) : Bool := p.pwrOk && !p.powerLatched

/-- System time `dh` hc later (R517): a correction goes in eighths of a hub cycle, one at most in each 1,000 hc. -/
def System.run (y : System) (dh : Nat) : System :=
  let n := (y.slewSub + dh) / 1000
  let k := min n y.slew.natAbs
  let step : Int := if 0 ≤ y.slew then k else -k
  let t : BitVec 64 := (y.stime ++ y.frac) + BitVec.ofNat 64 (8 * dh) + BitVec.ofInt 64 step
  { y with stime := t.extractLsb' 3 61, frac := t.extractLsb' 0 3, slew := y.slew - step, slewSub := if y.slew = 0 then 0 else (y.slewSub + dh) % 1000 }

/-- `dh` hub cycles pass: hub time, system time and the calendar run on. While the hub is without power, `dh` ns pass for the calendar alone (R501, log entry 124). -/
def State.advance (s : State) (dh : Nat) : State :=
  if s.hub.pins.hubOn then
    { s with
      hub := { s.hub with time := s.hub.time + dh, battery := s.hub.battery.run dh }
      system := s.system.run dh }
  else { s with hub := { s.hub with battery := s.hub.battery.runOff dh } }

/-- The timestamp of now. -/
def State.stamp (s : State) : Word := s.hub.battery.timestamp

end Sys2Proof.Machine
end

