-- ==== Sys2Proof/Machine/Operands.lean ====
section
/-! DEFINITION. Operand forms: handles, tensor descriptors, element positions, guards (R205, R230 to R238) and the destination value (R39 to R41). -/

namespace Sys2Proof.Machine

/-- A handle register (R230); the STREAM field is the one that SOWN and the bell leave (R205). -/
structure Handle where
  base : Nat
  extent : Nat
  desc : Nat
  stream : BitVec 2
  valid : Bool
  deriving DecidableEq, Repr

/-- A tensor descriptor (R232): stored sizes and byte strides by dimension. -/
structure Desc where
  fmt : BitVec 4
  rank : Nat
  transpose : Bool
  sh : BitVec 6
  gkind : BitVec 2
  gtally : BitVec 6
  rtally : BitVec 6
  gshift : Nat
  slots : Nat
  size : List Nat
  stride : List Nat
  deriving DecidableEq, Repr

/-- The fields of a handle register word (R230). -/
def Handle.ofWord (w : Word) (stream : BitVec 2) : Handle :=
  { base := fieldOf w 0 15, extent := fieldOf w 16 15, desc := fieldOf w 32 6, stream := stream, valid := bitOf w 40 }

/-- The fields of descriptor words W0 to W3 (R232). -/
def Desc.ofWords (w0 w1 w2 w3 : Word) : Desc :=
  { fmt := w0.extractLsb' 0 4, rank := fieldOf w0 4 3, transpose := bitOf w0 7, sh := w0.extractLsb' 8 6
    gkind := w0.extractLsb' 14 2, gtally := w0.extractLsb' 16 6, rtally := w0.extractLsb' 22 6
    gshift := fieldOf w0 28 4, slots := fieldOf w0 32 16
    size := [fieldOf w0 48 16 + 1, fieldOf w1 0 16 + 1, fieldOf w1 16 16 + 1, fieldOf w1 32 16 + 1, fieldOf w1 48 16 + 1]
    stride := [0, fieldOf w2 0 24, fieldOf w2 24 24, fieldOf w3 0 24, fieldOf w3 24 24] }

/-- Handle `h` of a core. -/
def CoreState.handle (c : CoreState) (h : Nat) : Handle :=
  Handle.ofWord (AMap.get 0 c.tables.handle h) (AMap.get 0 c.work.own h)

/-- Descriptor `d` of a core's tables. -/
def CoreTables.descriptor (t : CoreTables) (d : Nat) : Desc :=
  Desc.ofWords (AMap.get 0 t.desc (4 * d)) (AMap.get 0 t.desc (4 * d + 1)) (AMap.get 0 t.desc (4 * d + 2)) (AMap.get 0 t.desc (4 * d + 3))

/-- The descriptor that handle `h` names. -/
def CoreState.descOf (c : CoreState) (h : Nat) : Desc := c.tables.descriptor (c.handle h).desc

/-- The grain of a guard in bytes (R232). -/
def Desc.grain (d : Desc) : Nat := 64 * 2 ^ d.gshift

/-- Whether the descriptor is a ring. -/
def Desc.isRing (d : Desc) : Bool := d.gkind == 2

/-- Swaps dimensions 0 and 1 when TRANSPOSE is set (R233). -/
def Desc.swap (d : Desc) (l : List Nat) : List Nat :=
  match d.transpose, l with
  | true, a :: b :: r => b :: a :: r
  | _, _ => l

/-- The logical sizes `ls` of R233. -/
def Desc.logical (d : Desc) : List Nat := d.swap d.size

/-- Splits a position into coordinates over the listed sizes; the last listed is unbounded when `ring` (R233). -/
def splitPos (ring : Bool) : List Nat → Nat → Option (List Nat)
  | [], rest => if rest = 0 then some [] else none
  | [n], rest => if ring then some [rest] else if rest < n then some [rest] else none
  | n :: m :: r, rest => (splitPos ring (m :: r) (rest / n)).map (fun cs => rest % n :: cs)

/-- The logical coordinates of position `p`; `none` where R233 faults with HANDLE_BOUNDS. -/
def Desc.coords (d : Desc) (p : Nat) : Option (List Nat) := splitPos d.isRing (d.logical.take d.rank) p

/-- Coordinates advanced by `n` along logical dimension `k`; `none` where the coordinate reaches its size (R233). -/
def Desc.advance (d : Desc) (cs : List Nat) (k n : Nat) : Option (List Nat) :=
  let v := cs.getD k 0 + n
  if k < d.rank && (v < d.logical.getD k 0 || (d.isRing && k + 1 == d.rank)) then some (cs.set k v)
  else if n = 0 then some cs else none

/-- The bit offset of coordinates from the handle's first byte (R233). -/
def Desc.bitOffset (d : Desc) (cs : List Nat) : Nat :=
  let s := d.swap (cs ++ List.replicate (5 - cs.length) 0)
  s.getD 0 0 * fmtWidth d.fmt + 8 * (s.getD 1 0 * d.stride.getD 1 0 + s.getD 2 0 * d.stride.getD 2 0 + s.getD 3 0 * d.stride.getD 3 0 + s.getD 4 0 * d.stride.getD 4 0)

/-- The scratchpad byte of offset `o` of a handle (R233). -/
def physByte (h : Handle) (d : Desc) (o : Nat) : Nat :=
  64 * h.base + (if d.isRing then o % ((d.slots + 1) * d.grain) else o)

/-- The byte offsets that `w` bits from bit offset `b` touch. -/
def bytesOfBits (b w : Nat) : List Nat := (List.range ((b % 8 + w + 7) / 8)).map (fun i => b / 8 + i)

/-- An access check that failed (R244, R378): code, handle, element position, scratchpad byte, tally values. -/
structure Bad where
  code : Code
  handle : Nat
  pos : Nat
  byte : Nat
  d2 : Word
  deriving DecidableEq, Repr

/-- HANDLE_BOUNDS for a position, with no byte to name. -/
def Bad.bounds (h p : Nat) : Bad := { code := 0x2001, handle := h, pos := p, byte := 0, d2 := 0 }

/-- Whether a stream may read or write through a handle's STREAM attribute (R205). -/
def streamAllows (fill write : Bool) (stream : BitVec 2) : Bool :=
  if write then stream == (if fill then 1 else 0) else stream == 2 || stream == (if fill then 1 else 0)

/-- The stream right of an access through handle `h` (R205). -/
def CoreState.mayAccess (c : CoreState) (h : Nat) (fill write : Bool) : Bool := streamAllows fill write (c.handle h).stream

/-- The detail word D2 of a guard fault (R378). -/
def CoreState.guardWord (c : CoreState) (d : Desc) : Word :=
  BitVec.ofNat 64 ((c.tally d.gtally).toNat + (if d.isRing then (c.tally d.rtally).toNat else 0) * 2 ^ 32)

/-- The code that one byte at offset `o` fails with, if any (R233, R236, R237). -/
def CoreState.byteCode (c : CoreState) (h : Handle) (d : Desc) (write : Bool) (o : Nat) : Option Code :=
  let f := (c.tally d.gtally).toNat
  let r := (c.tally d.rtally).toNat
  if d.isRing then
    let n := o / d.grain
    if write then if r ≤ n && n < r + d.slots + 1 then none else some 0x2003
    else if n < r then some 0x2001 else if n ≥ f then some 0x2002 else none
  else if o ≥ 64 * (h.extent + 1) then some 0x2001
  else if d.gkind == 1 && !write && o ≥ f * d.grain then some 0x2002
  else none

/-- The first failure of a handle access over the byte offsets listed, in the order of R244: VALID and bounds, then guards. -/
def CoreState.checkBytes (c : CoreState) (hn : Nat) (write : Bool) (pos : Nat) (offs : List Nat) : Option Bad :=
  let h := c.handle hn
  let d := c.descOf hn
  if !h.valid then some (Bad.bounds hn pos)
  else
    let failing (code : Code) := offs.find? (fun o => c.byteCode h d write o == some code)
    let mk (code : Code) (o : Nat) (d2 : Word) : Bad := { code := code, handle := hn, pos := pos, byte := physByte h d o, d2 := d2 }
    match failing 0x2001 with
    | some o => some (mk 0x2001 o (if d.isRing then c.guardWord d else 0))
    | none =>
      match failing 0x2002 with
      | some o => some (mk 0x2002 o (c.guardWord d))
      | none =>
        match failing 0x2003 with
        | some o => some (mk 0x2003 o (c.guardWord d))
        | none => none

/-- The rank of an access code in the order of R244. -/
def codeRank (code : Code) : Nat :=
  match code.toNat with
  | 0x2007 => 1 | 0x2013 => 2 | 0x200C => 3 | 0x200A => 4 | 0x200D => 5 | 0x2012 => 5 | 0x200F => 6 | 0x2005 => 7
  | 0x200E => 8 | 0x201D => 9 | 0x2017 => 10 | 0x2009 => 11 | 0x2001 => 12 | 0x2002 => 13 | 0x2003 => 14 | 0x2016 => 15
  | 0x2011 => 16 | 0x2015 => 16
  | _ => 17

/-- The failure that R244 reports among several, the first listed among equals. -/
def worst : List Bad → Option Bad
  | [] => none
  | b :: r =>
    match worst r with
    | none => some b
    | some b' => if codeRank b'.code < codeRank b.code then some b' else some b

/-- The class P fault of a failed access check, with the detail words of R378. -/
def CoreState.accessFault (c : CoreState) (b : Bad) (o : Origin) : CoreState :=
  c.fault b.code o (BitVec.ofNat 64 (b.handle % 64 + b.pos % 2 ^ 32 * 2 ^ 32)) (BitVec.ofNat 64 (b.byte % 2 ^ 21)) b.d2

/-- A position formed from an address register and a signed offset (R233). -/
def posAdd (a : BitVec 32) (off : Int) : Option Nat :=
  let p : Int := (a.toNat : Int) + off
  if 0 ≤ p && p ≤ 0xFFFFFFFF then some p.toNat else none

/-- Elements in a tensor that is no ring (R177, R245). -/
def Desc.count (d : Desc) : Nat := (d.logical.take d.rank).foldl (· * ·) 1

/-- The scratchpad lines of a list of scratchpad bytes. -/
def linesOf (bytes : List Nat) : List Nat := (bytes.map (· / 64)).dedup

/-- The byte offset in the handle of a raw access at position `p`: HANDLE_BOUNDS for a position out of range, MISALIGNED for one that begins inside a byte; a handle with VALID 0 faults with HANDLE_BOUNDS whatever its descriptor holds (R231, R233, R240; log entry 101). -/
def CoreState.offsetAt (c : CoreState) (h p : Nat) : Except Bad Nat :=
  if !(c.handle h).valid || p > 0xFFFFFFFF then .error (Bad.bounds h p)
  else
    match (c.descOf h).coords p with
    | none => .error (Bad.bounds h p)
    | some cs =>
      let b := (c.descOf h).bitOffset cs
      if b % 8 != 0 then .error { code := 0x2017, handle := h, pos := p, byte := physByte (c.handle h) (c.descOf h) (b / 8), d2 := 0 }
      else .ok (b / 8)

/-- The byte offset in the handle of a raw access at an address register's position plus an offset (R233, R240). -/
def CoreState.rawOffset (c : CoreState) (h : Nat) (a : BitVec 32) (off : Int) : Except Bad Nat :=
  match posAdd a off with
  | none => .error (Bad.bounds h (((a.toNat : Int) + off) % 2 ^ 32).toNat)
  | some p => c.offsetAt h p

/-- The scratchpad bytes of a raw access of `n` bytes at handle offset `o`, onward in storage (R240). -/
def CoreState.rawBytes (c : CoreState) (h o n : Nat) : List Nat := (List.range n).map (fun i => physByte (c.handle h) (c.descOf h) (o + i))

/-- The bytes of lines `first` to `first + n - 1` onward from a position of a handle, judged as a main-stream raw access; the position begins a line (R240, R243, R292, R317). -/
def CoreState.lineBytes (c : CoreState) (h : BitVec 6) (write : Bool) (pos first n : Nat) : Except Bad (List Nat) :=
  if !c.mayAccess h.toNat false write then .error { code := 0x2013, handle := h.toNat, pos := pos, byte := 0, d2 := 0 }
  else if fmtWidth (c.descOf h.toNat).fmt = 0 then .error { code := 0x200C, handle := h.toNat, pos := pos, byte := 0, d2 := 0 }
  else
    match c.offsetAt h.toNat pos with
    | .error e => .error e
    | .ok b =>
      let at0 := physByte (c.handle h.toNat) (c.descOf h.toNat) b
      if at0 % 64 != 0 then .error { code := 0x2017, handle := h.toNat, pos := pos, byte := at0, d2 := 0 }
      else
        match c.checkBytes h.toNat write pos ((List.range (64 * n)).map (fun i => b + 64 * first + i)) with
        | some bad => .error bad
        | none => .ok (c.rawBytes h.toNat (b + 64 * first) (64 * n))

/-! ### Destinations (R39 to R41) -/

/-- Where a destination value leads: a core of this module, or a core of another module of the plot group. -/
inductive Dest where
  | here (c : CoreId)
  | away (module : BitVec 12) (c : CoreId)
  deriving DecidableEq, Repr

/-- A member of a plot group in another module: the module and the north-west core of its plot (R525, R526). -/
structure FarMember where
  module : BitVec 12
  originY : Nat
  originX : Nat
  deriving DecidableEq, Repr

/-- What judging a destination needs: the sender's plot rectangle, this module, and the members of the group in other modules, whose plots have the same rows and columns (R40, R526). -/
structure DestEnv where
  originY : Nat
  originX : Nat
  rows : Nat
  cols : Nat
  module : BitVec 12
  members : List FarMember
  deriving DecidableEq, Repr

/-- Whether coordinates lie in the plot rectangle with the given north-west core. -/
def DestEnv.inRect (e : DestEnv) (originY originX y x : Nat) : Bool :=
  originY ≤ y && y < originY + e.rows && originX ≤ x && x < originX + e.cols

/-- Whether module coordinates lie in the plot. -/
def DestEnv.inPlot (e : DestEnv) (y x : Nat) : Bool := e.inRect e.originY e.originX y x

/-- The core that a destination value names; `none` where R40 faults with DEST_RANGE. -/
def DestEnv.resolve (e : DestEnv) (v : BitVec 32) : Option Dest :=
  let x := fieldOf v 0 6
  let y := fieldOf v 6 6
  let m : BitVec 12 := v.extractLsb' 12 12
  let scope := fieldOf v 24 2
  if fieldOf v 26 6 != 0 || scope == 3 then none
  else if scope == 0 then if m == 0 && y < e.rows && x < e.cols then some (.here (coreAt (e.originY + y) (e.originX + x))) else none
  else if scope == 1 || m == e.module then if (scope == 2 || m == 0) && e.inPlot y x then some (.here (coreAt y x)) else none
  else if e.members.any (fun k => k.module == m && e.inRect k.originY k.originX y x) then some (.away m (coreAt y x)) else none

end Sys2Proof.Machine
end

