-- ==== Sys2Proof/Machine/Sums.lean ====
section
/-! DEFINITION. Block sums, accumulator entries, contributions, merges, read-out and the anchor-probe (R118 to R121, R137 to R154). -/

namespace Sys2Proof.Machine

/-- The quantum exponent of a format (R137). -/
def quantum (f : BitVec 4) : Int :=
  match f.toNat with
  | 3 => -6 | 4 => -9 | 5 => -16 | 6 => -4 | 7 => -3 | 8 => -1 | 9 => -133 | 10 => -24
  | _ => 0

/-- K positions per pass of a format's width class; 0 for formats that the array does not accept (R103). -/
def kpassOf (f : BitVec 4) : Nat :=
  match f.toNat with
  | 1 => 32 | 9 => 32 | 10 => 32
  | 0 => 64 | 3 => 64 | 4 => 64 | 5 => 64 | 6 => 64 | 7 => 64
  | 8 => 128
  | _ => 0

/-- An array operand element: its code and scale with the marks of the words they lay in. A bruised word bruises without an event; a scale of 0xFF stands above a bruised element word (R86, R100, R101, R225). -/
def operandExact (fmt : BitVec 4) (code : BitVec 16 × Bool) (scale : BitVec 8 × Bool) : Exact :=
  if fmtIsMx fmt && scale.2 then Exact.bruised .none
  else if fmtIsMx fmt && scale.1 == 0xFF then Exact.bruised .bruise
  else if code.2 then Exact.bruised .none
  else decodeElement fmt code.1.toNat scale.1.toNat 0

/-- `block_sum` (R138) over decoded pairs of elements; `lo` is its e_lo. -/
def blockSum (lo : Int) (ps : List (Exact × Exact)) : BlockSum :=
  { sum := ps.foldl (fun b p => b + p.1.n * p.2.n * 2 ^ (p.1.e + p.2.e - lo).toNat) 0
    lo := lo
    bruise := ps.any (fun p => p.1.bruise || p.2.bruise) }

/-- The exponent of an entry's least significant bit (R139). -/
def lsbExponent (anchor : BitVec 10) (narrow : Bool) : Int := anchor.toInt - (if narrow then 24 else 64)

/-- The result of `contribute` (R139). -/
structure Contributed where
  c : Int
  ovf : Bool
  unf : Bool
  deriving DecidableEq, Repr

/-- `contribute` (R139). -/
def contribute (b lo : Int) (anchor : BitVec 10) (narrow : Bool) : Contributed :=
  let l := lsbExponent anchor narrow
  let c := if lo ≥ l then b * 2 ^ (lo - l).toNat else roundShift b (l - lo).toNat 0 0
  let ovf := !narrow && (c > 2 ^ 95 - 1 || c < -(2 ^ 95))
  { c := if ovf then satSInt 96 c else c, ovf := ovf, unf := b != 0 && c == 0 }

/-- The group of an entry and its key in row `row` (R118). -/
def entryGroup (narrow : Bool) (e : Nat) : Nat := if narrow then e / 64 else e / 32

/-- The key of an entry in its group's map (R118). -/
def entryKey (narrow : Bool) (row e : Nat) : Nat := 64 * row + (if narrow then e % 64 else e % 32)

/-- A group of the core. -/
def CoreState.group (c : CoreState) (g : Nat) : AccGroup := AMap.get {} c.work.groups g

/-- Replaces a group. -/
def CoreState.setGroup (c : CoreState) (g : Nat) (v : AccGroup) : CoreState := { c with work.groups := AMap.put {} c.work.groups g v }

/-- An entry of a group. -/
def AccGroup.entry (g : AccGroup) (key : Nat) : AccEntry := AMap.get {} g.entries key

/-- Replaces an entry. -/
def AccGroup.setEntry (g : AccGroup) (key : Nat) (e : AccEntry) : AccGroup := { g with entries := AMap.put {} g.entries key e }

/-- The content of an entry as an integer (R141, R143). -/
def AccEntry.value (e : AccEntry) : Int := e.content.toInt

/-- The entries that share the check bits of entry `e`: a wide entry alone, or the pair of narrow entries (R121). -/
def checkedTogether (narrow : Bool) (e : Nat) : List Nat := if narrow then [e / 2 * 2, e / 2 * 2 + 1] else [e]

/-- Changes the entries of a row that share the check bits of entry `e`. -/
def AccGroup.onChecked (g : AccGroup) (narrow : Bool) (row e : Nat) (f : AccEntry → AccEntry) : AccGroup :=
  (checkedTogether narrow e).foldl (fun (g : AccGroup) x => g.setEntry (entryKey narrow row x) (f (g.entry (entryKey narrow row x)))) g

/-- The damage that the check bits of entry `e` show: the worst of the entries they cover. -/
def AccGroup.damageAt (g : AccGroup) (narrow : Bool) (row e : Nat) : Damage :=
  let ds := (checkedTogether narrow e).map (fun x => (g.entry (entryKey narrow row x)).damage)
  if ds.contains .uncorrectable then .uncorrectable else if ds.contains .correctable then .correctable else .sound

/-- An access to an entry meets its check bits, which a pair of narrow entries shares (R121): a correctable error is corrected and counted; an uncorrectable one bruises what the bits cover and reports SCRATCH_UE with store 1. -/
def CoreState.accessEntry (c : CoreState) (narrow : Bool) (row e : Nat) (o : Origin) : CoreState :=
  let g := entryGroup narrow e
  match (c.group g).damageAt narrow row e with
  | .sound => c
  | .correctable =>
    let c := c.setGroup g ((c.group g).onChecked narrow row e (fun en => { en with damage := .sound }))
    { c with array.accCe := satAdd c.array.accCe 1 }
  | .uncorrectable =>
    let c := c.setGroup g ((c.group g).onChecked narrow row e (fun en => { en with damage := .sound, bruise := true }))
    c.note 0x3001 o (BitVec.ofNat 64 (row * 1024 + (checkedTogether narrow e).headD e)) 0 1

/-- A narrow or wide addition or replacement of a content (R140): the new content and whether it clamped. -/
def addContent (narrow replace : Bool) (s c : Int) : Int × Bool :=
  let t := if replace then c else s + c
  if narrow then (satSInt 48 t, satSInt 48 t != t) else ((BitVec.ofInt 144 t).toInt, false)

/-- The top exponent of a nonzero integer (R152, R154). -/
def topExponent (n : Int) : Int := (bitLength n.natAbs : Int) - 1

/-- One contribution enters an entry (R139, R140, R144, R152, R155, R156). -/
def CoreState.addContribution (c : CoreState) (narrow replace : Bool) (row e : Nat) (b : BlockSum) (o : Origin) : CoreState :=
  let c := c.accessEntry narrow row e o
  let gi := entryGroup narrow e
  let g := c.group gi
  let k := entryKey narrow row e
  let en := g.entry k
  let r := contribute b.sum b.lo g.anchor narrow
  let a := addContent narrow replace en.value r.c
  let top := if b.sum = 0 then g.blockTop else
    let t := topExponent b.sum + b.lo
    some (match g.blockTop with | some x => max x t | none => t)
  let g := { (g.setEntry k { en with content := BitVec.ofInt 144 a.1, bruise := if replace then b.bruise else en.bruise || b.bruise }) with
    blockTop := top, satFlag := g.satFlag || a.2 }
  let ev : Event := if r.ovf || a.2 then .overflow else if r.unf then .underflow else .none
  (((c.setGroup gi g).countEvent ev).markNarrowSat a.2).markContribSat r.ovf

/-- The block contributions of one row of a column, in block order; with OVW the first replaces (R115, R140). -/
def CoreState.addBlocks (c : CoreState) (narrow ovw : Bool) (row e : Nat) (bs : List BlockSum) (o : Origin) : CoreState :=
  match bs with
  | [] => c
  | b :: r => r.foldl (fun c b => c.addContribution narrow false row e b o) (c.addContribution narrow ovw row e b o)

/-! ### Partial blocks (R145) -/

/-- Bits of an entry in the body of a partial block (R145). -/
def entryBits (narrow : Bool) : Nat := if narrow then 48 else 144

/-- The body of a partial block: entry j at bits [w * j + w - 1 : w * j], zero-padded to whole words (R145). -/
def packBody (narrow : Bool) (entries : List (BitVec 144)) : List Word :=
  let w := entryBits narrow
  let n := entries.foldr (fun e acc => e.toNat % 2 ^ w + 2 ^ w * acc) 0
  (List.range (ceilDiv (w * entries.length) 64)).map (fun k => BitVec.ofNat 64 (n / 2 ^ (64 * k)))

/-- The signed value of entry `j` in the body of a partial block (R145). -/
def bodyEntry (narrow : Bool) (body : List Word) (j : Nat) : Int :=
  let w := entryBits narrow
  signedCode w (body.foldr (fun x acc => x.toNat + 2 ^ 64 * acc) 0 / 2 ^ (w * j))

/-- Entries that a partial block carries (R145). -/
def PartialBlock.count (b : PartialBlock) : Nat := fieldOf b.header 11 5 + 1

/-- The words of a partial block, header first (R145). -/
def PartialBlock.words (b : PartialBlock) : List Word := b.header :: b.body

/-- The result of `merge` (R146) into a content: new content, clamped, underflow. -/
def mergeContent (narrow : Bool) (s : Int) (ar : BitVec 10) (v : Int) (as : BitVec 10) : Int × Bool × Bool :=
  if narrow then
    let d := ar.toInt - as.toInt
    let u := if d > 0 then roundShift v d.toNat 0 0 else v * 2 ^ (-d).toNat
    (satSInt 48 (s + u), satSInt 48 (s + u) != s + u, v != 0 && u == 0)
  else ((BitVec.ofInt 144 (s + v)).toInt, false, false)

/-- One carried entry merges into its target (R146, R152, R155). -/
def CoreState.mergeEntry (c : CoreState) (narrow : Bool) (row e : Nat) (v : Int) (as : BitVec 10) (bruise : Bool) (o : Origin) : CoreState :=
  let c := c.accessEntry narrow row e o
  let gi := entryGroup narrow e
  let g := c.group gi
  let k := entryKey narrow row e
  let en := g.entry k
  let r := mergeContent narrow en.value g.anchor v as
  let g := { (g.setEntry k { en with content := BitVec.ofInt 144 r.1, bruise := en.bruise || bruise }) with satFlag := g.satFlag || r.2.1 }
  ((c.setGroup gi g).countEvent (if r.2.1 then .overflow else if r.2.2 then .underflow else .none)).markNarrowSat r.2.1

/-- A lane of `read_out` (R150): content, event, sat96. -/
structure LaneOut where
  lane : BitVec 32
  event : Event
  sat96 : Bool
  deriving DecidableEq, Repr

/-- `read_out` (R150). -/
def readOut (s : Int) (narrow : Bool) (sh : Nat) (mode : BitVec 2) (r : Nat) : LaneOut :=
  let sat96 := !narrow && (s > 2 ^ 95 - 1 || s < -(2 ^ 95))
  let v := if sat96 then satSInt 96 s else s
  let q := roundShift v sh mode r
  let ovf := sat96 || q > 2 ^ 31 - 1 || q < -(2 ^ 31)
  { lane := BitVec.ofInt 32 (satSInt 32 q)
    event := if ovf then .overflow else if s != 0 && q == 0 then .underflow else .none
    sat96 := sat96 }

/-- A signed 12-bit probe field: 0x800 for none (R154). -/
def probeField (t : Option Int) : BitVec 12 :=
  match t with
  | none => 0x800
  | some x => BitVec.ofInt 12 x

/-- SUM_TOP over listed entries (R154). -/
def sumTop (g : AccGroup) : Option Int :=
  let m := g.entries.foldl (fun a e => max a e.2.value.natAbs) 0
  if m = 0 then none else some (topExponent m + lsbExponent g.anchor g.narrow)

/-- The MPROBE result of a group (R154). An entry's top is that of its value in the units of R141 or R143. -/
def probeWord (g : AccGroup) : Word :=
  let out := g.satFlag || (!g.narrow && g.entries.any (fun e => e.2.value > 2 ^ 95 - 1 || e.2.value < -(2 ^ 95)))
  (0#38 ++ BitVec.ofBool (g.entries.any (fun e => e.2.bruise)) ++ BitVec.ofBool out ++ probeField (sumTop g) ++ probeField g.blockTop : BitVec 64)

/-- The group after an MANCHOR (R120, R152). -/
def anchoredGroup (narrow : Bool) (anchor : BitVec 10) : AccGroup := { anchor := anchor, narrow := narrow }

end Sys2Proof.Machine
end

