-- ==== Sys2Proof/Machine/Array.lean ====
section
/-! DEFINITION. The matrix array: segments, loads, streams, MTILE timelines, pending entries, chaff density (R102 to R136). -/

namespace Sys2Proof.Machine

/-! ### Segments (R111, R113, R114, R116) -/

/-- Element `k` of a segment that starts at coordinates `cs` and runs along dimension 0: its bit offset in the handle, `none` out of range. -/
def segmentBit (d : Desc) (cs : List Nat) (k : Nat) : Option Nat := (d.advance cs 0 k).map d.bitOffset

/-- The coordinates of row or column `n` of a tensor from origin `cs` (R111, R114). -/
def rowOrigin (d : Desc) (cs : List Nat) (n : Nat) : Option (List Nat) := d.advance cs 1 n

/-- The bit offsets of the `len` elements of row or column `n` from `cs`; `none` when one is out of range. -/
def segmentBits (d : Desc) (cs : List Nat) (n len : Nat) : Option (List Nat) :=
  match rowOrigin d cs n with
  | none => none
  | some o => (List.range len).mapM (fun k => segmentBit d o k)

/-- Whether coordinates lie in a tensor: each below its logical size, but on the unbounded dimension of a ring (R233). -/
def Desc.holds (d : Desc) (cs : List Nat) : Bool :=
  (List.range (max 5 cs.length)).all (fun k => (k < d.rank && (cs.getD k 0 < d.logical.getD k 0 || (d.isRing && k + 1 == d.rank))) || cs.getD k 0 == 0)

/-- The coordinates of the scale element of block `b` onward from a row's origin (R234). -/
def scaleCoords (o : List Nat) (b : Nat) : List Nat := o.set 0 (o.getD 0 0 / 32 + b)

/-- The scale elements of a segment (R234): their bit offsets in handle SH, `none` out of range. -/
def scaleBits (d sd : Desc) (cs : List Nat) (n len : Nat) : Option (List Nat) :=
  if !fmtIsMx d.fmt then some []
  else
    match rowOrigin d cs n with
    | none => none
    | some o =>
      let ks := (List.range ((len + 31) / 32)).map (scaleCoords o)
      if ks.all sd.holds then some (ks.map sd.bitOffset) else none

/-- The bit offsets of the `len` elements of row or column `n` from `cs`, whatever the tensor's sizes: what R113, R116 and R125 count words over (log entry 22). -/
def segmentBitsAt (d : Desc) (cs : List Nat) (n len : Nat) : List Nat :=
  let o := cs.set 1 (cs.getD 1 0 + n)
  (List.range len).map (fun k => d.bitOffset (o.set 0 (o.getD 0 0 + k)))

/-- As `segmentBitsAt`, for the segment's scale elements. -/
def scaleBitsAt (d sd : Desc) (cs : List Nat) (n len : Nat) : List Nat :=
  if !fmtIsMx d.fmt then []
  else
    let o := cs.set 1 (cs.getD 1 0 + n)
    (List.range ((len + 31) / 32)).map (fun b => sd.bitOffset (scaleCoords o b))

/-- The scratchpad lines that the bits of one element touch. -/
def CoreState.bitLines (c : CoreState) (h : Nat) (w b : Nat) : List Nat :=
  linesOf ((bytesOfBits b w).map (physByte (c.handle h) (c.descOf h)))

/-- The distinct scratchpad lines of a segment, in the order of first touch (R113, R116). -/
def CoreState.segmentLines (c : CoreState) (h : Nat) (w : Nat) (bits : List Nat) : List Nat :=
  (bits.flatMap (c.bitLines h w)).dedup

/-- The line reads of a list of keyed elements: each element is taken with the last of its lines (log entry 21). -/
def CoreState.lineReads (c : CoreState) (h : Nat) (w : Nat) (scale : Bool) (els : List (Nat × Nat)) : List TileRead :=
  (c.segmentLines h w (els.map (·.2))).map (fun l =>
    { scale := scale, els := els.filter (fun e => (c.bitLines h w e.2).getLast? == some l) })

/-- Reads one element: the new core, its code and whether a word of it was bruised. Word classes are counted by the line read. -/
def CoreState.elementCode (c : CoreState) (h : Nat) (w b : Nat) : Nat :=
  let bytes := (bytesOfBits b w).map (physByte (c.handle h) (c.descOf h))
  let v := bytes.foldr (fun a acc => (c.byte a).toNat + 256 * acc) 0
  v / 2 ^ (b % 8) % 2 ^ w

/-- The words that the bits of one element lie in. -/
def CoreState.elementWords (c : CoreState) (h : Nat) (w b : Nat) : List Nat :=
  ((bytesOfBits b w).map (fun o => physByte (c.handle h) (c.descOf h) o / 8)).dedup

/-- Reads listed elements through a handle in one fc: each code with its bruise, words touched once. -/
def CoreState.readElements (c : CoreState) (h w : Nat) (bits : List Nat) (o : Origin) : CoreState × List (Nat × Bool) :=
  let r := c.touchWords (bits.flatMap (c.elementWords h w)) false o
  (r.1, bits.map (fun b => (r.1.elementCode h w b, (c.elementWords h w b).any r.2.contains)))

/-- An access check of elements through a handle (R243). -/
def CoreState.checkElements (c : CoreState) (h w pos : Nat) (write : Bool) (bits : List Nat) : Option Bad :=
  c.checkBytes h write pos (bits.flatMap (fun b => bytesOfBits b w))

/-! ### Pending entries and running operations (R126 to R128) -/

/-- The fc in which the contribution of column `n` of a stream lands (R126). -/
def StreamOp.landFc (op : StreamOp) (n : Nat) : Nat := op.start + 12 + n * op.cost

/-- Whether the entry of a stream's window is pending in fc `f`: in a row that the stream writes, first read begun, contribution not landed (R115, R127). -/
def StreamOp.pendingAt (op : StreamOp) (f row e : Nat) : Bool :=
  row < op.rows && (List.range (f / op.cost + 1)).any (fun n =>
    n < op.count && op.start + 1 + n * op.cost ≤ f && f ≤ op.landFc n && op.base + n % (op.window + 1) == e)

/-- Whether any entry of a stream is pending in fc `f`. -/
def StreamOp.anyPending (op : StreamOp) (f : Nat) : Bool := op.start + 1 ≤ f && f ≤ op.lastLand

/-- Whether the core has an entry pending in fc `f`, from a stream or a partial block (R127, R148). -/
def CoreState.entryPending (c : CoreState) (f : Nat) (narrow : Bool) (row e : Nat) : Bool :=
  c.step.streams.any (fun op => op.narrow == narrow && !op.failed && op.pendingAt f row e) ||
    c.traffic.blocks.any (fun b => (b.2.header.getLsbD 10 == narrow) && b.2.row == row && b.2.entry ≤ e && e < b.2.entry + fieldOf b.2.header 11 5 + 1)

/-- Whether a running MSTREAM or MTILE has an entry range that meets entries `lo` to `hi` (R120, R128). -/
def CoreState.runningRange (c : CoreState) (f : Nat) (narrow : Bool) (lo hi : Nat) : Bool :=
  c.step.streams.any (fun op => op.narrow == narrow && f ≤ op.lastLand && op.base ≤ hi && lo ≤ op.base + op.window) ||
    (c.step.tile.toList ++ c.step.tileOld.toList).any (fun op => op.narrow == narrow && f < op.ready && op.base ≤ hi && lo < op.base + ceilDiv op.m 16 * op.n)

/-- Whether an MTILE runs in fc `f`. -/
def CoreState.tileRuns (c : CoreState) (f : Nat) : Bool :=
  match c.step.tile with
  | some op => f < op.ready
  | none => false

/-- Whether the array streams in fc `f`: an MSTREAM or a pass of an MTILE from its issue until the array is free of it (R126, R134; log entry 80). -/
def CoreState.streaming (c : CoreState) (f : Nat) : Bool := c.step.streams.any (fun op => op.start ≤ f && f < op.start + op.count * op.cost)

/-- Whether an MSTREAM or MTILE runs in fc `f`: from its issue until its last contribution has landed (R128). -/
def CoreState.arrayRuns (c : CoreState) (f : Nat) : Bool :=
  c.step.streams.any (fun op => op.start ≤ f && f ≤ op.lastLand) || (c.step.tile.toList ++ c.step.tileOld.toList).any (fun op => op.issued ≤ f && f < op.ready)

/-- Whether entries `first` to `last` exist and lie in groups of the kind named (R115, R123, R149). -/
def CoreState.rangeOk (c : CoreState) (narrow : Bool) (first last : Nat) : Bool :=
  last < (if narrow then 1024 else 512) &&
    (List.range 16).all (fun g => g < entryGroup narrow first || entryGroup narrow last < g || (c.group g).narrow == narrow)

/-! ### MTILE timeline (R125) -/

/-- `load[i]` and `stream[i]` of R125 for the passes listed so far, newest first; `n` more passes follow pass `i - 1`. -/
def tileTimes (t nCols l c : Nat) : Nat → List (Nat × Nat)
  | 0 => []
  | i + 1 =>
    let prev := tileTimes t nCols l c i
    let load :=
      match prev with
      | [] => t + 1
      | [(l0, _)] => l0 + l
      | (l1, _) :: (_, s2) :: _ => max (l1 + l) (s2 + nCols * c + 4)
    let stream :=
      match prev with
      | [] => load + l
      | (_, s1) :: _ => max (load + l) (s1 + nCols * c)
    (load, stream) :: prev

/-- Passes of a tile: B * P (R124). -/
def tilePasses (m k kpass : Nat) : Nat := ceilDiv m 16 * ceilDiv k kpass

/-- The times of every pass, first pass first. -/
def TileOp.times (op : TileOp) : List (Nat × Nat) := (tileTimes op.issued op.n op.load op.cost (tilePasses op.m op.k op.kpass)).reverse

/-- Rows, K length, row block and K pass of pass `i` (R124). -/
def TileOp.passShape (op : TileOp) (i : Nat) : Nat × Nat × Nat × Nat :=
  let p := ceilDiv op.k op.kpass
  let b := i / p
  let q := i % p
  (min 16 (op.m - 16 * b), min op.kpass (op.k - q * op.kpass), b, q)

/-! ### Loads (R111 to R113) -/

/-- The line reads of a load of `rows` rows of `klen` elements from coordinates `cs`: rows in order, then their scales; `none` when an element is out of range. -/
def CoreState.loadReads (c : CoreState) (xh : Nat) (cs : List Nat) (rows klen : Nat) : Option (List TileRead × List Nat × List Nat) :=
  let d := c.descOf xh
  let sd := c.descOf d.sh.toNat
  let w := fmtWidth d.fmt
  match (List.range rows).mapM (fun r => (segmentBits d cs r klen).map (fun bs => (r, bs))),
        (List.range rows).mapM (fun r => (scaleBits d sd cs r klen).map (fun bs => (r, bs))) with
  | some els, some scs =>
    let reads := els.flatMap (fun p => c.lineReads xh w false (p.2.zipIdx.map (fun q => (128 * p.1 + q.2, q.1))))
    let sels := scs.flatMap (fun p => p.2.zipIdx.map (fun q => (4 * p.1 + q.2, q.1)))
    some (reads ++ c.lineReads d.sh.toNat 8 true sels, els.flatMap (·.2), sels.map (·.2))
  | _, _ => none

/-- The load time of R113 with `rows` rows, counted from the descriptor alone. -/
def CoreState.loadTime (c : CoreState) (xh : Nat) (cs : List Nat) (rows klen : Nat) : Nat :=
  let d := c.descOf xh
  let words := (List.range rows).map (fun r => (c.segmentLines xh (fmtWidth d.fmt) (segmentBitsAt d cs r klen)).length)
  let scales := c.segmentLines d.sh.toNat 8 ((List.range rows).flatMap (fun r => scaleBitsAt d (c.descOf d.sh.toNat) cs r klen))
  ceilDiv (words.sum + scales.length) 2

/-- Whether K index and K length keep to blocks in an MX format (R112, R114, R123). -/
def mxAligned (d : Desc) (cs : List Nat) : Bool := !fmtIsMx d.fmt || cs.getD 0 0 % 32 == 0

/-- The bank named by a bit. -/
def CoreState.bank (c : CoreState) (b : Bool) : Bank := if b then c.work.bank1 else c.work.bank0

/-- Replaces a bank. -/
def CoreState.setBank (c : CoreState) (b : Bool) (v : Bank) : CoreState :=
  if b then { c with work.bank1 := v } else { c with work.bank0 := v }

/-- The fc from which a bank is released (R126), and the fc from which it can be streamed (R113). -/
def CoreState.bankFree (c : CoreState) (b : Bool) : Nat := if b then c.step.bankFree1 else c.step.bankFree0

/-- The fc from which a bank can be streamed (R113). -/
def CoreState.bankReady (c : CoreState) (b : Bool) : Nat := if b then c.step.bankReady1 else c.step.bankReady0

/-- Sets the release fc of a bank. -/
def CoreState.setBankFree (c : CoreState) (b : Bool) (f : Nat) : CoreState :=
  if b then { c with step.bankFree1 := f } else { c with step.bankFree0 := f }

/-- Sets the fc from which a bank can be streamed. -/
def CoreState.setBankReady (c : CoreState) (b : Bool) (f : Nat) : CoreState :=
  if b then { c with step.bankReady1 := f } else { c with step.bankReady0 := f }

/-- One line read of a load enters the bank under way. -/
def CoreState.takeTileRead (c : CoreState) (o : TileLoad) (r : TileRead) : CoreState × TileLoad :=
  let h := if r.scale then (c.descOf o.xh.toNat).sh.toNat else o.xh.toNat
  let w := if r.scale then 8 else fmtWidth o.acc.fmt
  let got := c.readElements h w (r.els.map (·.2)) o.origin
  let acc := (r.els.zip got.2).foldl (fun (b : Bank) p =>
    if r.scale then { b with scales := AMap.put 0 b.scales p.1.1 (BitVec.ofNat 8 p.2.1), scaleBruised := if p.2.2 then b.scaleBruised ++ [p.1.1] else b.scaleBruised }
    else { b with codes := AMap.put 0 b.codes p.1.1 (BitVec.ofNat 16 p.2.1), bruised := if p.2.2 then b.bruised ++ [p.1.1] else b.bruised }) o.acc
  (got.1, { o with acc := acc })

/-- Element `k` of bank row `r` in exact form (R105, R106). -/
def Bank.exact (b : Bank) (r k : Nat) : Exact :=
  let key := 128 * r + k
  let sk := 4 * r + k / 32
  operandExact b.fmt (AMap.get 0 b.codes key, b.bruised.contains key) (AMap.get 0 b.scales sk, b.scaleBruised.contains sk)

/-- The events of the X elements of a finished load, once per element (R155). -/
def Bank.loadEvents (b : Bank) : List Event :=
  (List.range b.rows).flatMap (fun r => (List.range b.klen).map (fun k => (b.exact r k).event))

/-- A load makes its reads of this fc, two at most; the last ones fill the bank (R113). -/
def CoreState.doTileRead (c : CoreState) (o : TileLoad) : CoreState :=
  let step := fun (p : CoreState × TileLoad) (r : TileRead) => p.1.takeTileRead p.2 r
  let p := (o.reads.take 2).foldl step (c, o)
  let rest := o.reads.drop 2
  if rest.isEmpty then (p.1.setBank o.bank { p.2.acc with loaded := true }).countEvents p.2.acc.loadEvents
  else p.1.push (c.step.offset + 1) (.tileRead { p.2 with reads := rest })

/-- The check of a load's accesses, elements through X and scales through SH (R111, R234, R243). -/
def CoreState.checkLoad (c : CoreState) (xh pos : Nat) (r : List TileRead × List Nat × List Nat) : Option Bad :=
  let d := c.descOf xh
  worst ((c.checkElements xh (fmtWidth d.fmt) pos false r.2.1).toList ++
    (if r.2.2.isEmpty then [] else (c.checkElements d.sh.toNat 8 pos false r.2.2).toList))

/-- Starts a load whose first reads fall in fc `first`. -/
def CoreState.startLoad (c : CoreState) (first : Nat) (bank : Bool) (xh : BitVec 6) (fmt : BitVec 4) (rows klen : Nat) (reads : List TileRead) (o : Origin) : CoreState :=
  c.push first (.tileRead { bank := bank, xh := xh, acc := { fmt := fmt, rows := rows, klen := klen }, reads := reads, origin := o })

/-- The bank as an operation that issues in the present fc finds it: a load whose last reads fall in this fc counts as done (R113). -/
def CoreState.loadedBank (c : CoreState) (b : Bool) : Bank :=
  match c.step.events.findSome? (fun e => match e.ev with | .tileRead x => if x.bank == b && e.fc == c.step.offset && x.reads.length ≤ 2 then some x.acc else none | _ => none) with
  | some k => { k with loaded := true }
  | none => c.bank b

/-! ### Streams (R114 to R116) -/

/-- Coordinates of a stream's operand at K position `kskip` past its origin (R124). -/
def CoreState.streamOrigin (c : CoreState) (h : Nat) (pos : BitVec 32) (kskip : Nat) : Option (List Nat) :=
  let d := c.descOf h
  (d.coords pos.toNat).bind (fun cs => d.advance cs 0 kskip)

/-- The element and scale bit offsets of column `n` of a stream. -/
def CoreState.columnBits (c : CoreState) (op : StreamOp) (n : Nat) : Option (List Nat × List Nat) :=
  let d := c.descOf op.handle.toNat
  let klen := op.klen
  match c.streamOrigin op.handle.toNat op.pos op.kskip with
  | none => none
  | some cs =>
    match segmentBits d cs n klen, scaleBits d (c.descOf d.sh.toNat) cs n klen with
    | some a, some b => some (a, b)
    | _, _ => none

/-- The lines of a column's elements. -/
def CoreState.columnLines (c : CoreState) (op : StreamOp) (n : Nat) : List Nat :=
  match c.columnBits op n with
  | some b => c.segmentLines op.handle.toNat (fmtWidth (c.descOf op.handle.toNat).fmt) b.1
  | none => []

/-- The lines of a column's scale codes. -/
def CoreState.columnScaleLines (c : CoreState) (op : StreamOp) (n : Nat) : List Nat :=
  match c.columnBits op n with
  | some b => c.segmentLines (c.descOf op.handle.toNat).sh.toNat 8 b.2
  | none => []

/-- Whether column `n` makes the further read for its scales (R116). -/
def CoreState.readsScale (c : CoreState) (op : StreamOp) (n : Nat) : Bool :=
  !(c.columnScaleLines op n).isEmpty && (n == 0 || c.columnScaleLines op n != c.columnScaleLines op (n - 1))

/-- The column cost of R116, counted from the descriptor and KLEN: the largest number of lines over the columns of the stream (log entry 22). -/
def CoreState.columnCost (c : CoreState) (op : StreamOp) : Nat :=
  let h := op.handle.toNat
  let d := c.descOf h
  match d.coords op.pos.toNat with
  | none => 1
  | some cs =>
    let o := cs.set 0 (cs.getD 0 0 + op.kskip)
    (List.range op.count).foldl (fun m n => max m (c.segmentLines h (fmtWidth d.fmt) (segmentBitsAt d o n op.klen)).length) 1

/-- Line reads that a stream claims in fc `f` (R116, R117). -/
def CoreState.streamReads (c : CoreState) (op : StreamOp) (f : Nat) : Nat :=
  if f < op.start + 1 then 0
  else
    let n := (f - op.start - 1) / op.cost
    let k := (f - op.start - 1) % op.cost
    if n < op.count then b2n (k < (c.columnLines op n).length) + b2n (k == 0 && c.readsScale op n) else 0

/-- The weight elements of a column in exact form, from codes and scales read (R106, R155). -/
def StreamOp.weights (fmt : BitVec 4) (op : StreamOp) : List Exact :=
  op.codes.zipIdx.map (fun p => operandExact fmt p.1 (listGet (0, false) op.scales (p.2 / 32)))

/-- The contribution of a column: the block sums of every bank row (R115, R138). -/
def contributionOf (b : Bank) (fmt : BitVec 4) (op : StreamOp) : Contribution :=
  let ws := op.weights fmt
  let block (r k0 : Nat) : BlockSum :=
    let xw : Int := if fmtIsMx fmt then ((listGet (0, false) op.scales (k0 / 32)).1.toNat : Int) - 127 else 0
    let xx : Int := if fmtIsMx b.fmt then ((AMap.get 0 b.scales (4 * r + k0 / 32)).toNat : Int) - 127 else 0
    blockSum (quantum b.fmt + quantum fmt + xx + xw)
      (((List.range 32).filter (fun i => k0 + i < b.klen)).map (fun i => (b.exact r (k0 + i), listGet (Exact.bruised .none) ws (k0 + i))))
  { op := op.id, entry := op.base + op.column % (op.window + 1), narrow := op.narrow, ovw := op.ovw
    rows := (List.range b.rows).map (fun r => (List.range (ceilDiv b.klen 32)).map (fun j => block r (32 * j))) }

/-- Replaces the running stream with the same number. -/
def CoreState.setStream (c : CoreState) (op : StreamOp) : CoreState :=
  { c with step.streams := c.step.streams.map (fun x => if x.id == op.id then op else x) }

/-- A stream column's check fails: columns before it deliver, it and later ones do not; the passes of its tile that are still to come neither load nor stream, so the operation reports one code (R243, R244). -/
def CoreState.failStream (c : CoreState) (op : StreamOp) (b : Bad) : CoreState :=
  let c := c.setStream { op with failed := true, count := op.column, lastLand := if op.column = 0 then op.start else op.landFc (op.column - 1) }
  let c := { c with
    step.streams := c.step.streams.filter (fun x => !(x.failed && x.landed == x.count))
    step.tile := if op.tile then none else c.step.tile }
  c.accessFault b op.origin

/-- The check of column `n` in the fc of its first read (R114, R234, R243). -/
def CoreState.checkColumn (c : CoreState) (op : StreamOp) (n : Nat) : Option Bad :=
  let h := op.handle.toNat
  let d := c.descOf h
  match c.columnBits op n with
  | none => some (Bad.bounds h op.pos.toNat)
  | some b =>
    worst ((c.checkElements h (fmtWidth d.fmt) op.pos.toNat false b.1).toList ++
      (if b.2.isEmpty then [] else (c.checkElements d.sh.toNat 8 op.pos.toNat false b.2).toList))

/-- Reads whole lines and holds their bytes with the bruise of their words (R116: the scale word of a stream is held). -/
def CoreState.holdLines (c : CoreState) (lines : List Nat) (o : Origin) : CoreState × List (Nat × Byte × Bool) :=
  let r := c.touchWords (lines.flatMap (fun l => (List.range 8).map (fun i => 8 * l + i))) false o
  (r.1, lines.flatMap (fun l => (List.range 64).map (fun i => (64 * l + i, r.1.byte (64 * l + i), r.2.contains ((64 * l + i) / 8)))))

/-- The scratchpad bytes of a column's scale codes. -/
def CoreState.scaleBytes (c : CoreState) (op : StreamOp) (bits : List Nat) : List Nat :=
  let h := (c.descOf op.handle.toNat).sh.toNat
  bits.map (fun b => physByte (c.handle h) (c.descOf h) (b / 8))

/-- Reads line `k` of the stream's present column: codes of the elements whose last line it is. -/
def CoreState.columnRead (c : CoreState) (op : StreamOp) (k : Nat) : CoreState × StreamOp :=
  let h := op.handle.toNat
  let w := fmtWidth (c.descOf h).fmt
  match c.columnBits op op.column with
  | none => (c, op)
  | some b =>
    let s := if k == 0 && c.readsScale op op.column then c.holdLines (c.columnScaleLines op op.column) op.origin else (c, op.held)
    let codes := (c.scaleBytes op b.2).map (fun a => ((s.2.find? (fun e => e.1 == a)).map (·.2)).getD (0, false))
    let line := (c.columnLines op op.column).getD k 0
    let mine := b.1.filter (fun x => (c.bitLines h w x).getLast? == some line)
    let g := s.1.readElements h w mine op.origin
    (g.1, { op with scales := codes, held := s.2, codes := op.codes ++ g.2.map (fun p => (BitVec.ofNat 16 p.1, p.2)) })

/-- Reads lines `k` to `k + n - 1` of the stream's present column. -/
def CoreState.columnReads (c : CoreState) (op : StreamOp) (k : Nat) : Nat → CoreState × StreamOp
  | 0 => (c, op)
  | n + 1 => let r := c.columnRead op k; r.1.columnReads r.2 (k + 1) n

/-- A stream's column read at its fc: the check with the first line, then the line; the last line forms the contribution and schedules the next column (R114 to R116, R126, R155). Lines that R116 reads after the contribution's landing fc are taken with the line of that fc (log entry 22). -/
def CoreState.doColumn (c : CoreState) (id k : Nat) : CoreState :=
  match c.step.streams.find? (fun x => x.id == id) with
  | none => c
  | some op =>
    if op.failed then c
    else
      match (if k = 0 then c.checkColumn op op.column else none) with
      | some b => c.failStream op b
      | none =>
        let lines := (c.columnLines op op.column).length
        let more := k + 1 < lines && c.step.offset < op.landFc op.column
        let r := if more then c.columnRead op k else c.columnReads op k (max 1 (lines - k))
        let op := r.2
        let c := r.1
        if more then (c.setStream op).push (c.step.offset + 1) (.column id (k + 1))
        else
          let fmt := (c.descOf op.handle.toNat).fmt
          let c := c.countEvents ((op.weights fmt).map (·.event))
          let c := c.push (max (op.landFc op.column) c.step.offset) (.contribution (contributionOf (c.bank op.bank) fmt op))
          let n := op.column + 1
          let c := c.setStream { op with column := n, codes := [] }
          if n < op.count then c.push (op.start + 1 + n * op.cost) (.column id 0) else c

/-- A column's contributions land in its entry of every written row (R115, R140). -/
def CoreState.doContribution (c : CoreState) (k : Contribution) : CoreState :=
  let o := ((c.step.streams.find? (fun x => x.id == k.op)).map (·.origin)).getD {}
  let c := k.rows.zipIdx.foldl (fun (c : CoreState) p => c.addBlocks k.narrow k.ovw p.2 k.entry p.1 o) c
  let streams := c.step.streams.map (fun x => if x.id == k.op then { x with landed := x.landed + 1 } else x)
  { c with step.streams := streams.filter (fun x => x.landed < x.count) }

/-- Starts a stream issued in fc `t` (R114, R126): the first read falls in t + 1. -/
def CoreState.startStream (c : CoreState) (op : StreamOp) : CoreState :=
  let op := { op with id := c.step.nextOp, lastLand := op.landFc (op.count - 1) }
  ({ c with step.streams := c.step.streams ++ [op], step.nextOp := c.step.nextOp + 1 } : CoreState).push (op.start + 1) (.column op.id 0)

/-! ### Passes of a tile (R124, R125) -/

/-- The stream of pass `i` of a tile. -/
def TileOp.stream (op : TileOp) (i : Nat) : StreamOp :=
  let s := op.passShape i
  { id := 0, start := (op.times.getD i (0, 0)).2, bank := i % 2 == 1, handle := op.wh, pos := op.aw, kskip := s.2.2.2 * op.kpass, klen := s.2.1, rows := s.1, tile := true, count := op.n
    base := op.base + s.2.2.1 * op.n, window := op.n - 1, narrow := op.narrow, ovw := op.ovw && s.2.2.2 == 0, cost := op.cost, column := 0
    codes := [], scales := [], held := [], landed := 0, lastLand := 0, failed := false, origin := op.origin }

/-- The origin of X for pass `i` of a tile. -/
def CoreState.passOrigin (c : CoreState) (op : TileOp) (i : Nat) : Option (List Nat) :=
  let d := c.descOf op.xh.toNat
  let s := op.passShape i
  ((d.coords op.ax.toNat).bind (fun cs => d.advance cs 1 (16 * s.2.2.1))).bind (fun cs => d.advance cs 0 (s.2.2.2 * op.kpass))

/-- As `passOrigin`, whatever the tensor's sizes: what R125 counts the load time from (log entry 22). -/
def CoreState.passOriginAt (c : CoreState) (op : TileOp) (i : Nat) : Option (List Nat) :=
  let s := op.passShape i
  ((c.descOf op.xh.toNat).coords op.ax.toNat).map (fun cs => (cs.set 1 (cs.getD 1 0 + 16 * s.2.2.1)).set 0 (cs.getD 0 0 + s.2.2.2 * op.kpass))

/-- The load of pass `i` begins: its check, then its reads from the next fc (R124, R125, R243). -/
def CoreState.doPassLoad (c : CoreState) (i : Nat) : CoreState :=
  match c.step.tile with
  | none => c
  | some op =>
    let s := op.passShape i
    let h := op.xh.toNat
    let stop (c : CoreState) (b : Bad) : CoreState := ({ c with step.tile := none } : CoreState).accessFault b op.origin
    match (c.passOrigin op i).bind (fun cs => c.loadReads h cs s.1 s.2.1) with
    | none => stop c (Bad.bounds h op.ax.toNat)
    | some r =>
      match c.checkLoad h op.ax.toNat r with
      | some b => stop c b
      | none => c.startLoad (c.step.offset + 1) (i % 2 == 1) op.xh (c.descOf h).fmt s.1 s.2.1 r.1 op.origin

/-- The stream of pass `i` begins. -/
def CoreState.doPassStream (c : CoreState) (i : Nat) : CoreState :=
  match c.step.tile with
  | none => c
  | some op => ({ c with step.tile := some { op with pass := i + 1 } } : CoreState).startStream (op.stream i)

/-- Line reads that a tile claims in fc `f`: the loads and streams of its passes (R117, R125). -/
def CoreState.tileReads (c : CoreState) (op : TileOp) (f : Nat) : Nat :=
  (op.times.zipIdx.map (fun p =>
    let s := op.passShape p.2
    let n := match (c.passOrigin op p.2).bind (fun cs => c.loadReads op.xh.toNat cs s.1 s.2.1) with
      | some r => r.1.length
      | none => 0
    (if p.1.1 < f then min 2 (n - 2 * (f - p.1.1 - 1)) else 0) + c.streamReads (op.stream p.2) f)).sum

/-- The claims of a tile from issue until the array is free (R222, R223). -/
def CoreState.tilePorts (c : CoreState) (op : TileOp) : List PortClaim :=
  ((List.range (op.free - op.issued)).map (fun j => ({ fc := op.issued + 1 + j, reads := c.tileReads op (op.issued + 1 + j), writes := 0 } : PortClaim))).filter (fun p => p.reads != 0)

/-- The fc from which a tile releases a bank: 4 fc after the last stream through it; `none` for a bank that no pass uses (R124, R126). -/
def TileOp.bankFree (op : TileOp) (b : Bool) : Option Nat :=
  ((op.times.zipIdx.filter (fun p => (p.2 % 2 == 1) == b)).getLast?).map (fun p => p.1.2 + op.n * op.cost + 4)

/-! ### Chaff (R133, R134) -/

/-- The density `d` of R134 in fc `f`, for ramp lengths and floor of PLT.CHAFFCTL: 32 while a stream or tile runs, then from its end as the ramp gives. -/
def CoreState.density (c : CoreState) (down up floor f : Nat) : Nat :=
  if c.arrayRuns f then 32
  else
    match c.step.warm with
    | some (w, dw) => min 32 (dw + 32 * (f - w) / max up 1)
    | none =>
      match c.step.lastMatrixEnd with
      | none => floor
      | some e => if f < e + 64 then 32 else max floor (32 - 32 * (f - e - 64) / max down 1)

end Sys2Proof.Machine
end

