-- ==== Sys2Proof/Machine/Access.lean ====
section
/-! DEFINITION. What loads, stores and VLUT do after issue: line reads, index reads and checks, writes (R176, R177, R225, R240 to R243). -/

namespace Sys2Proof.Machine

/-- A value read from `k` bytes, first byte lowest (R10). -/
def CoreState.readLe (c : CoreState) (bytes : List Nat) : Nat := bytes.foldr (fun a acc => (c.byte a).toNat + 256 * acc) 0

/-- The scratchpad bytes of handle byte offsets (R233). -/
def CoreState.offBytes (c : CoreState) (h : BitVec 6) (offs : List Nat) : List Nat := offs.map (physByte (c.handle h.toNat) (c.descOf h.toNat))

/-- The check that a held fill-stream access makes in the fc of its reads or writes; an access that was not held was judged at issue (R207, R243). -/
def CoreState.heldCheck (c : CoreState) (held : Bool) (h : BitVec 6) (write : Bool) (pos : Nat) (offs : List Nat) : Option Bad :=
  if held then c.checkBytes h.toNat write pos offs else none

/-- A raw read of bytes delivers its register three fc later (R241): lane or register content, bruise by word (R225). -/
def CoreState.doRawRead (c : CoreState) (o : RawLoad) : CoreState :=
  match c.heldCheck o.held o.handle false o.pos o.offs with
  | some b => c.accessFault b o.origin
  | none =>
    let bytes := c.offBytes o.handle o.offs
    let r := c.touchWords (bytes.map (· / 8)) (!o.vec) o.origin
    let c := r.1
    let land := c.step.offset + 3
    if o.vec then
      let lane (i : Nat) := (bytes.drop (4 * i)).take 4
      c.push land (.result (.v o.reg (VReg.ofLanes (fun i => BitVec.ofNat 32 (c.readLe (lane i))) (fun i => (lane i).any (fun a => r.2.contains (a / 8))))) o.origin)
    else c.push land (.result (.s o.reg (BitVec.ofNat 64 (c.readLe bytes))) o.origin)

/-- Extends a `w`-bit element to a lane (R176, R240). -/
def extendLane (sx : Bool) (w v : Nat) : BitVec 32 := if sx then BitVec.ofInt 32 (signedCode w v) else BitVec.ofNat 32 v

/-- Lane `i` of a lane-by-lane read: a bruised index gives a bruised zero and no read (R177, R240). -/
def CoreState.gatherLane (c : CoreState) (o : Gather) (i : Nat) : CoreState × Gather :=
  match listGet none o.lanes i with
  | none => (c, { o with acc := { o.acc with bruise := o.acc.bruise ||| BitVec.ofNat 32 (2 ^ i) } })
  | some a =>
    let bytes := c.offBytes o.handle ((List.range (o.width / 8)).map (fun j => a.2 + j))
    let r := c.touchWords (bytes.map (· / 8)) false o.origin
    let v := extendLane o.signExt o.width (r.1.readLe bytes)
    (r.1, { o with acc := { bits := o.acc.bits ||| BitVec.ofNat 1024 (v.toNat * 2 ^ (32 * i)), bruise := o.acc.bruise ||| BitVec.ofNat 32 (if r.2.isEmpty then 0 else 2 ^ i) } })

/-- The failure of lanes 4j to 4j + 3 that a held access meets (R243, R244). -/
def CoreState.heldLanes (c : CoreState) (o : Gather) (j : Nat) : Option Bad :=
  worst (((o.lanes.drop (4 * j)).take 4).filterMap (fun l =>
    l.bind (fun a => c.heldCheck o.held o.handle false a.1 ((List.range (o.width / 8)).map (fun k => a.2 + k)))))

/-- Lanes 4j to 4j + 3 are read; after lane 31 the register lands four fc later (R176, R241). -/
def CoreState.doGather (c : CoreState) (o : Gather) (j : Nat) : CoreState :=
  match c.heldLanes o j with
  | some b => c.accessFault b o.origin
  | none =>
    let p := [0, 1, 2, 3].foldl (fun (p : CoreState × Gather) i => p.1.gatherLane p.2 (4 * j + i)) (c, o)
    if j + 1 < 8 then p.1.push (c.step.offset + 1) (.gather p.2 (j + 1))
    else p.1.push (c.step.offset + 4) (.result (.v p.2.reg p.2.acc) p.2.origin)

/-- Index lines are read; a bruised index is not judged (R240). The check of the indexed elements follows in the next fc, in the fill stream two fc after the read (R243). -/
def CoreState.doIndexRead (c : CoreState) (o : Indexed) : CoreState :=
  match c.heldCheck o.held o.idxHandle false o.idxPos o.idxOffs with
  | some b => c.accessFault b o.origin
  | none =>
    let bytes := c.offBytes o.idxHandle o.idxOffs
    let r := c.touchWords (bytes.map (· / 8)) false o.origin
    let idx := (List.range 32).map (fun i =>
      let b := (bytes.drop (4 * i)).take 4
      if b.any (fun a => r.2.contains (a / 8)) then none else some (BitVec.ofNat 32 (r.1.readLe b)))
    r.1.push (c.step.offset + (if o.held then 2 else 1)) (.indexCheck { o with idx := idx })

/-- The byte offset in the handle of the element at a position, or the code that R245 gives. -/
def elementAt (d : Desc) (p : Nat) : Except Code Nat :=
  if !d.isRing && p ≥ d.count then .error 0x2009
  else
    match d.coords p with
    | some cs => .ok (d.bitOffset cs / 8)
    | none => .error 0x2001

/-- The failure of one indexed element, if any (R237, R245). Of a held operation the checks that use tallies are left to the accesses (R243). -/
def CoreState.checkIndexed (c : CoreState) (o : Indexed) (p : Nat) : Option Bad :=
  let h := o.handle.toNat
  let d := c.descOf h
  match elementAt d p with
  | .error code => some { code := code, handle := h, pos := p, byte := 0, d2 := 0 }
  | .ok b => (c.checkBytes h (!o.load) p (bytesOfBits (8 * b) (fmtWidth d.fmt))).filter (fun x => !o.held || (x.code == 0x2001 && !d.isRing))

/-- The bytes that lane `i` writes as the element at handle byte offset `b`. -/
def laneBytes (h : Handle) (d : Desc) (v : VReg) (i b : Nat) : List WByte :=
  (List.range (fmtWidth d.fmt / 8)).map (fun j =>
    { addr := physByte h d (b + j), val := (v.lane i).extractLsb' (8 * j) 8, bruise := v.bruise.getLsbD i })

/-- The position and handle byte offset of an index, `none` for a bruised one. -/
def CoreState.indexPlace (c : CoreState) (o : Indexed) (i : Nat) : Option (Nat × Nat) :=
  match listGet none o.idx i with
  | none => none
  | some p =>
    match elementAt (c.descOf o.handle.toNat) p.toNat with
    | .ok b => some (p.toNat, b)
    | .error _ => none

/-- The writes of a lane-by-lane store in pair `j`: lanes 2j then 2j + 1, each byte with its element position and handle byte offset (R241, R242). -/
def CoreState.pairWrites (c : CoreState) (h : BitVec 6) (src : VReg) (places : List (Option (Nat × Nat))) (j : Nat) : List WByte × List (Nat × Nat) :=
  let d := c.descOf h.toNat
  let on := [2 * j, 2 * j + 1].filterMap (fun i => (listGet none places i).map (fun p => (i, p)))
  (on.flatMap (fun p => laneBytes (c.handle h.toNat) d src p.1 p.2.2), on.flatMap (fun p => (List.range (fmtWidth d.fmt / 8)).map (fun k => (p.2.1, p.2.2 + k))))

/-- A lane-by-lane store writes two lanes in each of sixteen fc from `first`: main-stream writes in their fc, fill-stream writes one after another (R207, R241). -/
def CoreState.storePairs (c : CoreState) (first : Nat) (h : BitVec 6) (src : VReg) (places : List (Option (Nat × Nat))) (held : Bool) (o : Origin) : CoreState :=
  let ws := (List.range 16).map (c.pairWrites h src places)
  if o.fill then c.push first (.fillStore { handle := h, writes := ws, held := held, origin := o })
  else ws.zipIdx.foldl (fun (c : CoreState) p => if p.1.1.isEmpty then c else c.push (first + p.2) (.write p.1.1 false o)) c

/-- The indexed elements are judged, then read or written from the next fc; a held operation makes its first access in the fc of its check (R241, R243). -/
def CoreState.doIndexCheck (c : CoreState) (o : Indexed) : CoreState :=
  match worst ((o.idx.filterMap id).filterMap (fun p => c.checkIndexed o p.toNat)) with
  | some b => c.accessFault b o.origin
  | none =>
    let places := (List.range 32).map (c.indexPlace o)
    let first := if o.held then c.step.offset else c.step.offset + 1
    if o.load then
      let g : Gather := { reg := o.reg, handle := o.handle, lanes := places, width := fmtWidth (c.descOf o.handle.toNat).fmt, signExt := o.signExt, acc := {}, held := o.held, origin := o.origin }
      if o.held then c.doGather g 0 else c.push first (.gather g 0)
    else c.storePairs first o.handle o.src places o.held o.origin

/-- A fill-stream store writes what falls in its fc and goes on in the next (R207, R243). -/
def CoreState.doFillStore (c : CoreState) (o : FillStore) : CoreState :=
  match o.writes with
  | [] => c
  | w :: rest =>
    match worst (w.2.filterMap (fun p => c.heldCheck o.held o.handle true p.1 [p.2])) with
    | some b => c.accessFault b o.origin
    | none =>
      let c := c.writeBytes w.1 o.origin
      if rest.isEmpty then c else c.push (c.step.offset + 1) (.fillStore { o with writes := rest })

/-- The register write of a result lands (R166, R196, R241). VPACK's part keeps the other bytes that stand in the register (R175). -/
def CoreState.doResult (c : CoreState) (w : RegWrite) : CoreState :=
  match w with
  | .s r v => c.writeS r v
  | .a r v => c.writeA r v
  | .v r v => c.writeV r v
  | .vpart r v lo len =>
    let old := c.readV r
    let inPart (i : Nat) : Bool := lo ≤ 4 * i && 4 * i < lo + len
    c.writeV r (VReg.ofLanes (fun i => if inPart i then v.lane i else old.lane i) (fun i => if inPart i then v.bruise.getLsbD i else old.bruise.getLsbD i))
  | .vlane r l x =>
    let old := c.readV r
    c.writeV r (VReg.ofLanes (fun i => if i = l then x else old.lane i) (fun i => if i = l then false else old.bruise.getLsbD i))
  | .m r v => c.writeM r v

end Sys2Proof.Machine
end

