-- ==== Sys2Proof/Machine/Engine.lean ====
section
/-! DEFINITION. The field cycle of a core: the work that falls in it, in order, and the passing of time (R166, R192 to R196, R206, R207, R221, R247). -/

namespace Sys2Proof.Machine

/-- What a core takes from the rest of the module: its plot's run and controls, the ports that slot tables and channels claim, what a destination may name, and the free places of its own router's local input of the posted lane (R298). -/
structure Env where
  fn : Fn
  draw : DrawEnv
  nan : Bool
  down : Nat
  up : Nat
  floor : Nat
  coreDependent : Bool
  claims : Nat → Nat × Nat
  dest : DestEnv
  amOn : Bool
  running : Bool
  postedRoom : Nat

/-! ### Ports (R222, R223) -/

/-- Line reads that main-stream work and slot tables claim in fc `f`; a tile has claimed those of its passes at issue. -/
def CoreState.claimedReads (c : CoreState) (env : Env) (f : Nat) : Nat :=
  (env.claims f).1 + ((c.step.ports.filter (fun p => p.fc == f)).map (·.reads)).sum + ((c.step.streams.filter (fun op => !op.tile)).map (fun op => c.streamReads op f)).sum

/-- Line writes that main-stream work and slot tables claim in fc `f`. -/
def CoreState.claimedWrites (c : CoreState) (env : Env) (f : Nat) : Nat :=
  (env.claims f).2 + ((c.step.ports.filter (fun p => p.fc == f)).map (·.writes)).sum

/-- The first fc in which new claims would exceed four reads or two writes (R223). -/
def CoreState.portClash (c : CoreState) (env : Env) (new : List PortClaim) : Option Nat :=
  (new.find? (fun p => c.claimedReads env p.fc + p.reads > 4 && p.reads > 0 || c.claimedWrites env p.fc + p.writes > 2 && p.writes > 0)).map (·.fc)

/-- Records claims. -/
def CoreState.claimPorts (c : CoreState) (new : List PortClaim) : CoreState := { c with step.ports := c.step.ports ++ new }

/-- Records the claims of an operation of either stream; fill work claims none (R207, R223). -/
def CoreState.claimFor (c : CoreState) (fill : Bool) (new : List PortClaim) : CoreState := if fill then c else c.claimPorts new

/-! ### Events by kind -/

/-- The order of events within one fc: reads, index checks, register and group changes, contributions, merges by arrival port (north, east, south, west, own), end-of-fc reads of the accumulators, writes, posted landings by port (drained, own, then north, east, south, west), the scrub's write-back, ring pointers and the mailbox, tallies (R148, R151, R221, R228, R247, R265, R270). -/
def CoreEv.rank : CoreEv → Nat
  | .rawRead _ => 0
  | .gather _ _ => 0
  | .indexRead _ => 0
  | .tileRead _ => 0
  | .passLoad _ => 0
  | .passStream _ => 0
  | .column _ _ => 0
  | .lineRead _ _ _ => 0
  | .sourceRead _ => 0
  | .indexCheck _ => 1
  | .loopInc _ => 2
  | .result _ _ => 3
  | .anchor _ _ _ => 3
  | .contribution _ => 4
  | .merge b => 5 + min b.port 4
  | .accRead _ _ _ _ _ _ _ _ => 10
  | .accProbe _ _ _ _ => 10
  | .partialRead _ _ _ _ _ _ => 10
  | .write _ _ _ => 11
  | .fillStore _ => 11
  | .postedLand _ port _ _ => 12 + min port 5
  | .scrubWrite => 18
  | .ringMove _ _ _ _ => 19
  | .takeMail _ => 19
  | .tally _ _ => 20

/-- The register that a result writes. -/
def RegWrite.target : RegWrite → RegClass × Nat
  | .s r _ => (.s, r.toNat)
  | .a r _ => (.a, r.toNat)
  | .v r _ => (.v, r.toNat)
  | .vpart r _ _ _ => (.v, r.toNat)
  | .vlane r _ _ => (.v, r.toNat)
  | .m r _ => (.m, r.toNat)

/-! ### Posted deliveries (R222, R265) -/

/-- Whether an event is a posted delivery or a granary drain that is to land. -/
def CoreEv.isPosted : CoreEv → Bool
  | .postedLand _ _ _ _ => true
  | _ => false

/-- The posted deliveries due in fc `f`, in the order of R265. -/
def CoreState.postedDue (c : CoreState) (f : Nat) : List Timed :=
  (List.range 6).flatMap (fun k => c.step.events.filter (fun e => e.fc ≤ f && e.ev.isPosted && e.ev.rank == 12 + k))

/-- Posted deliveries land on write ports that no claim fixes; the others wait for the next fc (R222, R265). -/
def CoreState.arrangePosted (c : CoreState) (env : Env) : CoreState :=
  let f := c.step.offset
  let late := (c.postedDue f).drop (2 - c.claimedWrites env f)
  { c with step.events := c.step.events.map (fun e => if late.contains e then { e with fc := f + 1 } else e) }

/-! ### The fill stream's pipeline (R206, R207) -/

/-- Whether an event is fill-stream work in flight. -/
def CoreEv.isFill : CoreEv → Bool
  | .rawRead o => o.origin.fill
  | .gather o _ => o.origin.fill
  | .indexRead o => o.origin.fill
  | .indexCheck o => o.origin.fill
  | .fillStore _ => true
  | .result _ o => o.fill
  | _ => false

/-- The registers that a fill-stream event has still to write (R206). -/
def CoreEv.fillDest : CoreEv → List (RegClass × Nat)
  | .rawRead o => if o.origin.fill then [(if o.vec then .v else .s, o.reg.toNat)] else []
  | .gather o _ => if o.origin.fill then [(.v, o.reg.toNat)] else []
  | .indexRead o => if o.origin.fill && o.load then [(.v, o.reg.toNat)] else []
  | .indexCheck o => if o.origin.fill && o.load then [(.v, o.reg.toNat)] else []
  | .result w o => if o.fill then [w.target] else []
  | _ => []

/-- Whether a fill-stream event still reads the scratchpad, and whether it still writes it. -/
def CoreEv.fillAccess : CoreEv → Bool × Bool
  | .rawRead o => (o.origin.fill, false)
  | .gather o _ => (o.origin.fill, false)
  | .indexRead o => (o.origin.fill, o.origin.fill && !o.load)
  | .indexCheck o => (o.origin.fill && o.load, o.origin.fill && !o.load)
  | .fillStore _ => (false, true)
  | _ => (false, false)

/-- What fill-stream work needs in a fc: line reads, line writes, the table-lookup reads of VLUT, and register write paths, one for each register class and slot (R207; log entry 103). -/
structure FillNeed where
  reads : Nat := 0
  writes : Nat := 0
  lookup : Bool := false
  paths : List (RegClass × Nat) := []
  deriving DecidableEq, Repr

/-- The needs of two pieces of fill-stream work together. -/
def FillNeed.and (a b : FillNeed) : FillNeed :=
  { reads := a.reads + b.reads, writes := a.writes + b.writes, lookup := a.lookup || b.lookup, paths := a.paths ++ b.paths }

/-- The scratchpad lines that handle byte offsets lie in. -/
def CoreState.offLines (c : CoreState) (h : BitVec 6) (offs : List Nat) : List Nat := linesOf (offs.map (physByte (c.handle h.toNat) (c.descOf h.toNat)))

/-- What an event needs of the resources that main-stream work goes first at; an indexed operation that was held makes its first access in the fc of its check (R207, R243). -/
def CoreState.fillNeed (c : CoreState) (ev : CoreEv) : FillNeed :=
  match ev with
  | .rawRead o => { reads := (c.offLines o.handle o.offs).length }
  | .gather o _ => { reads := 4, lookup := o.origin.slot == 2 }
  | .indexRead o => { reads := (c.offLines o.idxHandle o.idxOffs).length }
  | .indexCheck o => if o.held then (if o.load then { reads := 4 } else { writes := 2 }) else {}
  | .fillStore o => { writes := match o.writes with | [] => 0 | w :: _ => (linesOf (w.1.map (·.addr))).length }
  | .result w o => { paths := [(w.target.1, o.slot)] }
  | _ => {}

/-- What main-stream work uses in fc `f`. Posted deliveries count beside it: SELECT shows the main stream when they land, so R208 lets no fill work delay them (DEDUCED, log entry 103). -/
def CoreState.mainUse (c : CoreState) (env : Env) (f : Nat) : FillNeed :=
  let due := (c.step.events.filter (fun e => e.fc == f && !e.ev.isFill)).map (·.ev)
  { reads := c.claimedReads env f, writes := c.claimedWrites env f + (c.postedDue f).length
    lookup := due.any (fun ev => match ev with | .gather o _ => o.origin.slot == 2 | _ => false)
    paths := due.filterMap (fun ev => match ev with | .result w o => some (w.target.1, o.slot) | _ => none) }

/-- Whether work with need `n` runs beside what is in use: four reads, two writes, one lookup, and no write path twice. -/
def FillNeed.fits (n used : FillNeed) : Bool :=
  n.reads + used.reads ≤ 4 && n.writes + used.writes ≤ 2 && !(n.lookup && used.lookup) && !n.paths.any used.paths.contains

/-- The fill-stream events due in fc `f` that run in it together were the ports all free, and those that exceed them; two results of fill work never hold each other. -/
def CoreState.fillShare (c : CoreState) (f : Nat) : List Timed × List Timed :=
  (c.step.events.filter (fun e => e.fc == f && e.ev.isFill)).foldl (fun (p : List Timed × List Timed) e =>
    let taken := p.1.foldl (fun (n : FillNeed) x => n.and (c.fillNeed x.ev)) {}
    if FillNeed.fits { c.fillNeed e.ev with paths := [] } taken then (p.1 ++ [e], p.2) else (p.1, p.2 ++ [e])) ([], [])

/-- What fill-stream work that runs together wants in fc `f`. -/
def CoreState.fillWant (c : CoreState) (f : Nat) : FillNeed := (c.fillShare f).1.foldl (fun (n : FillNeed) e => n.and (c.fillNeed e.ev)) {}

/-- Whether fill-stream work of fc `f`, with `more` beside it, would be held for main-stream work. -/
def CoreState.fillHeld (c : CoreState) (env : Env) (f : Nat) (more : FillNeed) : Bool := !((c.fillWant f).and more).fits (c.mainUse env f)

/-- An access marked as held (R243). -/
def CoreEv.hold : CoreEv → CoreEv
  | .rawRead o => .rawRead { o with held := true }
  | .gather o j => .gather { o with held := true } j
  | .indexRead o => .indexRead { o with held := true }
  | .indexCheck o => .indexCheck { o with held := true }
  | .fillStore o => .fillStore { o with held := true }
  | ev => ev

/-- The fc by which a held access moves: an index check that has not been held yet moves to the fc of its first access, one further (R243). -/
def CoreEv.holdBy : CoreEv → Nat
  | .indexCheck o => if o.held then 1 else 2
  | _ => 1

/-- Fill-stream work that finds its resources taken in fc `f` is held. Where main-stream work takes one, all fill-stream work in flight moves on by one fc, so that its order within the stream stays (R207, R208; log entry 103); what exceeds the ports by itself moves alone. -/
def CoreState.arrangeFill (c : CoreState) (env : Env) : CoreState :=
  let f := c.step.offset
  let late (e : Timed) : Bool := if c.fillHeld env f {} then e.ev.isFill else (c.fillShare f).2.contains e
  { c with step.events := c.step.events.map (fun e => if late e then { fc := e.fc + e.ev.holdBy, ev := e.ev.hold } else e) }

/-- Line reads and writes that fill-stream work makes in the present fc. -/
def CoreState.fillUse (c : CoreState) (env : Env) : Nat × Nat :=
  if c.fillHeld env c.step.offset {} then (0, 0) else ((c.fillWant c.step.offset).reads, (c.fillWant c.step.offset).writes)

/-- Whether a read port of the present fc is left for the patrol scrub (R222). -/
def CoreState.scrubMayRead (c : CoreState) (env : Env) : Bool := c.claimedReads env c.step.offset + (c.fillUse env).1 < 4

/-- Whether a write port of the present fc is left for the patrol scrub (R222). -/
def CoreState.scrubMayWrite (c : CoreState) (env : Env) : Bool := c.claimedWrites env c.step.offset + (c.postedDue c.step.offset).length + (c.fillUse env).2 < 2

/-- A scrub write-back that finds no write port left waits for the next fc (R228). -/
def CoreState.arrangeScrub (c : CoreState) (env : Env) : CoreState :=
  if c.scrubMayWrite env then c
  else { c with step.events := c.step.events.map (fun e => if e.ev == .scrubWrite && e.fc ≤ c.step.offset then { e with fc := c.step.offset + 1 } else e) }

/-! ### Effects of single events -/

/-- Loop increments land: increments of one register sum; a scalar-slot write that would land with one is dropped and reported (R193, R202). -/
def CoreState.doLoopInc (c : CoreState) (incs : List (Nat × Int)) : CoreState :=
  let now := c.step.offset
  let hit (e : Timed) : Bool :=
    match e.fc == now, e.ev with
    | true, .result (.a r _) _ => incs.any (fun i => i.1 == r.toNat)
    | _, _ => false
  let dropped := c.step.events.filter hit
  let c := { c with step.events := c.step.events.filter (fun e => !hit e) }
  let c := incs.foldl (fun (c : CoreState) i =>
    let r : BitVec 4 := BitVec.ofNat 4 i.1
    c.writeA r (BitVec.ofInt 32 (((c.readA r).toNat : Int) + i.2))) c
  dropped.foldl (fun (c : CoreState) e =>
    match e.ev with
    | .result _ o => c.fault 0x2015 o o.word 1 0
    | _ => c) c

/-- MREAD reads its entries at the end of its fc (R149 to R151). -/
def CoreState.doAccRead (c : CoreState) (vd : BitVec 5) (row entry shift : Nat) (mode : BitVec 2) (narrow : Bool) (draw : List Nat) (o : Origin) : CoreState :=
  let c := (List.range 32).foldl (fun (c : CoreState) i => c.accessEntry narrow row (entry + i) o) c
  let en (i : Nat) : AccEntry := (c.group (entryGroup narrow (entry + i))).entry (entryKey narrow row (entry + i))
  let out (i : Nat) : LaneOut := readOut (en i).value narrow shift mode (listGet 0 draw i)
  let c := c.countEvents ((List.range 32).map (fun i => (out i).event))
  let c := c.markSumSat ((List.range 32).any (fun i => (out i).sat96))
  c.push (c.step.offset + 3) (.result (.v vd (VReg.ofLanes (fun i => (out i).lane) (fun i => (en i).bruise))) o)

/-- MPROBE snapshots its group at the end of its fc, every entry met through its check bits (R121, R152 to R154). -/
def CoreState.doAccProbe (c : CoreState) (g : Nat) (sd : BitVec 5) (clear : Bool) (o : Origin) : CoreState :=
  let narrow := (c.group g).narrow
  let base := g * (if narrow then 64 else 32)
  let c := (c.group g).entries.foldl (fun (c : CoreState) e => c.accessEntry narrow (e.1 / 64) (base + e.1 % 64) o) c
  let c1 := c.push (c.step.offset + 17) (.result (.s sd (probeWord (c.group g))) o)
  if clear then c1.setGroup g { c.group g with blockTop := none, satFlag := false } else c1

/-- The header word of R145. -/
def blockHeader (anchor : BitVec 10) (narrow : Bool) (count : Nat) (bruise : BitVec 32) : Word :=
  (bruise ++ 0#16 ++ BitVec.ofNat 5 count ++ BitVec.ofBool narrow ++ anchor : BitVec 64)

/-- Flits of a partial block of `count + 1` entries (R293). -/
def blockFlits (narrow : Bool) (count : Nat) : Nat := ceilDiv (64 + entryBits narrow * (count + 1)) 512

/-- A PARTIAL firing reads its entries at the end of its fc and sends the block (R293). -/
def CoreState.doPartialRead (c : CoreState) (row entry count : Nat) (narrow : Bool) (out : FlitOut) (block : PartialBlock) : CoreState :=
  let o : Origin := { site := out.site }
  let c := (List.range (count + 1)).foldl (fun (c : CoreState) i => c.accessEntry narrow row (entry + i) o) c
  let en (i : Nat) : AccEntry := (c.group (entryGroup narrow (entry + i))).entry (entryKey narrow row (entry + i))
  let anchor := (c.group (entryGroup narrow entry)).anchor
  let b := { block with header := blockHeader anchor narrow count (marksOf (fun i => i ≤ count && (en i).bruise)), body := packBody narrow ((List.range (count + 1)).map (fun i => (en i).content)) }
  let n := blockFlits narrow count
  let flits := (List.range n).map (fun j => { out with ready := c.step.offset + 1 + j, kind := .part j (n - 1) b })
  { c with traffic.outbox := c.traffic.outbox ++ flits }

/-- A LINE firing reads one source line and sends it in the next fc (R292). -/
def CoreState.doLineRead (c : CoreState) (line : Nat) (out : FlitOut) (o : Origin) : CoreState :=
  let r := c.touchWords ((List.range 8).map (fun i => 8 * line + i)) false o
  let data := BitVec.ofNat 512 (r.1.readLe ((List.range 64).map (fun i => 64 * line + i)))
  let bruise := BitVec.ofNat 8 ((List.range 8).foldr (fun i acc => b2n (r.2.contains (8 * line + i)) + 2 * acc) 0)
  let kind : FlitKind :=
    match out.kind with
    | .line h pos j last ten t am _ _ => .line h pos j last ten t am data bruise
    | k => k
  { r.1 with traffic.outbox := r.1.traffic.outbox ++ [{ out with kind := kind }] }

/-- One source line of a WRITE firing: judged in its read fc, then its unit is requested; after the last line the tally rises in the next fc. A failed line ends the firing (R318, R330). -/
def CoreState.doSourceRead (c : CoreState) (l : SourceLine) : CoreState :=
  let key := (l.chan.toNat, l.entry.toNat, l.firing)
  if c.traffic.failedWrites.contains key then c
  else
    match c.lineBytes l.handle false l.pos l.j 1 with
    | .error b => { c.accessFault b { site := l.site, num := l.entry.toNat } with traffic.failedWrites := c.traffic.failedWrites ++ [key] }
    | .ok bytes =>
      let line := bytes.headD 0 / 64
      let r := c.touchWords ((List.range 8).map (fun i => 8 * line + i)) false { site := l.site, num := l.entry.toNat }
      let w : WriteUnit := { chan := l.chan, entry := l.entry, req := c.step.offset, unit := l.unit + l.j, data := BitVec.ofNat 512 (r.1.readLe bytes)
                             bruise := BitVec.ofNat 8 ((List.range 8).foldr (fun i acc => b2n (r.2.contains (8 * line + i)) + 2 * acc) 0)
                             spill := false, core := 0, ring := 0, site := l.site }
      let c := { r.1 with traffic.unitsOut := r.1.traffic.unitsOut ++ [w] }
      if l.j = l.last && l.tallyEn then c.push (c.step.offset + 1) (.tally l.tally l.amount) else c

/-- Whether a received block is refused (R147). -/
def CoreState.refusesBlock (c : CoreState) (coreDependent : Bool) (b : PartialBlock) : Bool :=
  let narrow := bitOf b.header 10
  let as : BitVec 10 := b.header.extractLsb' 0 10
  let groups := (List.range b.count).map (fun i => c.group (entryGroup narrow (b.entry + i)))
  groups.any (fun g => g.narrow != narrow || (!narrow && g.anchor != as)) || fieldOf b.header 16 16 != 0 ||
    (List.range 32).any (fun i => fieldOf b.header 11 5 < i && bitOf b.header (32 + i)) || (narrow && !coreDependent)

/-- A core as CORE of a report names it (R39, R377). -/
def coreWord (c : CoreId) : Word := BitVec.ofNat 64 (2 ^ 24 + c.toNat)

/-- A partial block leaves the blocks that keep their entries pending (R148). -/
def CoreState.dropBlock (c : CoreState) (b : PartialBlock) : CoreState := { c with traffic.blocks := c.traffic.blocks.eraseP (fun x => x.2 == b) }

/-- A partial block merges into its target entries; with TEN its tally rises in the same fc (R146, R148, R293). -/
def CoreState.doMerge (c : CoreState) (env : Env) (b : PartialBlock) : CoreState :=
  let c := c.dropBlock b
  if c.refusesBlock env.coreDependent b then c.fault 0x2010 { site := b.site, num := b.train } b.header (coreWord b.sender) 0
  else
  let narrow := bitOf b.header 10
  let as : BitVec 10 := b.header.extractLsb' 0 10
  let c := (List.range b.count).foldl (fun (c : CoreState) j =>
    let e := b.entry + j
    let c := c.mergeEntry narrow b.row e (bodyEntry narrow b.body j) as (bitOf b.header (32 + j)) { site := b.site, num := b.train }
    let en := (c.group (entryGroup narrow e)).entry (entryKey narrow b.row e)
    c.foldCheck (196608 + 1024 * b.row + e) 0xFF (en.content.setWidth 64) en.bruise (landingPlace b.port)) c
  if b.tallyEn then c.push c.step.offset (.tally b.tally b.amount) else c

/-- A ring register (R263): base line, ENABLE, LOGSIZE, PRIO, NTEN, NTALLY. -/
structure RingReg where
  base : Nat
  enable : Bool
  logsize : Nat
  prio : Nat
  nten : Bool
  ntally : BitVec 6
  deriving DecidableEq, Repr

/-- CORE.RINGr (R263). -/
def CoreState.ring (c : CoreState) (r : BitVec 3) : RingReg :=
  let w := AMap.get 0 c.tables.ring r.toNat
  { base := fieldOf w 0 15, enable := bitOf w 15, logsize := fieldOf w 16 4, prio := fieldOf w 20 3, nten := bitOf w 23, ntally := w.extractLsb' 24 6 }

/-- CORE.RINGPTRr (R264). -/
def CoreState.ringPtr (c : CoreState) (r : BitVec 3) : RingPtr := AMap.get {} c.work.ringPtr r.toNat

/-- Replaces ring pointers. -/
def CoreState.setRingPtr (c : CoreState) (r : BitVec 3) (p : RingPtr) : CoreState := { c with work.ringPtr := AMap.put {} c.work.ringPtr r.toNat p }

/-- Whether a ring is full (R264). -/
def CoreState.ringFull (c : CoreState) (r : BitVec 3) : Bool := (c.ringPtr r).wr - (c.ringPtr r).rd == BitVec.ofNat 16 (2 ^ (c.ring r).logsize)

/-- Whether a ring holds an untaken entry (R264). -/
def CoreState.ringUntaken (c : CoreState) (r : BitVec 3) : Bool := (c.ringPtr r).wr != (c.ringPtr r).tk

/-- A delivery lands: its line, WR, the landing tally, the counts; SPILL falls for a drained entry (R262, R265, R268, R282). -/
def CoreState.doPostedLand (c : CoreState) (r : BitVec 3) (e : RingEntry) (drained : Bool) : CoreState :=
  let g := c.ring r
  let p := c.ringPtr r
  let line := g.base + p.wr.toNat % 2 ^ g.logsize
  let bytes := (List.range 64).map (fun i => ({ addr := 64 * line + i, val := e.line.extractLsb' (8 * i) 8, bruise := e.bruise.getLsbD (i / 8) } : WByte))
  let c := c.writeBytes bytes {}
  let c := c.setRingPtr r { p with wr := p.wr + 1, spill := if drained then p.spill - 1 else p.spill }
  let c := { c with work.sync.landed := satAdd c.work.sync.landed 1 }
  if g.nten then c.push c.step.offset (.tally g.ntally 1) else c

/-- TK or RD advances at the end of its fc; a take by rotation sets the rotation pointer (R250, R266). -/
def CoreState.doRingMove (c : CoreState) (r : BitVec 3) (take rot : Bool) : CoreState :=
  let p := c.ringPtr r
  let c := c.setRingPtr r (if take then { p with tk := p.tk + 1 } else { p with rd := p.rd + 1 })
  if rot then { c with work.rotation := r } else c

/-- The words of a line that the patrol scrub has something to do for (R228). -/
def CoreState.scrubWork (c : CoreState) (line : Nat) : List Nat :=
  ((List.range 8).map (fun i => 8 * line + i)).filter (fun k => c.wordClass k == some .correctable || c.wordClass k == some .uncorrectable)

/-- One word of a scrub write-back (R228, R384): corrected and counted CE, or bruised, counted and noted as the event SCRUB_BRUISE. -/
def CoreState.scrubWord (c : CoreState) (k : Nat) : CoreState :=
  match c.wordClass k with
  | some .correctable => (c.countCe 1).setWordClass k none
  | some .uncorrectable =>
    let c := c.bruiseWord k
    ({ c with scr.scrubBruise := satAdd c.scr.scrubBruise 1 } : CoreState).note 0x0002 {} (BitVec.ofNat 64 k) 0 0
  | _ => c

/-- The scrub's write-back after the reads and writes of its fc, dropped when a write touched the line; then the scrub moves to the next line (R228, R245). -/
def CoreState.doScrubWrite (c : CoreState) : CoreState :=
  let c := if c.scrub.touched then c else (c.scrubWork c.scrub.line).foldl CoreState.scrubWord c
  { c with scrub := { line := (c.scrub.line + 1) % 24576, waiting := false, readFc := 0, touched := false } }

/-- One event takes effect in the present fc; tallies are summed elsewhere. -/
def CoreState.fire (c : CoreState) (env : Env) (ev : CoreEv) : CoreState :=
  match ev with
  | .result w _ => c.doResult w
  | .loopInc incs => c.doLoopInc incs
  | .rawRead o => c.doRawRead o
  | .gather o j => c.doGather o j
  | .indexRead o => c.doIndexRead o
  | .indexCheck o => c.doIndexCheck o
  | .write bs landing o =>
    let c := c.writeBytes bs o
    if landing then c.foldWrites bs (landingPlace o.port) else if o.slot == 5 && !o.fill then c.foldWrites bs 0 else c
  | .tileRead o => c.doTileRead o
  | .passLoad i => c.doPassLoad i
  | .passStream i => c.doPassStream i
  | .column op k => c.doColumn op k
  | .contribution k => c.doContribution k
  | .merge b => c.doMerge env b
  | .anchor g narrow a => c.setGroup g (anchoredGroup narrow a)
  | .accRead vd row entry shift mode narrow draw o => c.doAccRead vd row entry shift mode narrow draw o
  | .accProbe g sd clear o => c.doAccProbe g sd clear o
  | .lineRead line out o => c.doLineRead line out o
  | .partialRead row entry count narrow out block => c.doPartialRead row entry count narrow out block
  | .sourceRead l => c.doSourceRead l
  | .postedLand ring _ e drained => c.doPostedLand ring e drained
  | .ringMove ring take rot _ => c.doRingMove ring take rot
  | .takeMail _ => { c with totals.ctaken := true }
  | .fillStore o => c.doFillStore o
  | .scrubWrite => c.doScrubWrite
  | .tally _ _ => c

/-! ### A field cycle -/

/-- Fires the events of one rank that fall in the present fc. -/
def CoreState.fireRank (env : Env) (c : CoreState) (rank : Nat) : CoreState :=
  let f := c.step.offset
  let due := c.step.events.filter (fun e => e.fc ≤ f && e.ev.rank == rank)
  let c := { c with step.events := c.step.events.filter (fun e => !(e.fc ≤ f && e.ev.rank == rank)) }
  due.foldl (fun c e => c.fire env e.ev) c

/-- The net change of tally `t` among due events. -/
def netChange (es : List Timed) (t : BitVec 6) : Int :=
  es.foldl (fun n e => match e.ev with | .tally t' d => if t' = t then n + d else n | _ => n) 0

/-- One tally takes the sum of its changes at the end of the fc, or keeps its value with TALLY_WRAP (R247, R378). -/
def CoreState.applyTally (c : CoreState) (t : BitVec 6) (net : Int) : CoreState :=
  let old : Int := (c.tally t).toNat
  let v := old + net
  if 0 ≤ v && v < 2 ^ 32 then { c with work.tallies := AMap.put 0 c.work.tallies t.toNat (BitVec.ofInt 32 v) }
  else c.fault 0x2004 { num := t.toNat } (BitVec.ofNat 64 t.toNat) (BitVec.ofInt 64 old) (BitVec.ofInt 64 net)

/-- Every tally change of the present fc (R247). -/
def CoreState.applyTallies (c : CoreState) : CoreState :=
  let f := c.step.offset
  let isT (e : Timed) : Bool := e.fc ≤ f && e.ev.rank == 20
  let due := c.step.events.filter isT
  let c := { c with step.events := c.step.events.filter (fun e => !isT e) }
  (List.range 64).foldl (fun (c : CoreState) i =>
    let t : BitVec 6 := BitVec.ofNat 6 i
    if due.any (fun e => match e.ev with | .tally t' _ => t' == t | _ => false) then c.applyTally t (netChange due t) else c) c

/-- The ring that SELECT takes from (R266): by PRIO, lowest number among equals, or by rotation. -/
def CoreState.selectRing (c : CoreState) (mask : BitVec 8) (rot : Bool) : Option (BitVec 3) :=
  let ok (r : Nat) : Bool := mask.getLsbD r && (c.ring (BitVec.ofNat 3 r)).enable && c.ringUntaken (BitVec.ofNat 3 r)
  if rot then ((List.range 8).map (fun k => (c.work.rotation.toNat + 1 + k) % 8)).find? ok |>.map (BitVec.ofNat 3)
  else
    (((List.range 8).filter ok).foldl (fun (best : Option Nat) r =>
      match best with
      | none => some r
      | some b => if (c.ring (BitVec.ofNat 3 b)).prio < (c.ring (BitVec.ofNat 3 r)).prio then some r else some b) none).map (BitVec.ofNat 3)

/-- Whether the send queue has a free place (R252, R261). -/
def CoreState.sendFree (c : CoreState) : Bool := c.traffic.sendQueue.length < 8

/-- Whether the condition of a sync operation holds at the start of the present fc, as the core sees it (R252). -/
def CoreState.syncReady (c : CoreState) : SyncOp → Bool
  | .wait tally _ thr => (thr.setWidth 32 : BitVec 32).ule (c.tally tally)
  | .waitReg tally _ sa => ((c.readS sa).setWidth 32 : BitVec 32).ule (c.tally tally)
  | .select mask rot _ => (c.selectRing mask (rot == 1)).isSome
  | .post _ _ _ _ => c.sendFree
  | .amsg _ _ _ _ => c.sendFree
  | .cwait k sa => ((c.readS sa).setWidth 32 : BitVec 32).ule (AMap.get 0 c.viewTallies k.toNat)
  | .ctake _ => c.viewMail.isSome
  | _ => true

/-- Whether the wait of the bundle that the main stream holds is satisfied (R192, R252). -/
def CoreState.waitHolds (c : CoreState) : Bool :=
  match decodeSync c.step.main.waitWord with
  | some op => c.syncReady op
  | none => true

/-- Whether no fault in an earlier fc has ended issue (R194). -/
def CoreState.issueOpen (c : CoreState) : Bool := match c.step.haltAt with | some h => c.step.offset ≤ h | none => true

/-- Whether a stream has had its bundle in the present fc. -/
def StreamState.issuedAt (st : StreamState) (f : Nat) : Bool := st.issued && st.curFc == f

/-- Notes a main stream that lets the present fc pass though R192 has it issue: it holds no unsatisfied wait and has not stopped. -/
def CoreState.noteLate (c : CoreState) : CoreState :=
  let st := c.step.main
  if !st.stopped && c.issueOpen && !st.issuedAt c.step.offset && (!st.waiting || c.waitHolds) then { c with step.main := { st with late := true } } else c

/-- Messages that the core has sent and that have not entered the mesh. -/
def CoreState.postedOut (c : CoreState) : Nat :=
  (c.traffic.outbox.filter (fun o => match o.kind with | .posted _ _ => true | .active _ => true | _ => false)).length

/-- The oldest message of the send queue leaves, one in an fc, when its own router's local input has room (R250, R261, R298). -/
def CoreState.sendOne (c : CoreState) (env : Env) : CoreState :=
  match c.traffic.sendQueue with
  | m :: r =>
    if m.ready ≤ c.step.offset && c.postedOut < env.postedRoom then
      { c with traffic.sendQueue := r, traffic.outbox := c.traffic.outbox ++ [{ m with ready := c.step.offset }] }
    else c
  | [] => c

/-- Counts of the present fc: waiting, doze, chaff (R136, R212, R253, R282). -/
def CoreState.countCycle (c : CoreState) (env : Env) : CoreState :=
  let f := c.step.offset
  let wait := if c.step.main.waiting then satAdd c.work.issue.wait 1 else c.work.issue.wait
  let doze := if c.totals.doze then satAdd c.work.sync.doze 1 else c.work.sync.doze
  let chaff := if c.streaming f || c.density env.down env.up env.floor f = 0 then c.array.chaff else satAdd c.array.chaff 1
  let warm := match c.step.warm with
    | some _ => if !c.arrayRuns f && c.density env.down env.up env.floor f = 32 then (none, some f) else (c.step.warm, c.step.lastMatrixEnd)
    | none => (none, c.step.lastMatrixEnd)
  { c with work.issue.wait := wait, work.sync.doze := doze, totals.dozeFc := c.totals.dozeFc + b2n c.totals.doze, array.chaff := chaff, step.warm := warm.1, step.lastMatrixEnd := warm.2 }

/-- One field cycle: the events of the present fc in rank order, CHECK, tallies, the send queue, counts; then the next fc. -/
def CoreState.tick (c : CoreState) (env : Env) : CoreState :=
  let c := (List.range 20).foldl (fun c r => c.fireRank env r) (((c.noteLate.arrangePosted env).arrangeFill env).arrangeScrub env)
  let c := (((c.foldAll).applyTallies).sendOne env).countCycle env
  let f := c.step.offset
  { c with
    step.offset := f + 1
    step.regClaims := c.step.regClaims.filter (fun r => f < r.fc)
    step.ports := c.step.ports.filter (fun p => f < p.fc) }

/-- `n` field cycles. -/
def CoreState.run (env : Env) : Nat → CoreState → CoreState
  | 0, c => c
  | n + 1, c => CoreState.run env n (c.tick env)

/-- Runs the core until its offset is `f`. -/
def CoreState.runTo (env : Env) (f : Nat) (c : CoreState) : CoreState := CoreState.run env (f - c.step.offset) c

/-- The fc of the core's next event that satisfies `p`. -/
def CoreState.nextEvent (c : CoreState) (p : CoreEv → Bool) : Option Nat :=
  (c.step.events.filter (fun e => p e.ev)).foldl (fun m e => some (match m with | some x => min x e.fc | none => e.fc)) none

/-- Runs the core to the end of the fc of its next event that satisfies `p`; with none, nothing happens. -/
def CoreState.runThrough (env : Env) (p : CoreEv → Bool) (c : CoreState) : CoreState :=
  match c.nextEvent p with
  | some f => c.runTo env (f + 1)
  | none => c

end Sys2Proof.Machine
end

