-- ==== Sys2Proof/Machine/Schedule.lean ====
section
/-! DEFINITION. Slot tables, transfer channels and deep-store channel tables (R287, R291, R316), the ports that they claim (R223), and what a core takes from its plot. -/

namespace Sys2Proof.Machine

/-- A slot-table entry (R287). -/
structure Train where
  start : Nat
  period : Nat
  reps : Nat
  kind : Nat
  valid : Bool
  chan : Nat
  lines : Nat
  site : BitVec 10
  port : BitVec 2
  link1 : Bool
  deriving DecidableEq, Repr

/-- The fields of a slot-table entry's two words (R287). -/
def Train.ofWords (w0 w1 : Word) : Train :=
  { start := fieldOf w0 0 24, period := fieldOf w0 24 16, reps := fieldOf w0 40 20, kind := fieldOf w0 60 3, valid := bitOf w0 63
    chan := fieldOf w1 0 6, lines := fieldOf w1 6 4, site := w1.extractLsb' 10 10, port := w1.extractLsb' 20 2, link1 := bitOf w1 22 }

/-- A transfer channel (R291). -/
structure XChan where
  dest : BitVec 32
  sh : BitVec 6
  dh : BitVec 6
  tally : BitVec 6
  ten : Bool
  amount : Nat
  spos : Nat
  dpos : Nat
  sstep : Nat
  dstep : Nat
  count : Nat
  valid : Bool
  narrow : Bool
  deriving DecidableEq, Repr

/-- The fields of a transfer channel's three words (R291). -/
def XChan.ofWords (w0 w1 w2 : Word) : XChan :=
  { dest := w0.extractLsb' 0 32, sh := w0.extractLsb' 32 6, dh := w0.extractLsb' 38 6, tally := w0.extractLsb' 44 6, ten := bitOf w0 50, amount := fieldOf w0 51 13
    spos := fieldOf w1 0 32, dpos := fieldOf w1 32 32, sstep := fieldOf w2 0 24, dstep := fieldOf w2 24 24, count := fieldOf w2 48 5, valid := bitOf w2 53, narrow := bitOf w2 54 }

/-- A deep-store channel entry (R316). -/
structure DsEntry where
  start : Nat
  period : Nat
  reps : Nat
  kind : Nat
  valid : Bool
  x : Nat
  y : Nat
  h : BitVec 6
  lines : Nat
  tally : BitVec 6
  ten : Bool
  amount : Nat
  site : BitVec 10
  breg : Nat
  ben : Bool
  hpos : Nat
  hstep : Nat
  dpos : Nat
  dstep : Int
  deriving DecidableEq, Repr

/-- The fields of a channel entry's four words (R316). -/
def DsEntry.ofWords (w0 w1 w2 w3 : Word) : DsEntry :=
  { start := fieldOf w0 0 24, period := fieldOf w0 24 16, reps := fieldOf w0 40 20, kind := fieldOf w0 60 2, valid := bitOf w0 63
    x := fieldOf w1 0 6, y := fieldOf w1 6 6, h := w1.extractLsb' 12 6, lines := fieldOf w1 18 4, tally := w1.extractLsb' 22 6, ten := bitOf w1 28
    amount := fieldOf w1 29 13, site := w1.extractLsb' 42 10, breg := fieldOf w1 52 4, ben := bitOf w1 56
    hpos := fieldOf w2 0 32, hstep := fieldOf w2 32 32, dpos := fieldOf w3 0 34, dstep := signedFieldOf w3 34 24 }

/-- Train `n` of a core. -/
def CoreTables.train (t : CoreTables) (n : Nat) : Train := Train.ofWords (AMap.get 0 t.slot (2 * n)) (AMap.get 0 t.slot (2 * n + 1))

/-- Transfer channel `n` of a core. -/
def CoreTables.channel (t : CoreTables) (n : Nat) : XChan := XChan.ofWords (AMap.get 0 t.xchan (3 * n)) (AMap.get 0 t.xchan (3 * n + 1)) (AMap.get 0 t.xchan (3 * n + 2))

/-- Entry `n` of a deep-store channel. -/
def Channel.dsEntry (ch : Channel) (n : Nat) : DsEntry :=
  DsEntry.ofWords (AMap.get 0 ch.entry (4 * n)) (AMap.get 0 ch.entry (4 * n + 1)) (AMap.get 0 ch.entry (4 * n + 2)) (AMap.get 0 ch.entry (4 * n + 3))

/-- The firing that a train at START, PERIOD, REPEAT has last begun by offset `f`: its number and its offset (R287, R316). -/
def lastFiring (start period reps f : Nat) : Option (Nat × Nat) :=
  if f < start then none
  else
    let k := if period = 0 then 0 else min reps ((f - start) / period)
    some (k, start + k * period)

/-- Whether a train fires at exactly offset `f`. -/
def firesAt (start period reps f : Nat) : Bool :=
  match lastFiring start period reps f with
  | some (_, g) => g == f
  | none => false

/-- Whether offset `f` lies in a firing of `len` fc. -/
def firingCovers (start period reps len f : Nat) : Bool :=
  match lastFiring start period reps f with
  | some (_, g) => f < g + len
  | none => false

/-- The fc that a firing occupies (R287). -/
def CoreTables.firingLen (t : CoreTables) (tr : Train) : Nat :=
  if tr.kind = 1 then blockFlits (t.channel tr.chan).narrow (t.channel tr.chan).count else if tr.kind = 2 then 1 else tr.lines + 1

/-- The trains of a core that are valid: number and train. -/
def CoreTables.trains (t : CoreTables) : List (Nat × Train) :=
  ((List.range 1024).map (fun n => (n, t.train n))).filter (fun p => p.2.valid)

/-- Scratchpad ports that a core's slot table claims in fc `f`: LINE reads and LAND writes (R222, R288, R292). -/
def CoreTables.claims (t : CoreTables) (f : Nat) : Nat × Nat :=
  let on (k : Nat) : Nat := ((t.trains).filter (fun p => p.2.kind == k && firingCovers p.2.start p.2.period p.2.reps (p.2.lines + 1) f)).length
  (on 0, on 3)

/-- Whether a SIG train of the core fires at offset `f` (R294). -/
def CoreTables.sigTrain (t : CoreTables) (f : Nat) : Option (Nat × Train) :=
  (t.trains).find? (fun p => p.2.kind == 2 && firesAt p.2.start p.2.period p.2.reps f)

/-- Whether the plot-relative core is the entry's core. -/
def DsEntry.isFor (e : DsEntry) (y x : Nat) : Bool := e.y == y && e.x == x

/-- Ports that a channel's entries claim in a core in fc `f`: WRITE source reads and READ landings 512 fc after the request (R317, R318). -/
def Channel.claims (ch : Channel) (y x f : Nat) : Nat × Nat :=
  let es := ((List.range 64).map ch.dsEntry).filter (fun e => e.valid && e.isFor y x)
  ((es.filter (fun e => e.kind == 1 && firingCovers e.start e.period e.reps (e.lines + 1) f)).length,
   (es.filter (fun e => e.kind == 0 && 512 ≤ f && firingCovers e.start e.period e.reps (e.lines + 1) (f - 512))).length)

/-- The feature registers of a core (R214), and the plot-relative position in them. -/
def CoreState.featX (c : CoreState) : BitVec 6 := c.tables.featPos.extractLsb' 0 6

/-- The plot-relative row of a core (R214). -/
def CoreState.featY (c : CoreState) : BitVec 6 := c.tables.featPos.extractLsb' 6 6

/-- GROUP_INDEX of CORE.FEATPLOT (R214). -/
def CoreState.groupIndex (c : CoreState) : BitVec 12 := c.tables.featPlot.extractLsb' 39 12

/-- A member of the plot's group in another module: its plot stands congruent to this one's, modulo 16 rows and 32 columns (R526; log entry 98). -/
def Plot.farMember (p : Plot) (m : BitVec 12) : FarMember :=
  let o := Config.farOrigin p.group.groupId m
  { module := m, originY := 16 * o.1.toNat + p.place.originY.toNat % 16, originX := 32 * o.2.toNat + p.place.originX.toNat % 32 }

/-- What a destination may name, for cores of a plot (R40). -/
def State.destEnv (s : State) (fn : Fn) : DestEnv :=
  let p := s.plot fn
  { originY := p.place.originY.toNat, originX := p.place.originX.toNat, rows := p.place.rows.toNat, cols := p.place.cols.toNat
    module := s.system.module, members := if p.group.joined then (p.group.members.filter (fun m => m != s.system.module)).map p.farMember else [] }

/-- Whether active messages are enabled in a plot: recovery with diagnostic steps running, and the test and start-up states of phases 4 and 6 (R271, R376, R477). -/
def State.amOn (s : State) (p : Plot) : Bool := p.step.phase == .diagnostic || s.hub.boot.phase == 4 || s.hub.boot.phase == 6

/-- Whether the plot's cores and routers run: a step from its release until its bell, its arrival included, so that what is on its way still lands (R49, R303, R329); or a diagnostic step. -/
def Plot.stepping (p : Plot) : Bool := p.step.phase == .running || (p.step.phase == .arrived && !p.step.rung) || p.step.phase == .diagnostic

/-- Free places of a router's local input on the posted lane (R298). -/
def State.postedRoom (s : State) (r : CoreId) : Nat :=
  4 - (s.mesh.flits.filter (fun g => g.2.router == r && g.2.inPort == 4 && g.2.stage == .router && (match g.2.kind with | .posted _ _ => true | .active _ => true | _ => false))).length

/-- Units that a channel's write queue holds; a unit beyond them waits, and its plot is stalled in the field (R326). -/
def writeQueue : Nat := 512

/-- What a core takes from the module. -/
def State.env (s : State) (cid : CoreId) : Env :=
  let c := s.core cid
  let fn := c.owner.getD 0
  let p := s.plot fn
  let y := c.featY.toNat
  let x := c.featX.toNat
  let chans := s.channels.filter (fun ch => ch.2.owner == c.owner && c.owner.isSome)
  let here := fieldOfCore cid
  { fn := fn
    draw := { seed := p.run.seed, plotkey := p.run.plotkey, x := c.featX, y := c.featY, gindex := c.groupIndex, bell := p.bell.bell }
    nan := p.regs.bruiseNan
    down := p.regs.rampDown.toNat
    up := p.regs.rampUp.toNat
    floor := p.regs.chaffFloor.toNat
    coreDependent := p.place.coreDependent
    claims := fun f =>
      chans.foldl (fun (a : Nat × Nat) ch => if ch.1 / 64 = here.toNat then let k := ch.2.claims y x f; (a.1 + k.1, a.2 + k.2) else a) (c.tables.claims f)
    dest := s.destEnv fn
    amOn := s.amOn p
    postedRoom := s.postedRoom cid
    running := c.owner.isSome && p.stepping && p.step.released.getLsbD here.toNat && !p.step.gateStall.getLsbD here.toNat && !chans.any (fun ch => ch.1 / 64 == here.toNat && (ch.2.stalled || writeQueue < ch.2.writes.length)) }

/-- A flit as it enters the mesh at its own router (R286). -/
def flitOf (fn : Fn) (src : CoreId) (o : FlitOut) : Flit :=
  { fn := fn, src := src, dest := o.dest, destModule := o.destModule, router := src, inPort := 4, ready := o.ready, link1 := o.link1, stage := .router
    arrived := o.ready, order := o.order, firing := o.firing, site := o.site, delayed := false, noted := false, kind := o.kind }

/-- A WRITE unit joins its channel's queue in the order of request fc and entry (R322). -/
def Channel.addWrite (ch : Channel) (w : WriteUnit) : Channel :=
  { ch with writes := insertBy (fun a b => a.req < b.req || (a.req == b.req && a.entry.toNat ≤ b.entry.toNat)) w ch.writes }

/-- The flits that a core has sent enter the mesh, numbered in the order sent. -/
def State.drainOutbox (s : State) (cid : CoreId) : State :=
  let c := s.core cid
  let fn := c.owner.getD 0
  let m := c.traffic.outbox.foldl (fun (m : Mesh) o => { m with flits := AMap.set m.flits m.nextFlit (flitOf fn cid o), nextFlit := m.nextFlit + 1 }) s.mesh
  let s := c.traffic.unitsOut.foldl (fun (s : State) (w : WriteUnit) =>
    let ch := s.channel w.chan
    s.setChannel w.chan (ch.addWrite { w with core := cid })) s
  { s with mesh := m }.setCore cid { c with traffic.outbox := [], traffic.unitsOut := [] }

/-- Changes a core through its environment; what it sends enters the mesh. -/
def State.onCore (s : State) (cid : CoreId) (f : Env → CoreState → CoreState) : State :=
  (s.setCore cid (f (s.env cid) (s.core cid))).drainOutbox cid

/-- A command of a core: a fault where the grade has no such core, else the change when the core's step runs. -/
def coreCommand (s : State) (cid : CoreId) (f : Env → CoreState → CoreState) : Host.Outcome State Fault Refusal :=
  if !s.hasCore cid then .fault .noSuchCore
  else if (s.env cid).running then .next (s.onCore cid f)
  else .next s

end Sys2Proof.Machine
end

