-- ==== Sys2Proof/Machine/Bundle.lean ====
section
/-! DEFINITION. Bundles: issue in the main and the fill stream, headers, loop ends and stop bundles (R187 to R211). -/

namespace Sys2Proof.Machine

/-- A core's issue stream. -/
def CoreState.stream (c : CoreState) (fill : Bool) : StreamState := if fill then c.step.fill else c.step.main

/-- Replaces an issue stream. -/
def CoreState.setStreamState (c : CoreState) (fill : Bool) (v : StreamState) : CoreState :=
  if fill then { c with step.fill := v } else { c with step.main := v }

/-- CLASS of a header (R190). -/
def headerClass (h : BitVec 16) : Nat := fieldOf h 12 3

/-- STOP of a header (R190). -/
def headerStop (h : BitVec 16) : Bool := bitOf h 10

/-- Whether a header faults (R191). -/
def headerFaults (h : BitVec 16) (fill syncZero : Bool) : Bool :=
  bitOf h 15 || headerClass h == 7 || (headerStop h && headerClass h != 0) || bitOf h 11 != fill || (bitOf h 11 && !syncZero)

/-- Whether the stream may issue a bundle in the present fc: not stopped, no fault in an earlier fc, no other bundle in this fc, an offset that a step can have. The main stream issues in every fc but those of an unsatisfied wait, so one that let a fc pass issues no more; the fill stream issues only where the main stream does not (R56, R192, R194, R206, R210). -/
def CoreState.mayIssue (c : CoreState) (fill : Bool) : Bool :=
  let t := c.step.offset
  let main := c.step.main
  !(c.stream fill).stopped && c.issueOpen && !(c.stream fill).issuedAt t && t ≤ 0xFFFFFF &&
    (if fill then c.partitioned && (main.stopped || (main.waiting && !c.waitHolds)) else !main.late && (!main.waiting || c.waitHolds))

/-- The origin of a slot operation: stream, SITE of the bundle's header, slot number and bits (R190, R378). -/
def StreamState.origin (st : StreamState) (fill : Bool) (slot : Nat) (word : Word) : Origin :=
  { fill := fill, site := st.header.extractLsb' 0 10, slot := slot, word := word }

/-! ### Loop frames (R197, R202) -/

/-- The loop frames of a stream. -/
def CoreState.frames (c : CoreState) (fill : Bool) : AMap Frame := if fill then c.work.fillFrames else c.work.mainFrames

/-- Replaces a loop frame. -/
def CoreState.setFrame (c : CoreState) (fill : Bool) (k : Nat) (v : Frame) : CoreState :=
  if fill then { c with work.fillFrames := AMap.put {} c.work.fillFrames k v } else { c with work.mainFrames := AMap.put {} c.work.mainFrames k v }

/-- A loop frame. -/
def CoreState.frame (c : CoreState) (fill : Bool) (k : Nat) : Frame := AMap.get {} (c.frames fill) k

/-- The increments of a frame that act: enabled, and not of A0 (R202, R203). -/
def Frame.increments (f : Frame) : List (Nat × Int) :=
  ([f.inc0, f.inc1, f.inc2, f.inc3].filter (fun i => i.en && i.ar != 0)).map (fun i => (i.ar.toNat, i.inc.toInt))

/-- Increments summed by register (R202). -/
def addIncrements (m : List (Nat × Int)) (i : Nat × Int) : List (Nat × Int) :=
  match m with
  | [] => [i]
  | (r, v) :: rest => if r = i.1 then (r, v + i.2) :: rest else (r, v) :: addIncrements rest i

/-- `next_after_loop_end` (R202) over `n` frames: the new frames and depth, the next address, the increments. -/
def loopEnd (fill : Bool) (pc : Nat) : Nat → CoreState → List (Nat × Int) → CoreState × Nat × List (Nat × Int)
  | 0, c, incs => (c, pc + 1, incs)
  | n + 1, c, incs =>
    let st := c.stream fill
    let k := st.depth - 1
    let f := c.frame fill k
    let incs := f.increments.foldl addIncrements incs
    let count := f.count - 1
    let c := c.setFrame fill k { f with count := count }
    if count != 0 then (c, f.start.toNat, incs)
    else loopEnd fill pc n (c.setStreamState fill { st with depth := k }) incs

/-! ### What holds a fill bundle (R206, R208) -/

/-- A scalar register as a use. -/
def sUse (r : BitVec 5) : RegClass × Nat := (.s, r.toNat)

/-- An address register as a use. -/
def aUse (r : BitVec 4) : RegClass × Nat := (.a, r.toNat)

/-- A vector register as a use. -/
def vUse (r : BitVec 5) : RegClass × Nat := (.v, r.toNat)

/-- A mask register as a use. -/
def mUse (r : BitVec 3) : RegClass × Nat := (.m, r.toNat)

/-- The registers that a scalar-slot operation reads or writes (R199, R200). -/
def scalarRegs : ScalarOp → List (RegClass × Nat)
  | .snop => []
  | .sadd d a b _ _ => [sUse d, sUse a, sUse b]
  | .saddi d a _ => [sUse d, sUse a]
  | .smul d a b _ => [sUse d, sUse a, sUse b]
  | .slogic d a b _ => [sUse d, sUse a, sUse b]
  | .sshift d a b _ reg _ _ => [sUse d, sUse a] ++ (if reg = 1 then [sUse b] else [])
  | .sminmax d a b _ _ => [sUse d, sUse a, sUse b]
  | .scmp d a b _ => [sUse d, sUse a, sUse b]
  | .ssel d a b c => [sUse d, sUse a, sUse b, sUse c]
  | .slui d _ => [sUse d]
  | .smovi d _ => [sUse d]
  | .sfeat d _ => [sUse d]
  | .amov ad sa _ => [aUse ad, sUse sa]
  | .aadd ad aa _ => [aUse ad, aUse aa]
  | .aget sd aa => [sUse sd, aUse aa]
  | .lbegin _ creg sa _ => if creg = 1 then [sUse sa] else []
  | .linc _ _ _ _ _ => []
  | .snext _ nreg sa _ => if nreg = 1 then [sUse sa] else []
  | .sown _ _ => []

/-- The registers that a vector-slot operation reads or writes (R165, R167). -/
def vectorRegs : VectorOp → List (RegClass × Nat)
  | .vnop => []
  | .vadd d a b _ _ => [vUse d, vUse a, vUse b]
  | .vmul d a b _ _ _ => [vUse d, vUse a, vUse b]
  | .vmulh d a b _ _ => [vUse d, vUse a, vUse b]
  | .vshift d a b _ lane _ _ => [vUse d, vUse a] ++ (if lane = 1 then [vUse b] else [])
  | .vlogic d a b _ => [vUse d, vUse a, vUse b]
  | .vminmax d a b _ _ => [vUse d, vUse a, vUse b]
  | .vcount d a _ => [vUse d, vUse a]
  | .vcmp md a b _ => [mUse md, vUse a, vUse b]
  | .vsel d a b ms => [vUse d, vUse a, vUse b, mUse ms]
  | .vperm d a b pat _ => [vUse d, vUse a] ++ (if 4 ≤ pat.toNat then [vUse b] else [])
  | .vunpk d a b fmt _ k kreg _ => [vUse d, vUse a] ++ (if fmtIsMx fmt || fmt == 11 then [vUse b] else []) ++ (if kreg = 1 then [sUse (k.setWidth 5)] else [])
  | .vpack d a b fmt _ k kreg _ _ => [vUse d, vUse a] ++ (if fmtIsMx fmt || fmt == 11 then [vUse b] else []) ++ (if kreg = 1 then [sUse (k.setWidth 5)] else [])
  | .vlut d a _ _ => [vUse d, vUse a]
  | .vmovi d _ => [vUse d]
  | .vsplat d ss => [vUse d, sUse ss]
  | .vget sd a _ => [sUse sd, vUse a]
  | .mset md _ => [mUse md]
  | .mlogic md ma mb _ => [mUse md, mUse ma, mUse mb]

/-- The registers that a load-slot operation reads or writes (R239). -/
def loadRegs : LoadOp → List (RegClass × Nat)
  | .lnop => []
  | .ldv d _ ar _ => [vUse d, aUse ar]
  | .lds d _ ar _ => [sUse d, aUse ar]
  | .ldvs d _ ar _ _ _ => [vUse d, aUse ar]
  | .ldvg d _ ar _ _ => [vUse d, aUse ar]

/-- The registers that a store-slot operation reads (R239). -/
def storeRegs : StoreOp → List (RegClass × Nat)
  | .snopst => []
  | .stv vs _ ar _ _ _ => [vUse vs, aUse ar]
  | .sts ss _ ar _ => [sUse ss, aUse ar]
  | .stvs vs _ ar _ _ => [vUse vs, aUse ar]
  | .stvg vs _ ar _ => [vUse vs, aUse ar]

/-- The registers that the slots of a fill bundle read or write. -/
def bundleRegs (h : BundleHead) : List (RegClass × Nat) :=
  ((decodeScalar h.scalar).map scalarRegs).getD [] ++ ((decodeVector h.vector).map vectorRegs).getD [] ++
    ((decodeLoad h.load).map loadRegs).getD [] ++ ((decodeStore h.store).map storeRegs).getD []

/-- Whether a fill bundle waits for earlier fill-stream work: a register that it reads or writes has a write still to land, its VLUT meets one that still looks up, its read or write of the scratchpad comes before an earlier write or access is made, or it stops the stream while work is in flight (R168, R206, R209). That a write also waits, and that scratchpad accesses keep their order, is read from R208 (DEDUCED; log entry 103). -/
def CoreState.fillInterlock (c : CoreState) (h : BundleHead) : Bool :=
  let t := c.step.offset
  let fillWork := (c.step.events.filter (fun e => e.ev.isFill))
  let lut := match decodeVector h.vector with | some (.vlut _ _ _ _) => true | _ => false
  let loads := match decodeLoad h.load with | some op => op != .lnop | none => false
  let stores := match decodeStore h.store with | some op => op != .snopst | none => false
  let st := c.step.fill
  let incs := if headerClass h.header ≤ st.depth then (loopEnd true st.next (headerClass h.header) c []).2.2.map (fun i => (RegClass.a, i.1)) else []
  fillWork.any (fun e => e.ev.fillDest.any (bundleRegs h ++ incs).contains) ||
    (lut && fillWork.any (fun e => match e.ev with | .gather o j => o.origin.slot == 2 && !(j == 7 && e.fc == t) | _ => false)) ||
    ((loads || lut) && fillWork.any (fun e => e.ev.fillAccess.2)) ||
    (stores && fillWork.any (fun e => e.ev.fillAccess.1 || e.ev.fillAccess.2)) ||
    (headerStop h.header && !fillWork.isEmpty)

/-! ### Opening a bundle -/

/-- The slots of a bundle whose opcode is reserved, with their bits: each faults with BAD_BUNDLE (R108, R165, R199, R239, R248). -/
def reservedSlots (h : BundleHead) : List (Nat × Word) :=
  (if 0x12 < fieldOf h.scalar 34 6 then [(1, h.scalar.setWidth 64)] else []) ++ (if 0x12 < fieldOf h.vector 40 8 then [(2, h.vector.setWidth 64)] else []) ++
    (if 6 < fieldOf h.matrix 44 4 then [(3, h.matrix.setWidth 64)] else []) ++ (if 4 < fieldOf h.load 32 4 then [(4, h.load.setWidth 64)] else []) ++
    (if 4 < fieldOf h.store 32 4 then [(5, h.store.setWidth 64)] else []) ++ (if 0xD < fieldOf h.sync 27 5 then [(6, h.sync.setWidth 64)] else [])

/-- What cancels a whole bundle, with the slot and bits that its report names: its address, its header, or a matrix operation in the fill stream (R108, R191, R195, R210). -/
def bundleCancels (h : BundleHead) (fill : Bool) (address : Nat) : Option (Nat × Word) :=
  if address ≥ 8192 || headerFaults h.header fill h.syncZero then some (0, h.header.setWidth 64)
  else if fill && h.matrix != 0 then some (3, h.matrix.setWidth 64)
  else none

/-- Opens the next bundle of a stream in the present fc: the checks that cancel it, the next address, its reserved opcodes, FILL (R191, R192, R194, R195, R212). -/
def CoreState.issueBundle (c : CoreState) (fill : Bool) (h : BundleHead) : CoreState :=
  let st := c.stream fill
  let st := { st with cur := st.next, next := st.next + 1, curFc := c.step.offset, header := h.header, issued := true, cancelled := false, waiting := false, waitObject := none }
  let c := if fill then c else { c with totals.doze := false }
  match bundleCancels h fill st.cur with
  | some k => (c.setStreamState fill { st with cancelled := true }).issueFault 0x2007 (st.origin fill k.1 k.2)
  | none =>
    let c := (reservedSlots h).foldl (fun (c : CoreState) k => c.issueFault 0x2007 (st.origin fill k.1 k.2)) (c.setStreamState fill st)
    if fill then { c with work.issue.fill := satAdd c.work.issue.fill 1 } else c

/-- Presents the next bundle of a stream `dt` fc on. It issues where the stream may issue and nothing holds it; `ready` says that its wait, if it has one, is satisfied (R192, R206, R252). A bundle that is cancelled whole is never held: no operation of it waits (R191, R195, R252). -/
def CoreState.openBundle (c : CoreState) (env : Env) (fill : Bool) (h : BundleHead) (ready : CoreState → Bool) : CoreState :=
  let c := c.runTo env (c.step.offset + h.dt)
  let held := (bundleCancels h fill (c.stream fill).next).isNone && (!ready c || (fill && c.fillInterlock h))
  if !c.mayIssue fill || held then c.setStreamState fill { c.stream fill with cancelled := true }
  else c.issueBundle fill h

/-- Whether a bundle's sync slot holds no wait that is unsatisfied (R252). -/
def CoreState.waitMet (c : CoreState) (h : BundleHead) : Bool :=
  match decodeSync h.sync with
  | some op => c.syncReady op
  | none => true

/-- Whether the stream's present bundle is the one that issues in this fc. -/
def CoreState.bundleLive (c : CoreState) (fill : Bool) : Bool :=
  let st := c.stream fill
  st.issued && st.curFc == c.step.offset && !st.cancelled

/-- The core with the bundle of a command presented, where the command comes first of its bundle. -/
def CoreState.presented (c : CoreState) (env : Env) (i : Issue) : CoreState :=
  match i.head with
  | some h => c.openBundle env i.fill h (fun c => c.waitMet h)
  | none => c

/-- A slot operation of a bundle: opens the bundle when it comes first, then acts if the bundle issues. -/
def CoreState.inBundle (c : CoreState) (env : Env) (i : Issue) (slot : Nat) (word : Word) (act : Origin → CoreState → CoreState) : CoreState :=
  let c := c.presented env i
  if c.bundleLive i.fill then act ((c.stream i.fill).origin i.fill slot word) c else c

/-- A slot command (R187): `act` is the operation's effect in its issue fc. -/
def slotCommand (s : State) (i : Issue) (slot : Nat) (word : Word) (act : Env → Origin → CoreState → CoreState) : Host.Outcome State Fault Refusal :=
  coreCommand s i.core (fun env c => c.inBundle env i slot word (act env))

/-! ### Register operands and results of a slot operation (R193, R204, R206) -/

/-- The registers of an operation are the stream's own, else STREAM_ACCESS (R204). -/
def CoreState.withRegs (c : CoreState) (o : Origin) (reads writes : List (RegClass × Nat)) (act : CoreState → CoreState) : CoreState :=
  if (reads ++ writes).all (c.mayUse o.fill) then act c else c.issueFault 0x2013 o

/-- The clash code of a register class (R167, R193). -/
def clashCode (cls : RegClass) : Code :=
  match cls with
  | .s => 0x2015
  | .a => 0x2015
  | .v => 0x2011
  | .m => 0x2011

/-- The claim of the same bundle and a higher slot that a write meets; the higher slot's operation gives way (R167, R193). -/
def CoreState.laterClaim (c : CoreState) (o : Origin) (cls : RegClass) (r fc : Nat) : Option RegClaim :=
  c.step.regClaims.find? (fun k => k.cls == cls && k.reg == r && k.fc == fc && !k.fill && k.issued == c.step.offset && o.slot < k.slot)

/-- What an operation of the present bundle has still to do in its slot's name: its result, and for SELECT and CTAKE the ring move and the mailbox word. -/
def CoreEv.ownedBy (ev : CoreEv) (slot : Nat) : Option Origin :=
  match ev with
  | .result _ o => if o.slot == slot then some o else none
  | .ringMove _ true _ o => if o.slot == slot then some o else none
  | .takeMail o => if o.slot == slot then some o else none
  | _ => none

/-- The operation of a higher slot of the same bundle gives way: it has no effect and reports the clash (R167, R193, R194). Only SELECT and CTAKE, which come first of their bundle's commands, act before a lower slot. -/
def CoreState.giveWay (c : CoreState) (o : Origin) (w : RegClass × Nat) (fc : Nat) : CoreState :=
  match c.laterClaim o w.1 w.2 fc with
  | none => c
  | some k =>
    let mine (e : Timed) : Option Origin := if e.fc == fc || e.fc == c.step.offset then e.ev.ownedBy k.slot else none
    let owner := (c.step.events.filterMap mine).head?
    let c := { c with step.events := c.step.events.filter (fun e => (mine e).isNone), step.regClaims := c.step.regClaims.erase k }
    match owner with
    | some org => c.issueFault (clashCode w.1) org
    | none => c

/-- Claims the register writes of an operation, or faults with the clash of the first register that is taken (R167, R193). -/
def CoreState.withClaims (c : CoreState) (o : Origin) (ws : List (RegClass × Nat)) (fc : Nat) (act : CoreState → CoreState) : CoreState :=
  let ws := ws.filter (fun w => !hardZero w.1 w.2)
  match (if o.fill then none else ws.find? (fun w => c.clashes w.1 w.2 fc false && (c.laterClaim o w.1 w.2 fc).isNone)) with
  | some w => c.issueFault (clashCode w.1) o
  | none => act (ws.foldl (fun c w => (c.giveWay o w fc).claim w.1 w.2 fc o) c)

/-- The result of an operation: written in fc `fc`. -/
def CoreState.result (c : CoreState) (fc : Nat) (w : RegWrite) (o : Origin) : CoreState := c.push fc (.result w o)

/-! ### Loops and the stop bundle -/

/-- The loop end of a bundle with CLASS from 1 to 6 (R202, R203). -/
def CoreState.closeLoops (c : CoreState) (o : Origin) : CoreState :=
  let st := c.stream o.fill
  let n := headerClass st.header
  if n = 0 then c
  else if st.depth < n then c.issueFault 0x2014 o
  else
    let r := loopEnd o.fill st.cur n c []
    let c := r.1.setStreamState o.fill { r.1.stream o.fill with next := r.2.1 }
    if r.2.2.isEmpty then c else c.push c.step.offset (.loopInc r.2.2)

/-- LOOP_END (R202). -/
def execLoopEnd (i : Issue) (s : State) : Host.Outcome State Fault Refusal :=
  coreCommand s i.core (fun env c =>
    let c := c.presented env i
    let st := c.stream i.fill
    if c.bundleLive i.fill then c.closeLoops (st.origin i.fill 0 (st.header.setWidth 64)) else c)

/-- Whether a train of the core has a firing still to come after the present fc: LINE and PARTIAL trains (R303). -/
def CoreState.trainPending (c : CoreState) : Bool :=
  c.tables.trains.any (fun p => p.2.kind ≤ 1 && c.step.offset < p.2.start + p.2.reps * p.2.period)

/-- Whether a READ or WRITE entry that names the core has a firing still to come (R329). -/
def State.entryPending (s : State) (cid : CoreId) : Bool :=
  let c := s.core cid
  s.channels.any (fun ch => ch.2.owner == c.owner && ch.1 / 64 == (fieldOfCore cid).toNat &&
    ((List.range 64).map ch.2.dsEntry).any (fun e => e.valid && e.kind ≤ 1 && e.isFor c.featY.toNat c.featX.toNat && c.step.offset < e.start + e.reps * e.period))

/-- The core's open barrier rounds: a round that it has arrived at and whose completion has not landed in it (R260). -/
def State.roundOpen (s : State) (cid : CoreId) : Bool :=
  let c := s.core cid
  (s.plot (c.owner.getD 0)).rounds.any (fun r => r.2.arrivals.any (fun a => a.1 == cid.toNat) && !r.2.landed.getLsbD (fieldOfCore cid).toNat)

/-- The code that a stop bundle faults with, if any, in the order of R244 (R128, R168, R203, R260, R303, R329). `waits` says what the rest of the module holds against it. -/
def CoreState.stopCode (c : CoreState) (fill pendingEntry roundOpen : Bool) : Option Code :=
  let t := c.step.offset
  if fill then (if c.step.fill.depth > 0 then some 0x2014 else none)
  else if t < c.step.arrayFree || c.step.events.any (fun e => match e.ev with | .tileRead _ => true | _ => false) || c.arrayRuns t || !c.traffic.blocks.isEmpty then some 0x200D
  else if c.step.regClaims.any (fun k => k.slot == 2 && !k.fill && t ≤ k.fc && k.issued < t) then some 0x2012
  else if c.step.main.depth > 0 then some 0x2014
  else if roundOpen then some 0x2018
  else if c.trainPending || pendingEntry then some 0x201E
  else none

/-- The detail words of a stop fault: the header in D0, slot 0 (R378). -/
def CoreState.stopStream (c : CoreState) (fill pendingEntry roundOpen : Bool) : CoreState :=
  let st := c.stream fill
  let o := st.origin fill 0 (st.header.setWidth 64)
  if !headerStop st.header then c
  else
    match c.stopCode fill pendingEntry roundOpen with
    | some code => c.issueFault code o
    | none => c.setStreamState fill { st with stopped := true }

/-- STOP_BUNDLE (R192): the stream ends for the step when the checks of the stop bundle pass. -/
def execStopBundle (i : Issue) (s : State) : Host.Outcome State Fault Refusal :=
  if !s.hasCore i.core then .fault .noSuchCore
  else if !(s.env i.core).running then .next s
  else
    let s := s.onCore i.core (fun env c => c.presented env i)
    let pendingEntry := s.entryPending i.core
    let roundOpen := s.roundOpen i.core
    .next (s.onCore i.core (fun _ c => if c.bundleLive i.fill then c.stopStream i.fill pendingEntry roundOpen else c))

end Sys2Proof.Machine
end

