-- ==== Sys2Proof/Machine/Scalar.lean ====
section
/-! DEFINITION. The scalar slot (R196 to R203, R211, R213): one meaning per operation over `scalarCommand`. -/

namespace Sys2Proof.Machine

/-- A scalar-slot command with opcode `opc` and operand bits `w`: a word that does not decode faults with BAD_BUNDLE (R199). -/
def scalarCommand (s : State) (i : Issue) (opc : BitVec 6) (w : BitVec 34) (act : ScalarOp → Origin → CoreState → CoreState) : Host.Outcome State Fault Refusal :=
  slotCommand s i 1 ((opc ++ w : BitVec 40).setWidth 64) (fun _ o c =>
    match decodeScalar (opc ++ w) with
    | some op => act op o c
    | none => c.issueFault 0x2007 o)

/-- A result in a scalar register `lat` fc after issue, from the listed scalar operands (R193, R196, R204). -/
def CoreState.scalarResult (c : CoreState) (o : Origin) (reads : List (BitVec 5)) (d : BitVec 5) (lat : Nat) (v : Word) (clamp : Bool) : CoreState :=
  c.withRegs o (reads.map (fun r => (.s, r.toNat))) [(.s, d.toNat)] (fun c =>
    c.withClaims o [(.s, d.toNat)] (c.step.offset + lat) (fun c =>
      (c.result (c.step.offset + lat) (.s d v) o).countScalarClamp clamp))

/-- A result in an address register one fc after issue (R193, R196, R204). -/
def CoreState.addressResult (c : CoreState) (o : Origin) (reads : List (RegClass × Nat)) (d : BitVec 4) (v : BitVec 32) : CoreState :=
  c.withRegs o reads [(.a, d.toNat)] (fun c =>
    c.withClaims o [(.a, d.toNat)] (c.step.offset + 1) (fun c => c.result (c.step.offset + 1) (.a d v) o))

/-- The overflow forms OV of R200 on exact values: signed operands give `sv`, unsigned `uv`. -/
def ovResult (ov : BitVec 2) (sv uv : Int) : Word × Bool :=
  if ov = 1 then (BitVec.ofInt 64 (satSInt 64 sv), satSInt 64 sv != sv)
  else if ov = 2 then (BitVec.ofInt 64 (satUInt 64 uv), satUInt 64 uv != uv)
  else (BitVec.ofInt 64 sv, false)

/-- SADD's result (R200). -/
def saddResult (ov : BitVec 2) (sub : Bool) (a b : Word) : Word × Bool :=
  if sub then ovResult ov (a.toInt - b.toInt) ((a.toNat : Int) - b.toNat) else ovResult ov (a.toInt + b.toInt) ((a.toNat : Int) + b.toNat)

/-- SLOGIC and VLOGIC (R169, R200). -/
def logicResult {n : Nat} (fn : BitVec 2) (a b : BitVec n) : BitVec n :=
  if fn = 0 then a &&& b else if fn = 1 then a ||| b else if fn = 2 then a ^^^ b else a &&& ~~~b

/-- SSHIFT's result by amount `d` (R200). -/
def sshiftResult (kind mode : BitVec 2) (a : Word) (d : Nat) : Word :=
  if kind = 0 then a <<< d
  else if kind = 1 then a >>> d
  else if kind = 2 then a.sshiftRight d
  else BitVec.ofInt 64 (roundShift a.toInt d mode 0)

/-- Minimum or maximum, signed or unsigned (R169, R200). -/
def minmaxResult {n : Nat} (max uns : Bool) (a b : BitVec n) : BitVec n :=
  let less := if uns then a.ult b else a.slt b
  if less == max then b else a

/-- The conditions of VCMP and SCMP (R165, R171). -/
def condHolds {n : Nat} (cond : BitVec 3) (a b : BitVec n) : Bool :=
  match cond.toNat with
  | 0 => a == b
  | 1 => a != b
  | 2 => a.slt b
  | 3 => a.sle b
  | 4 => a.ult b
  | 5 => a.ule b
  | 6 => b.slt a
  | _ => b.sle a

/-- CORE.FEATARRAY (R214). -/
def featArray : Word := BitVec.ofNat 64 (0x20 + 0x10 * 2 ^ 6 + 0x200 * 2 ^ 11 + 0x400 * 2 ^ 22 + 0x2000 * 2 ^ 33)

/-- The feature register that INDEX selects (R213, R214). -/
def CoreState.feature (c : CoreState) (index : BitVec 3) : Word :=
  if index = 0 then c.tables.featPos else if index = 1 then c.tables.featPlot else if index = 2 then featArray else 2

/-- SNOP (R199). -/
def execSnop (i : Issue) (w : BitVec 34) (s : State) : Host.Outcome State Fault Refusal :=
  scalarCommand s i 0x00 w (fun _ _ c => c)

/-- SADD (R200). -/
def execSadd (i : Issue) (w : BitVec 34) (s : State) : Host.Outcome State Fault Refusal :=
  scalarCommand s i 0x01 w (fun op o c =>
    match op with
    | .sadd d a b ov sub => let r := saddResult ov (sub == 1) (c.readS a) (c.readS b); c.scalarResult o [a, b] d 1 r.1 r.2
    | _ => c)

/-- SADDI (R200). -/
def execSaddi (i : Issue) (w : BitVec 34) (s : State) : Host.Outcome State Fault Refusal :=
  scalarCommand s i 0x02 w (fun op o c =>
    match op with
    | .saddi d a imm => c.scalarResult o [a] d 1 (c.readS a + imm.signExtend 64) false
    | _ => c)

/-- SMUL (R200). -/
def execSmul (i : Issue) (w : BitVec 34) (s : State) : Host.Outcome State Fault Refusal :=
  scalarCommand s i 0x03 w (fun op o c =>
    match op with
    | .smul d a b ov =>
      let r := ovResult ov ((c.readS a).toInt * (c.readS b).toInt) (((c.readS a).toNat : Int) * (c.readS b).toNat)
      c.scalarResult o [a, b] d 2 r.1 r.2
    | _ => c)

/-- SLOGIC (R200). -/
def execSlogic (i : Issue) (w : BitVec 34) (s : State) : Host.Outcome State Fault Refusal :=
  scalarCommand s i 0x04 w (fun op o c =>
    match op with
    | .slogic d a b fn => c.scalarResult o [a, b] d 1 (logicResult fn (c.readS a) (c.readS b)) false
    | _ => c)

/-- SSHIFT (R196, R200): RSR takes two fc, the other kinds one. -/
def execSshift (i : Issue) (w : BitVec 34) (s : State) : Host.Outcome State Fault Refusal :=
  scalarCommand s i 0x05 w (fun op o c =>
    match op with
    | .sshift d a b kind reg amt mode =>
      let n := if reg = 1 then fieldOf (c.readS b) 0 6 else amt.toNat
      c.scalarResult o (if reg = 1 then [a, b] else [a]) d (if kind = 3 then 2 else 1) (sshiftResult kind mode (c.readS a) n) false
    | _ => c)

/-- SMINMAX (R200). -/
def execSminmax (i : Issue) (w : BitVec 34) (s : State) : Host.Outcome State Fault Refusal :=
  scalarCommand s i 0x06 w (fun op o c =>
    match op with
    | .sminmax d a b max uns => c.scalarResult o [a, b] d 1 (minmaxResult (max == 1) (uns == 1) (c.readS a) (c.readS b)) false
    | _ => c)

/-- SCMP (R200). -/
def execScmp (i : Issue) (w : BitVec 34) (s : State) : Host.Outcome State Fault Refusal :=
  scalarCommand s i 0x07 w (fun op o c =>
    match op with
    | .scmp d a b cond => c.scalarResult o [a, b] d 1 (if condHolds cond (c.readS a) (c.readS b) then 1 else 0) false
    | _ => c)

/-- SSEL (R200). -/
def execSsel (i : Issue) (w : BitVec 34) (s : State) : Host.Outcome State Fault Refusal :=
  scalarCommand s i 0x08 w (fun op o c =>
    match op with
    | .ssel d a b x => c.scalarResult o [a, b, x] d 1 (if c.readS x != 0 then c.readS a else c.readS b) false
    | _ => c)

/-- SLUI (R200): SD is an operand too. -/
def execSlui (i : Issue) (w : BitVec 34) (s : State) : Host.Outcome State Fault Refusal :=
  scalarCommand s i 0x09 w (fun op o c =>
    match op with
    | .slui d imm => c.scalarResult o [d] d 1 (c.readS d <<< 24 ||| imm.setWidth 64) false
    | _ => c)

/-- SMOVI (R200). -/
def execSmovi (i : Issue) (w : BitVec 34) (s : State) : Host.Outcome State Fault Refusal :=
  scalarCommand s i 0x0A w (fun op o c =>
    match op with
    | .smovi d imm => c.scalarResult o [] d 1 (imm.signExtend 64) false
    | _ => c)

/-- SFEAT (R213). -/
def execSfeat (i : Issue) (w : BitVec 34) (s : State) : Host.Outcome State Fault Refusal :=
  scalarCommand s i 0x0B w (fun op o c =>
    match op with
    | .sfeat d index => c.scalarResult o [] d 1 (c.feature index) false
    | _ => c)

/-- AMOV (R200). -/
def execAmov (i : Issue) (w : BitVec 34) (s : State) : Host.Outcome State Fault Refusal :=
  scalarCommand s i 0x0C w (fun op o c =>
    match op with
    | .amov ad sa imm => c.addressResult o [(.s, sa.toNat)] ad ((c.readS sa).setWidth 32 + imm.signExtend 32)
    | _ => c)

/-- AADD (R200). -/
def execAadd (i : Issue) (w : BitVec 34) (s : State) : Host.Outcome State Fault Refusal :=
  scalarCommand s i 0x0D w (fun op o c =>
    match op with
    | .aadd ad aa imm => c.addressResult o [(.a, aa.toNat)] ad (c.readA aa + imm.signExtend 32)
    | _ => c)

/-- AGET (R200). -/
def execAget (i : Issue) (w : BitVec 34) (s : State) : Host.Outcome State Fault Refusal :=
  scalarCommand s i 0x0E w (fun op o c =>
    match op with
    | .aget sd aa =>
      c.withRegs o [(.a, aa.toNat)] [(.s, sd.toNat)] (fun c =>
        c.withClaims o [(.s, sd.toNat)] (c.step.offset + 1) (fun c => c.result (c.step.offset + 1) (.s sd ((c.readA aa).setWidth 64)) o))
    | _ => c)

/-- Frames of a stream: six in the main stream, two in the fill stream (R197, R203). -/
def frameLimit (fill : Bool) : Nat := if fill then 2 else 6

/-- LBEGIN (R201, R203): opens the next frame of its stream. -/
def execLbegin (i : Issue) (w : BitVec 34) (s : State) : Host.Outcome State Fault Refusal :=
  scalarCommand s i 0x0F w (fun op o c =>
    match op with
    | .lbegin frame creg sa count =>
      c.withRegs o (if creg = 1 then [(.s, sa.toNat)] else []) [] (fun c =>
        let st := c.stream o.fill
        let n : BitVec 32 := if creg = 1 then (c.readS sa).setWidth 32 else count.setWidth 32
        if frameLimit o.fill ≤ frame.toNat || frame.toNat != st.depth || n == 0 || headerClass st.header != 0 then c.issueFault 0x2014 o
        else
          let c := c.setFrame o.fill frame.toNat { c.frame o.fill frame.toNat with count := n, start := BitVec.ofNat 13 (st.cur + 1) }
          c.setStreamState o.fill { c.stream o.fill with depth := st.depth + 1 })
    | _ => c)

/-- LINC (R201, R203): sets an increment slot of a frame. -/
def execLinc (i : Issue) (w : BitVec 34) (s : State) : Host.Outcome State Fault Refusal :=
  scalarCommand s i 0x10 w (fun op o c =>
    match op with
    | .linc frame slot ar en inc =>
      if frameLimit o.fill ≤ frame.toNat then c.issueFault 0x2014 o
      else
        c.withRegs o [] (if ar = 0 then [] else [(.a, ar.toNat)]) (fun c =>
          let f := c.frame o.fill frame.toNat
          let v : IncSlot := { en := en == 1, ar := ar, inc := inc }
          c.setFrame o.fill frame.toNat (match slot.toNat with
            | 0 => { f with inc0 := v }
            | 1 => { f with inc1 := v }
            | 2 => { f with inc2 := v }
            | _ => { f with inc3 := v }))
    | _ => c)

/-- SNEXT (R205, R211): a request for the next step's entry; the last issued governs. -/
def execSnext (i : Issue) (w : BitVec 34) (s : State) : Host.Outcome State Fault Refusal :=
  scalarCommand s i 0x11 w (fun op o c =>
    match op with
    | .snext f nreg sa entry =>
      if o.fill then c.issueFault 0x2013 o
      else
        c.withRegs o (if nreg = 1 then [(.s, sa.toNat)] else []) [] (fun c =>
          let e : BitVec 13 := if nreg = 1 then (c.readS sa).setWidth 13 else entry
          if f = 1 then { c with traffic.snextFill := some e } else { c with traffic.snextMain := some e })
    | _ => c)

/-- SOWN (R205): a request for a handle's stream attribute in the next step; the last issued governs. -/
def execSown (i : Issue) (w : BitVec 34) (s : State) : Host.Outcome State Fault Refusal :=
  scalarCommand s i 0x12 w (fun op o c =>
    match op with
    | .sown handle owner =>
      if o.fill then c.issueFault 0x2013 o else { c with traffic.sown := AMap.set c.traffic.sown handle.toNat owner }
    | _ => c)

end Sys2Proof.Machine
end

