-- ==== Sys2Proof/Machine/Vector.lean ====
section
/-! DEFINITION. The vector slot (R162 to R178, R186): one meaning per operation over `vectorCommand`. -/

namespace Sys2Proof.Machine

/-- A vector-slot command with opcode `opc` and operand bits `w`: a word that does not decode faults with BAD_BUNDLE (R165). -/
def vectorCommand (s : State) (i : Issue) (opc : BitVec 8) (w : BitVec 40) (act : Env → VectorOp → Origin → CoreState → CoreState) : Host.Outcome State Fault Refusal :=
  slotCommand s i 2 ((opc ++ w : BitVec 48).setWidth 64) (fun env o c =>
    match decodeVector (opc ++ w) with
    | some op => act env op o c
    | none => c.issueFault 0x2007 o)

/-- The draws of an operation for every lane, and the core with DSEQ advanced (R343 to R345); modes 0 to 2 draw nothing. -/
def CoreState.drawLanes (c : CoreState) (env : Env) (mode : BitVec 2) (stream : Nat) : List Nat × CoreState :=
  if mode != 3 then ([], c)
  else
    let key := c.readS (if stream = 2 then 31 else 23)
    let n := c.dseq stream
    ((List.range 32).map (fun l => drawOf env.draw (BitVec.ofNat 7 stream) key n l), c.setDseq stream (n + 1))

/-- The vector slot's draw stream (R344). -/
def vectorStream (fill : Bool) : Nat := if fill then 2 else 1

/-- A lane-by-lane result `lat` fc after issue: registers checked, claimed, drawn for, then written with the clamps counted (R164, R166, R178). -/
def CoreState.laneResult (c : CoreState) (env : Env) (o : Origin) (reads : List (RegClass × Nat)) (d : BitVec 5) (lat : Nat) (mode : BitVec 2)
    (f : CoreState → Nat → Nat → BitVec 32 × Bool) (b : CoreState → Nat → Bool) : CoreState :=
  c.withRegs o reads [vUse d] (fun c =>
    c.withClaims o [vUse d] (c.step.offset + lat) (fun c =>
      let dr := c.drawLanes env mode (vectorStream o.fill)
      let lanes := (List.range 32).map (fun i => f c i (listGet 0 dr.1 i))
      let v := VReg.ofLanes (fun i => (listGet (0, false) lanes i).1) (b c)
      (dr.2.result (c.step.offset + lat) (.v d v) o).countClamps (lanes.filter (·.2)).length))

/-- The bruise of a lane computed from the same lane of two registers (R164). -/
def bruiseOr (a b : BitVec 5) (c : CoreState) (i : Nat) : Bool := (c.readV a).bruise.getLsbD i || (c.readV b).bruise.getLsbD i

/-- The bruise of a lane computed from one register (R164). -/
def bruiseOf (a : BitVec 5) (c : CoreState) (i : Nat) : Bool := (c.readV a).bruise.getLsbD i

/-- VADD's lane (R169). -/
def vaddLane (ov : BitVec 2) (sub : Bool) (a b : BitVec 32) : BitVec 32 × Bool :=
  let sv := if sub then a.toInt - b.toInt else a.toInt + b.toInt
  let uv : Int := if sub then (a.toNat : Int) - b.toNat else (a.toNat : Int) + b.toNat
  if ov = 1 then (BitVec.ofInt 32 (satSInt 32 sv), satSInt 32 sv != sv)
  else if ov = 2 then (BitVec.ofInt 32 (satUInt 32 uv), satUInt 32 uv != uv)
  else (BitVec.ofInt 32 sv, false)

/-- VMUL's lane (R169). -/
def vmulLane (sgn ah bh : Bool) (a b : BitVec 32) : BitVec 32 :=
  let half (h : Bool) (x : BitVec 32) : BitVec 16 := if h then x.extractLsb' 16 16 else x.extractLsb' 0 16
  if sgn then BitVec.ofInt 32 ((half ah a).toInt * (half bh b).toInt) else BitVec.ofNat 32 ((half ah a).toNat * (half bh b).toNat)

/-- A value saturated to a signed lane, and whether that changed it (R169). -/
def clampLane (v : Int) : BitVec 32 × Bool := (BitVec.ofInt 32 (satSInt 32 v), satSInt 32 v != v)

/-- VMULH's lane (R169). -/
def vmulhLane (sh : Nat) (mode : BitVec 2) (r : Nat) (a b : BitVec 32) : BitVec 32 × Bool := clampLane (roundShift (a.toInt * b.toInt) sh mode r)

/-- VSHIFT's lane by amount `d` (R170). -/
def vshiftLane (kind : BitVec 3) (mode : BitVec 2) (r : Nat) (a : BitVec 32) (d : Int) : BitVec 32 × Bool :=
  match kind.toNat with
  | 0 => (a <<< d.toNat, false)
  | 1 => (a >>> d.toNat, false)
  | 2 => (a.sshiftRight d.toNat, false)
  | 3 => if d < 0 then clampLane (a.toInt * 2 ^ (-d).toNat) else (BitVec.ofInt 32 (roundShift a.toInt d.toNat mode r), false)
  | _ => clampLane (a.toInt * 2 ^ d.toNat)

/-- The shift amount of a lane (R170). -/
def vshiftAmount (kind : BitVec 3) (lane : Bool) (amt : BitVec 6) (b : BitVec 32) : Int :=
  if !lane then amt.toNat
  else if kind = 3 then max (-63) (min 63 b.toInt)
  else fieldOf b 0 6

/-- VCOUNT's lane (R169). -/
def vcountLane (cls : Bool) (a : BitVec 32) : BitVec 32 :=
  if cls then BitVec.ofNat 32 (31 - bitLength (if a.msb then (~~~a).toNat else a.toNat)) else BitVec.ofNat 32 (32 - bitLength a.toNat)

/-- VPERM's source for lane `i`: register B or not, and lane (R172). -/
def permSource (pat : Nat) (p i : Nat) : Bool × Nat :=
  match pat with
  | 0 => (false, (i + p) % 32)
  | 1 => (false, Nat.xor i p)
  | 2 => (false, p)
  | 3 => (false, 31 - i)
  | 4 => (i % 2 == 1, 16 * p + i / 2)
  | 5 => if i < 16 then (false, 2 * i + p) else (true, 2 * (i - 16) + p)
  | _ => if i + p < 32 then (false, i + p) else (true, i + p - 32)

/-- A mask result one fc after issue (R166, R171). -/
def CoreState.maskResult (c : CoreState) (o : Origin) (reads : List (RegClass × Nat)) (md : BitVec 3) (f : CoreState → MReg) : CoreState :=
  c.withRegs o reads [mUse md] (fun c =>
    c.withClaims o [mUse md] (c.step.offset + 1) (fun c => c.result (c.step.offset + 1) (.m md (f c)) o))

/-! ### Pack and unpack (R174, R175) -/

/-- The bytes of a part (R174). -/
def partBytes (fmt : BitVec 4) : Nat := 4 * fmtWidth fmt

/-- The code of element `i` of a part (R174). -/
def partElement (v : VReg) (fmt : BitVec 4) (part i : Nat) : Nat :=
  let w := fmtWidth fmt
  fieldOf v.bits (8 * (part * partBytes fmt) + w * i) w

/-- Whether a lane that holds bits of element `i` of a part is bruised (R175). -/
def partElementBruised (v : VReg) (fmt : BitVec 4) (part i : Nat) : Bool :=
  let lo := 8 * (part * partBytes fmt) + fmtWidth fmt * i
  v.bruise.getLsbD (lo / 32) || v.bruise.getLsbD ((lo + fmtWidth fmt - 1) / 32)

/-- The lane exponent of VUNPK and VPACK (R175). -/
def CoreState.laneExponent (c : CoreState) (k : BitVec 10) (kreg : Bool) : Int :=
  if kreg then ((c.readS (k.setWidth 5)).setWidth 10 : BitVec 10).toInt else k.toInt

/-- The scalar operand of VUNPK and VPACK (R175, R204). -/
def exponentUse (k : BitVec 10) (kreg : Bool) : List (RegClass × Nat) := if kreg then [(.s, (k.setWidth 5 : BitVec 5).toNat)] else []

/-- Element `i` of a part in exact form (R175, R225). A scale code of 0xFF stands above every bruise of the inputs, and makes the element a bruised zero with its event (R86, R100, R101). -/
def unpackElement (a b : VReg) (fmt : BitVec 4) (part i : Nat) : Exact :=
  let scale := fieldOf (b.lane part) 0 8
  let scaleBruised := fmtIsMx fmt && b.bruise.getLsbD part
  let anchorBruised := fmt == 11 && b.bruise.getLsbD 0
  let x := decodeElement fmt (partElement a fmt part i) scale (signedFieldOf (b.lane 0) 0 10)
  if fmtIsMx fmt && scale == 0xFF then Exact.bruised .bruise
  else if partElementBruised a fmt part i || scaleBruised || anchorBruised then { x with bruise := true, event := .none }
  else x

/-- VUNPK's lane `i` (R93, R175). Under scale code 0x00 a nonzero element whose lane reaches zero raises UNDERFLOW, an infinity code too (R101). -/
def unpackLane (a b : VReg) (fmt : BitVec 4) (part : Nat) (k : Int) (mode : BitVec 2) (r i : Nat) : Converted (BitVec 32) × Bool :=
  let x := unpackElement a b fmt part i
  let l := toLane x k mode r
  let flushed := fmtIsMx fmt && fieldOf (b.lane part) 0 8 == 0 && x.n != 0 && l.val == 0
  ({ l with event := if x.bruise then x.event else if flushed then .underflow else l.event }, x.bruise)

/-- VPACK's elements: code, bruise kept, event (R94 to R98, R175). -/
def packElements (a b : VReg) (fmt : BitVec 4) (k x : Int) (mode : BitVec 2) (nan : Bool) (dr : List Nat) : List (Nat × Bool × Event) :=
  (List.range 32).map (fun i =>
    let anchorBruised := fmt == 11 && b.bruise.getLsbD 0
    if a.bruise.getLsbD i then let z := bruisedCode fmt nan; (z.1, z.2, .none)
    else
      let e := encodeElement fmt (a.lane i).toInt k x (signedFieldOf (b.lane 0) 0 10) mode (listGet 0 dr i)
      (e.val, anchorBruised, if anchorBruised then .none else e.event))

/-- The register image of a packed part: bits in place, bruise by lane (R174, R175). -/
def packImage (fmt : BitVec 4) (part : Nat) (els : List (Nat × Bool × Event)) : VReg :=
  let w := fmtWidth fmt
  let base := 8 * (part * partBytes fmt)
  els.zipIdx.foldl (fun (v : VReg) p =>
    let lo := base + w * p.2
    { bits := v.bits ||| BitVec.ofNat 1024 (p.1.1 % 2 ^ w * 2 ^ lo)
      bruise := if p.1.2.1 then v.bruise ||| BitVec.ofNat 32 (2 ^ (lo / 32)) ||| BitVec.ofNat 32 (2 ^ ((lo + w - 1) / 32)) else v.bruise }) {}

/-! ### Meanings -/

/-- VNOP (R165). -/
def execVnop (i : Issue) (w : BitVec 40) (s : State) : Host.Outcome State Fault Refusal :=
  vectorCommand s i 0x00 w (fun _ _ _ c => c)

/-- VADD (R169). -/
def execVadd (i : Issue) (w : BitVec 40) (s : State) : Host.Outcome State Fault Refusal :=
  vectorCommand s i 0x01 w (fun env op o c =>
    match op with
    | .vadd d a b ov sub => c.laneResult env o [vUse a, vUse b] d 1 0 (fun c l _ => vaddLane ov (sub == 1) ((c.readV a).lane l) ((c.readV b).lane l)) (bruiseOr a b)
    | _ => c)

/-- VMUL (R169). -/
def execVmul (i : Issue) (w : BitVec 40) (s : State) : Host.Outcome State Fault Refusal :=
  vectorCommand s i 0x02 w (fun env op o c =>
    match op with
    | .vmul d a b sgn ah bh =>
      c.laneResult env o [vUse a, vUse b] d 2 0 (fun c l _ => (vmulLane (sgn == 1) (ah == 1) (bh == 1) ((c.readV a).lane l) ((c.readV b).lane l), false)) (bruiseOr a b)
    | _ => c)

/-- VMULH (R169). -/
def execVmulh (i : Issue) (w : BitVec 40) (s : State) : Host.Outcome State Fault Refusal :=
  vectorCommand s i 0x03 w (fun env op o c =>
    match op with
    | .vmulh d a b sh mode => c.laneResult env o [vUse a, vUse b] d 3 mode (fun c l r => vmulhLane sh.toNat mode r ((c.readV a).lane l) ((c.readV b).lane l)) (bruiseOr a b)
    | _ => c)

/-- VSHIFT (R166, R170): RSR and SLS take two fc, the other kinds one. -/
def execVshift (i : Issue) (w : BitVec 40) (s : State) : Host.Outcome State Fault Refusal :=
  vectorCommand s i 0x04 w (fun env op o c =>
    match op with
    | .vshift d a b kind lane amt mode =>
      let perLane := lane == 1
      c.laneResult env o (if perLane then [vUse a, vUse b] else [vUse a]) d (if kind.toNat < 3 then 1 else 2) mode
        (fun c l r => vshiftLane kind mode r ((c.readV a).lane l) (vshiftAmount kind perLane amt ((c.readV b).lane l)))
        (if perLane then bruiseOr a b else bruiseOf a)
    | _ => c)

/-- VLOGIC (R169). -/
def execVlogic (i : Issue) (w : BitVec 40) (s : State) : Host.Outcome State Fault Refusal :=
  vectorCommand s i 0x05 w (fun env op o c =>
    match op with
    | .vlogic d a b fn => c.laneResult env o [vUse a, vUse b] d 1 0 (fun c l _ => (logicResult fn ((c.readV a).lane l) ((c.readV b).lane l), false)) (bruiseOr a b)
    | _ => c)

/-- VMINMAX (R169). -/
def execVminmax (i : Issue) (w : BitVec 40) (s : State) : Host.Outcome State Fault Refusal :=
  vectorCommand s i 0x06 w (fun env op o c =>
    match op with
    | .vminmax d a b max uns => c.laneResult env o [vUse a, vUse b] d 1 0 (fun c l _ => (minmaxResult (max == 1) (uns == 1) ((c.readV a).lane l) ((c.readV b).lane l), false)) (bruiseOr a b)
    | _ => c)

/-- VCOUNT (R169). -/
def execVcount (i : Issue) (w : BitVec 40) (s : State) : Host.Outcome State Fault Refusal :=
  vectorCommand s i 0x07 w (fun env op o c =>
    match op with
    | .vcount d a cls => c.laneResult env o [vUse a] d 1 0 (fun c l _ => (vcountLane (cls == 1) ((c.readV a).lane l), false)) (bruiseOf a)
    | _ => c)

/-- VCMP (R171). -/
def execVcmp (i : Issue) (w : BitVec 40) (s : State) : Host.Outcome State Fault Refusal :=
  vectorCommand s i 0x08 w (fun _ op o c =>
    match op with
    | .vcmp md a b cond =>
      c.maskResult o [vUse a, vUse b] md (fun c =>
        { bits := marksOf (fun l => condHolds cond ((c.readV a).lane l) ((c.readV b).lane l)), bruise := (c.readV a).bruise ||| (c.readV b).bruise })
    | _ => c)

/-- VSEL (R171): the lane that is not selected passes no bruise. -/
def execVsel (i : Issue) (w : BitVec 40) (s : State) : Host.Outcome State Fault Refusal :=
  vectorCommand s i 0x09 w (fun env op o c =>
    match op with
    | .vsel d a b ms =>
      let pick (c : CoreState) (l : Nat) : BitVec 5 := if (c.readM ms).bits.getLsbD l then a else b
      c.laneResult env o [vUse a, vUse b, mUse ms] d 1 0 (fun c l _ => ((c.readV (pick c l)).lane l, false))
        (fun c l => (c.readV (pick c l)).bruise.getLsbD l || (c.readM ms).bruise.getLsbD l)
    | _ => c)

/-- VPERM (R172). -/
def execVperm (i : Issue) (w : BitVec 40) (s : State) : Host.Outcome State Fault Refusal :=
  vectorCommand s i 0x0A w (fun env op o c =>
    match op with
    | .vperm d a b pat p =>
      let src (l : Nat) : BitVec 5 × Nat := let q := permSource pat.toNat p.toNat l; (if q.1 then b else a, q.2)
      c.laneResult env o (if 4 ≤ pat.toNat then [vUse a, vUse b] else [vUse a]) d 1 0 (fun c l _ => ((c.readV (src l).1).lane (src l).2, false))
        (fun c l => (c.readV (src l).1).bruise.getLsbD (src l).2)
    | _ => c)

/-- VUNPK (R175). -/
def execVunpk (i : Issue) (w : BitVec 40) (s : State) : Host.Outcome State Fault Refusal :=
  vectorCommand s i 0x0B w (fun env op o c =>
    match op with
    | .vunpk d a b fmt part k kreg mode =>
      let usesB := fmtIsMx fmt || fmt == 11
      c.withRegs o ([vUse a] ++ (if usesB then [vUse b] else []) ++ exponentUse k (kreg == 1)) [vUse d] (fun c =>
        if fmtWidth fmt = 0 then c.issueFault 0x200C o
        else
          c.withClaims o [vUse d] (c.step.offset + 3) (fun c =>
            let dr := c.drawLanes env mode (vectorStream o.fill)
            let ls := (List.range 32).map (fun l => unpackLane (c.readV a) (c.readV b) fmt part.toNat (c.laneExponent k (kreg == 1)) mode (listGet 0 dr.1 l) l)
            let lane (l : Nat) := listGet ({ val := 0, event := .none }, false) ls l
            (dr.2.countEvents (ls.map (·.1.event))).result (c.step.offset + 3) (.v d (VReg.ofLanes (fun l => (lane l).1.val) (fun l => (lane l).2))) o))
    | _ => c)

/-- VPACK (R96, R167, R175): for MX formats the scale lane of VB is written in the same fc. One register as VD and VB is VREG_CLASH in the fill stream too: R167 gives the fault, and R206 speaks of earlier fill-stream work (DESIGN CHOICE, log entry 105). -/
def execVpack (i : Issue) (w : BitVec 40) (s : State) : Host.Outcome State Fault Refusal :=
  vectorCommand s i 0x0C w (fun env op o c =>
    match op with
    | .vpack d a b fmt part k kreg mode rule =>
      let mx := fmtIsMx fmt
      c.withRegs o ([vUse a] ++ (if fmt == 11 then [vUse b] else []) ++ exponentUse k (kreg == 1)) ([vUse d] ++ (if mx then [vUse b] else [])) (fun c =>
        if fmtWidth fmt = 0 then c.issueFault 0x200C o
        else if mx && d == b then c.issueFault 0x2011 o
        else
          c.withClaims o ([vUse d] ++ (if mx then [vUse b] else [])) (c.step.offset + 3) (fun c =>
            let dr := c.drawLanes env mode (vectorStream o.fill)
            let e := c.laneExponent k (kreg == 1)
            let av := c.readV a
            let x := if mx then packExponent fmt rule e ((List.range 32).map (fun l => (l, (av.lane l).toInt, av.bruise.getLsbD l))) mode dr.1 else 0
            let els := packElements av (c.readV b) fmt e x mode env.nan dr.1
            let c2 := (dr.2.countEvents (els.map (·.2.2))).result (c.step.offset + 3) (.vpart d (packImage fmt part.toNat els) (part.toNat * partBytes fmt) (partBytes fmt)) o
            if mx then c2.result (c.step.offset + 3) (.vlane b part.toNat (BitVec.ofInt 32 (x + 127))) o else c2))
    | _ => c)

/-- The entries that VLUT reads, one for each lane with its handle byte offset; `none` for a bruised index (R176, R177). -/
def CoreState.lutLanes (c : CoreState) (a : BitVec 5) (h : BitVec 6) : List (Option (Nat × Nat)) :=
  (List.range 32).map (fun l =>
    if (c.readV a).bruise.getLsbD l then none
    else some (((c.readV a).lane l).toNat, (c.descOf h.toNat).bitOffset [((c.readV a).lane l).toNat] / 8))

/-- The first failure among VLUT's entries (R177, R243); `held` leaves the checks of a held operation's bytes to its reads. -/
def CoreState.lutCheck (c : CoreState) (a : BitVec 5) (h : BitVec 6) (held : Bool) : Option Bad :=
  let d := c.descOf h.toNat
  worst (((List.range 32).filter (fun l => !(c.readV a).bruise.getLsbD l)).filterMap (fun l =>
    let n := ((c.readV a).lane l).toNat
    if !d.isRing && n ≥ d.count then some { code := 0x2009, handle := h.toNat, pos := n, byte := 0, d2 := 0 }
    else if held then none else c.checkBytes h.toNat false n (bytesOfBits (d.bitOffset [n]) (fmtWidth d.fmt))))

/-- VLUT (R168, R176, R177, R244). A fill-stream VLUT that meets an earlier one holds its bundle (R206), so VEC_BUSY is judged among main-stream operations alone (R207). -/
def execVlut (i : Issue) (w : BitVec 40) (s : State) : Host.Outcome State Fault Refusal :=
  vectorCommand s i 0x0D w (fun env op o c =>
    match op with
    | .vlut d a th t16 =>
      c.withRegs o [vUse a] [vUse d] (fun c =>
        let t := c.step.offset
        let ds := c.descOf th.toNat
        let ports := (List.range 8).map (fun j => ({ fc := t + 1 + j, reads := 4, writes := 0 } : PortClaim))
        let clash := if o.fill then none else c.portClash env ports
        let held := o.fill && c.fillHeld env (t + 1) { reads := 4, lookup := true }
        if !c.mayAccess th.toNat o.fill false then c.issueFault 0x2013 o
        else if ds.rank != 1 || ds.fmt != (if t16 = 1 then 1 else 2) then c.issueFault 0x200C o
        else if !o.fill && t < c.step.vlutEnd then c.issueFault 0x2012 o
        else
          match c.lutCheck a th held with
          | some b => c.accessFault b o
          | none =>
            if clash.isSome then c.fault 0x2016 o (BitVec.ofNat 64 th.toNat) 0 (BitVec.ofNat 64 (clash.getD 0))
            else
              c.withClaims o [vUse d] (t + 12) (fun c =>
                let c := c.claimFor o.fill ports
                ({ c with step.vlutEnd := if o.fill then c.step.vlutEnd else t + 8 } : CoreState).push (t + 1)
                  (.gather { reg := d, handle := th, lanes := c.lutLanes a th, width := fmtWidth ds.fmt, signExt := t16 == 1, acc := {}, held := held, origin := o } 0)))
    | _ => c)

/-- VMOVI (R173). -/
def execVmovi (i : Issue) (w : BitVec 40) (s : State) : Host.Outcome State Fault Refusal :=
  vectorCommand s i 0x0E w (fun env op o c =>
    match op with
    | .vmovi d imm => c.laneResult env o [] d 1 0 (fun _ _ _ => (imm, false)) (fun _ _ => false)
    | _ => c)

/-- VSPLAT (R173). -/
def execVsplat (i : Issue) (w : BitVec 40) (s : State) : Host.Outcome State Fault Refusal :=
  vectorCommand s i 0x0F w (fun env op o c =>
    match op with
    | .vsplat d ss => c.laneResult env o [(.s, ss.toNat)] d 1 0 (fun c _ _ => ((c.readS ss).setWidth 32, false)) (fun _ _ => false)
    | _ => c)

/-- VGET (R173, R178): a bruised lane counts an escape. -/
def execVget (i : Issue) (w : BitVec 40) (s : State) : Host.Outcome State Fault Refusal :=
  vectorCommand s i 0x10 w (fun _ op o c =>
    match op with
    | .vget sd a lane =>
      c.withRegs o [vUse a] [(.s, sd.toNat)] (fun c =>
        c.withClaims o [(.s, sd.toNat)] (c.step.offset + 2) (fun c =>
          (c.result (c.step.offset + 2) (.s sd (((c.readV a).lane lane.toNat).signExtend 64)) o).countEscape ((c.readV a).bruise.getLsbD lane.toNat)))
    | _ => c)

/-- MSET (R171). -/
def execMset (i : Issue) (w : BitVec 40) (s : State) : Host.Outcome State Fault Refusal :=
  vectorCommand s i 0x11 w (fun _ op o c =>
    match op with
    | .mset md imm => c.maskResult o [] md (fun _ => { bits := imm, bruise := 0 })
    | _ => c)

/-- MLOGIC (R171). -/
def execMlogic (i : Issue) (w : BitVec 40) (s : State) : Host.Outcome State Fault Refusal :=
  vectorCommand s i 0x12 w (fun _ op o c =>
    match op with
    | .mlogic md ma mb fn =>
      c.maskResult o [mUse ma, mUse mb] md (fun c => { bits := logicResult fn (c.readM ma).bits (c.readM mb).bits, bruise := (c.readM ma).bruise ||| (c.readM mb).bruise })
    | _ => c)

end Sys2Proof.Machine
end

