-- ==== Sys2Proof/Machine/Matrix.lean ====
section
/-! DEFINITION. The matrix slot and the array's own events (R108 to R136, R149 to R154): one meaning per command. -/

namespace Sys2Proof.Machine

/-- A matrix-slot command with opcode `opc` and operand bits `w`: BAD_BUNDLE where it does not decode (R108); ACC_RANGE for a bit of MREAD that must be 0 (R149, log entry 23). A fill bundle with any such command is cancelled as it opens. -/
def matrixCommand (s : State) (i : Issue) (opc : BitVec 4) (w : BitVec 44) (act : Env → MatrixOp → Origin → CoreState → CoreState) : Host.Outcome State Fault Refusal :=
  slotCommand s i 3 ((opc ++ w : BitVec 48).setWidth 64) (fun env o c =>
    match decodeMatrix (opc ++ w) with
    | some op => act env op o c
    | none => c.issueFault (if opc = 5 then 0x2005 else 0x2007) o)

/-- Counts a cold start and marks the array busy to `free`; the operation runs until `ended`, the fc after its last landing (R126, R128, R134, R136). -/
def CoreState.heatUp (c : CoreState) (env : Env) (free ended : Nat) : CoreState :=
  let cold := c.density env.down env.up env.floor c.step.offset < 32
  { c with
    array.cold := if cold then satAdd c.array.cold 1 else c.array.cold
    step.arrayFree := free
    step.warm := none
    step.lastMatrixEnd := some ended }

/-- MNOP (R134): with WARM set, the current ramp-up begins. -/
def execMnop (i : Issue) (w : BitVec 44) (s : State) : Host.Outcome State Fault Refusal :=
  matrixCommand s i 0x0 w (fun env op _ c =>
    match op with
    | .mnop warm =>
      if warm = 1 && !c.arrayRuns c.step.offset then { c with step.warm := some (c.step.offset, c.density env.down env.up env.floor c.step.offset) } else c
    | _ => c)

/-- Whether a stream may read a tensor through a handle, and its scales through the handle SH of an MX format (R205, R234). -/
def CoreState.mayReadTensor (c : CoreState) (h : BitVec 6) (fill : Bool) : Bool :=
  c.mayAccess h.toNat fill false && (!fmtIsMx (c.descOf h.toNat).fmt || c.mayAccess (c.descOf h.toNat).sh.toNat fill false)

/-- MLOAD (R111 to R113, R128, R243): faults in the order of R244, then the reads from the next fc. -/
def execMload (i : Issue) (w : BitVec 44) (s : State) : Host.Outcome State Fault Refusal :=
  matrixCommand s i 0x1 w (fun env op o c =>
    match op with
    | .mload bank xh ax rows klen =>
      c.withRegs o [(.a, ax.toNat)] [] (fun c =>
        let t := c.step.offset
        let b := bank == 1
        let d := c.descOf xh.toNat
        let pos := c.readA ax
        let n := klen.toNat + 1
        let cs := d.coords pos.toNat
        if !c.mayReadTensor xh o.fill then c.issueFault 0x2013 o
        else if kpassOf d.fmt = 0 then c.issueFault 0x200C o
        else if t < c.bankFree b || c.tileRuns t then c.issueFault 0x200D o
        else if n > kpassOf d.fmt || (fmtIsMx d.fmt && (n % 32 != 0 || (match cs with | some q => !mxAligned d q | none => false))) then c.issueFault 0x200F o
        else
          match cs.bind (fun q => c.loadReads xh.toNat q (rows.toNat + 1) n) with
          | none => c.accessFault (Bad.bounds xh.toNat pos.toNat) o
          | some r =>
            match c.checkLoad xh.toNat pos.toNat r with
            | some bad => c.accessFault bad o
            | none =>
              let len := ceilDiv r.1.length 2
              let ports := (List.range len).map (fun j => ({ fc := t + 1 + j, reads := min 2 (r.1.length - 2 * j), writes := 0 } : PortClaim))
              match c.portClash env ports with
              | some f => c.fault 0x2016 o (BitVec.ofNat 64 (xh.toNat + pos.toNat * 2 ^ 32)) 0 (BitVec.ofNat 64 f)
              | none => ((c.claimPorts ports).setBankReady b (t + len)).startLoad (t + 1) b xh d.fmt (rows.toNat + 1) n r.1 o)
    | _ => c)

/-- The stream operand of R110. -/
structure StreamOperand where
  count : Nat
  base : Nat
  window : Nat
  ok : Bool
  deriving DecidableEq, Repr

/-- Fields and ranges of the stream operand (R110). -/
def streamOperand (v : Word) (narrow : Bool) : StreamOperand :=
  let count := fieldOf v 0 16
  let base := fieldOf v 16 10
  { count := count, base := base, window := fieldOf v 26 10, ok := fieldOf v 36 28 == 0 && count != 0 && (narrow || base < 512) }

/-- MSTREAM (R114 to R117, R126, R128). -/
def execMstream (i : Issue) (w : BitVec 44) (s : State) : Host.Outcome State Fault Refusal :=
  matrixCommand s i 0x2 w (fun env op o c =>
    match op with
    | .mstream bank wh aw ss kind ovw =>
      c.withRegs o [(.a, aw.toNat), (.s, ss.toNat)] [] (fun c =>
        let t := c.step.offset
        let b := bank == 1
        let bk := c.loadedBank b
        let d := c.descOf wh.toNat
        let narrow := kind == 1
        let so := streamOperand (c.readS ss) narrow
        if !c.mayReadTensor wh o.fill then c.issueFault 0x2013 o
        else if kpassOf d.fmt = 0 || (bk.loaded && kpassOf bk.fmt != kpassOf d.fmt) then c.issueFault 0x200C o
        else if t < c.step.arrayFree || t < c.bankReady b || !bk.loaded then c.issueFault 0x200D o
        else if !so.ok || (match d.coords (c.readA aw).toNat with | some q => !mxAligned d q | none => false) then c.issueFault 0x200F o
        else if !c.rangeOk narrow so.base (so.base + so.window) then c.issueFault 0x2005 o
        else
          let op0 : StreamOp := { id := 0, start := t, bank := b, handle := wh, pos := c.readA aw, kskip := 0, klen := bk.klen, rows := bk.rows, tile := false, count := so.count, base := so.base, window := so.window, narrow := narrow, ovw := ovw == 1, cost := 1
                                  column := 0, codes := [], scales := [], held := [], landed := 0, lastLand := 0, failed := false, origin := o }
          let op := { op0 with cost := c.columnCost op0 }
          let ports := (List.range (op.count * op.cost)).map (fun j => ({ fc := t + 1 + j, reads := c.streamReads op (t + 1 + j), writes := 0 } : PortClaim))
          match c.portClash env ports with
          | some f => c.fault 0x2016 o (BitVec.ofNat 64 (wh.toNat + (c.readA aw).toNat * 2 ^ 32)) 0 (BitVec.ofNat 64 f)
          | none => ((c.heatUp env (t + op.count * op.cost) (op.landFc (op.count - 1) + 1)).setBankFree b (t + op.count * op.cost + 4)).startStream op)
    | _ => c)

/-- The tile shape operand of R110. -/
structure ShapeOperand where
  m : Nat
  n : Nat
  k : Nat
  base : Nat
  ok : Bool
  deriving DecidableEq, Repr

/-- Fields and ranges of the shape operand (R110). Its BASE row gives no range: a wide BASE of 512 or more is TILE_SHAPE here, as the Stream BASE row has it, and not the ACC_RANGE of R123 (DESIGN CHOICE, log entry 106). -/
def shapeOperand (v : Word) (narrow : Bool) : ShapeOperand :=
  let m := fieldOf v 0 8
  let n := fieldOf v 8 10
  let k := fieldOf v 18 10
  let base := fieldOf v 28 10
  { m := m, n := n, k := k, base := base
    ok := fieldOf v 38 26 == 0 && 1 ≤ m && m ≤ 64 && 1 ≤ n && n ≤ 512 && 1 ≤ k && k ≤ 256 && (narrow || base < 512) }

/-- MTILE's L: the largest load time over its passes, each with 16 rows (R125). -/
def CoreState.tileLoadTime (c : CoreState) (op : TileOp) : Nat :=
  (List.range (tilePasses op.m op.k op.kpass)).foldl (fun m i =>
    match c.passOriginAt op i with
    | some cs => max m (c.loadTime op.xh.toNat cs 16 (op.passShape i).2.1)
    | none => m) 1

/-- MTILE's c: the largest column cost over its passes (R125). -/
def CoreState.tileColumnCost (c : CoreState) (op : TileOp) : Nat :=
  (List.range (ceilDiv op.k op.kpass)).foldl (fun m q =>
    max m (c.columnCost (op.stream q))) 1

/-- MTILE (R123 to R125, R128). -/
def execMtile (i : Issue) (w : BitVec 44) (s : State) : Host.Outcome State Fault Refusal :=
  matrixCommand s i 0x3 w (fun env op o c =>
    match op with
    | .mtile xh ax wh aw ss kind ovw =>
      c.withRegs o [(.a, ax.toNat), (.a, aw.toNat), (.s, ss.toNat)] [] (fun c =>
        let t := c.step.offset
        let dx := c.descOf xh.toNat
        let dw := c.descOf wh.toNat
        let narrow := kind == 1
        let sh := shapeOperand (c.readS ss) narrow
        let off (d : Desc) (a : BitVec 4) : Bool := match d.coords (c.readA a).toNat with | some q => !mxAligned d q | none => false
        if !c.mayReadTensor xh o.fill || !c.mayReadTensor wh o.fill then c.issueFault 0x2013 o
        else if kpassOf dx.fmt = 0 || kpassOf dx.fmt != kpassOf dw.fmt then c.issueFault 0x200C o
        else if t < c.step.arrayFree || t < c.step.bankFree0 || t < c.step.bankFree1 then c.issueFault 0x200D o
        else if !sh.ok || ((fmtIsMx dx.fmt || fmtIsMx dw.fmt) && sh.k % 32 != 0) || off dx ax || off dw aw then c.issueFault 0x200F o
        else if !c.rangeOk narrow sh.base (sh.base + ceilDiv sh.m 16 * sh.n - 1) then c.issueFault 0x2005 o
        else
          let op0 : TileOp := { issued := t, xh := xh, ax := c.readA ax, wh := wh, aw := c.readA aw, m := sh.m, n := sh.n, k := sh.k, base := sh.base, narrow := narrow, ovw := ovw == 1
                                kpass := kpassOf dx.fmt, load := 1, cost := 1, free := 0, ready := 0, pass := 0, origin := o }
          let op1 := { op0 with load := c.tileLoadTime op0, cost := c.tileColumnCost op0 }
          let last := (op1.times.getLast?.getD (t, t)).2
          let op2 := { op1 with free := last + op1.n * op1.cost, ready := last + 13 + (op1.n - 1) * op1.cost }
          match c.portClash env (c.tilePorts op2) with
          | some f => c.fault 0x2016 o (BitVec.ofNat 64 (xh.toNat + (c.readA ax).toNat * 2 ^ 32)) 0 (BitVec.ofNat 64 f)
          | none =>
            let c := c.claimPorts (c.tilePorts op2)
            let c := ({ c.heatUp env op2.free op2.ready with step.tile := some op2, step.tileOld := c.step.tile } : CoreState)
            let c := [false, true].foldl (fun (c : CoreState) b => match op2.bankFree b with | some f => c.setBankFree b f | none => c) c
            op2.times.zipIdx.foldl (fun (c : CoreState) p => (c.push p.1.1 (.passLoad p.2)).push p.1.2 (.passStream p.2)) c)
    | _ => c)

/-- MANCHOR (R119, R120): the group changes in the next fc, after the issues of that fc, so that a matrix operation issued in it still sees the earlier kind and anchor (DESIGN CHOICE, log entry 107). -/
def execManchor (i : Issue) (w : BitVec 44) (s : State) : Host.Outcome State Fault Refusal :=
  matrixCommand s i 0x4 w (fun _ op o c =>
    match op with
    | .manchor group kind anchor =>
      let g := group.toNat
      let narrow := (c.group g).narrow
      let size := if narrow then 64 else 32
      if c.runningRange c.step.offset narrow (g * size) (g * size + size - 1) then c.issueFault 0x200E o
      else c.push (c.step.offset + 1) (.anchor g (kind == 1) anchor)
    | _ => c)

/-- MREAD (R149 to R151): entries are read at the end of the issue fc, the register is written at t + 3. -/
def execMread (i : Issue) (w : BitVec 44) (s : State) : Host.Outcome State Fault Refusal :=
  matrixCommand s i 0x5 w (fun env op o c =>
    match op with
    | .mread vd row entry shift mode sreg kind =>
      let sr : BitVec 5 := shift.setWidth 5
      let narrow := kind == 1
      let e := entry.toNat
      c.withRegs o (if sreg = 1 then [(.s, sr.toNat)] else []) [(.v, vd.toNat)] (fun c =>
        let t := c.step.offset
        if !c.rangeOk narrow e (e + 31) then c.issueFault 0x2005 o
        else if (List.range 32).any (fun j => c.entryPending t narrow row.toNat (e + j)) then c.issueFault 0x200E o
        else
          c.withClaims o [(.v, vd.toNat)] (t + 3) (fun c =>
            let dr := c.drawLanes env mode 0
            dr.2.push t (.accRead vd row.toNat e (if sreg = 1 then fieldOf (c.readS sr) 0 7 else shift.toNat) mode narrow dr.1 o)))
    | _ => c)

/-- MPROBE (R152 to R154): the snapshot is taken at the end of the issue fc, the register is written at t + 17. -/
def execMprobe (i : Issue) (w : BitVec 44) (s : State) : Host.Outcome State Fault Refusal :=
  matrixCommand s i 0x6 w (fun _ op o c =>
    match op with
    | .mprobe group sd clear =>
      let g := group.toNat
      let narrow := (c.group g).narrow
      let size := if narrow then 64 else 32
      c.withRegs o [] [(.s, sd.toNat)] (fun c =>
        let t := c.step.offset
        if (List.range 16).any (fun row => (List.range size).any (fun j => c.entryPending t narrow row (g * size + j))) then c.issueFault 0x200E o
        else c.withClaims o [(.s, sd.toNat)] (t + 17) (fun c => c.push t (.accProbe g sd (clear == 1) o)))
    | _ => c)

/-- MTILE_PASS (R125): the core runs to the end of the fc of its next pass load or stream. -/
def execMtilePass (cid : CoreId) (s : State) : Host.Outcome State Fault Refusal :=
  coreCommand s cid (fun env c => c.runThrough env (fun e => match e with | .passLoad _ => true | .passStream _ => true | _ => false))

/-- MSTREAM_COLUMN (R114, R116): the core runs to the end of the fc in which the next column's reads begin. -/
def execMstreamColumn (cid : CoreId) (s : State) : Host.Outcome State Fault Refusal :=
  coreCommand s cid (fun env c => c.runThrough env (fun e => match e with | .column _ k => k == 0 | _ => false))

/-- CONTRIBUTION_LANDS (R126, R140): the core runs to the end of the fc of its next contribution. -/
def execContributionLands (cid : CoreId) (s : State) : Host.Outcome State Fault Refusal :=
  coreCommand s cid (fun env c => c.runThrough env (fun e => match e with | .contribution _ => true | _ => false))

/-- RESIDUE_CHECK_EVENT (R131, R132): counted, and a column test falls due at the restart of a retried step or at the next bell; `chaff` says no matrix operation was in it. -/
def execResidueCheckEvent (cid : CoreId) (chaff : Bool) (s : State) : Host.Outcome State Fault Refusal :=
  if !s.hasCore cid then .fault .noSuchCore
  else
    .next (s.modCore cid (fun c =>
      { c with array.checks := satAdd c.array.checks 1, checkPending := some (match c.checkPending with | some k => (chaff && k.1, if chaff || !k.1 then k.2 else c.step.offset) | none => (chaff, c.step.offset)) }))

/-- COLUMNS marked failed (R129, R130): bit f of COLENABLE is cleared and the lowest healthy, unenabled bit above f is set; `none` when no such bit is left. -/
def ArrayMap.replace (a : ArrayMap) (f : Nat) : Option ArrayMap :=
  let bad := a.bad ||| BitVec.ofNat 34 (2 ^ f)
  let live := BitVec.ofNat 2 (min 3 (a.live.toNat + 1))
  let en := a.colEnable &&& ~~~(BitVec.ofNat 34 (2 ^ f))
  match (List.range 34).find? (fun k => f < k && !bad.getLsbD k && !a.colEnable.getLsbD k) with
  | some k => some { colEnable := en ||| BitVec.ofNat 34 (2 ^ k), bad := bad, live := live }
  | none => none

end Sys2Proof.Machine
end

