-- ==== Sys2Proof/Machine/LoadStore.lean ====
section
/-! DEFINITION. The load and store slots (R239 to R245), what lands from them, held fill work (R207) and the patrol scrub (R228): one meaning per command. -/

namespace Sys2Proof.Machine

/-- A load-slot command: BAD_BUNDLE where the word does not decode (R239). -/
def loadCommand (s : State) (i : Issue) (opc : BitVec 4) (w : BitVec 32) (act : Env → LoadOp → Origin → CoreState → CoreState) : Host.Outcome State Fault Refusal :=
  slotCommand s i 4 ((opc ++ w : BitVec 36).setWidth 64) (fun env o c =>
    match decodeLoad (opc ++ w) with
    | some op => act env op o c
    | none => c.issueFault 0x2007 o)

/-- A store-slot command: BAD_BUNDLE where the word does not decode (R239). -/
def storeCommand (s : State) (i : Issue) (opc : BitVec 4) (w : BitVec 32) (act : Env → StoreOp → Origin → CoreState → CoreState) : Host.Outcome State Fault Refusal :=
  slotCommand s i 5 ((opc ++ w : BitVec 36).setWidth 64) (fun env o c =>
    match decodeStore (opc ++ w) with
    | some op => act env op o c
    | none => c.issueFault 0x2007 o)

/-- An access of a load or store as its issue judges it: its handle, whether it writes, whether the format check of R240 passed, the failure of its position, the failure of its bytes, its port claims and its element position. -/
structure AccessJudged where
  handle : Nat
  write : Bool
  fmtOk : Bool
  place : Option Bad
  bytes : Option Bad
  ports : List PortClaim
  pos : Nat
  deriving DecidableEq, Repr

/-- Whether a fill-stream access would be held in the fc of its first read or write (R207). -/
def CoreState.heldFirst (c : CoreState) (env : Env) (o : Origin) (ports : List PortClaim) : Bool :=
  match o.fill, ports with
  | true, p :: _ => c.fillHeld env p.fc { reads := p.reads, writes := p.writes }
  | _, _ => false

/-- Judges an access of a load or store and its port claims in the order of R244, then its register write of fc `fc`, and last claims the ports; `act` is told whether the access is held from its first fc, whose byte checks then move with it (R167, R193, R207, R243). -/
def CoreState.withAccess (c : CoreState) (env : Env) (o : Origin) (a : AccessJudged) (writes : List (RegClass × Nat)) (fc : Nat) (act : Bool → CoreState → CoreState) : CoreState :=
  let held := c.heldFirst env o a.ports
  if !c.mayAccess a.handle o.fill a.write then c.issueFault 0x2013 o
  else if !a.fmtOk then c.issueFault 0x200C o
  else
    match worst (a.place.toList ++ (if held then [] else a.bytes.toList)) with
    | some b => c.accessFault b o
    | none =>
      match (if o.fill then none else c.portClash env a.ports) with
      | some f => c.fault 0x2016 o (BitVec.ofNat 64 (a.handle + a.pos % 2 ^ 32 * 2 ^ 32)) 0 (BitVec.ofNat 64 f)
      | none => c.withClaims o writes fc (fun c => act held (c.claimFor o.fill a.ports))

/-- The failure of a raw access's position, and its handle byte offset where it has one (R231, R233, R240). -/
def CoreState.rawPlace (c : CoreState) (h : BitVec 6) (a : BitVec 32) (off : Int) : Option Bad × Option Nat :=
  match c.rawOffset h.toNat a off with
  | .ok b => (none, some b)
  | .error e => (some e, none)

/-- The handle byte offsets of `n` bytes from `b` on; none without a place. -/
def offsFrom (b : Option Nat) (n : Nat) : List Nat :=
  match b with
  | some b => (List.range n).map (fun i => b + i)
  | none => []

/-- A position as reports name it. -/
def posOf (a : BitVec 32) (off : Int) : Nat := ((a.toNat : Int) + off).toNat

/-- LDV and LDS (R240, R241): `n` bytes, read in t + 1, written at t + 4. -/
def CoreState.rawLoad (c : CoreState) (env : Env) (o : Origin) (vec : Bool) (d : BitVec 5) (h : BitVec 6) (ar : BitVec 4) (off : Int) : CoreState :=
  let dest : RegClass × Nat := (if vec then .v else .s, d.toNat)
  c.withRegs o [(.a, ar.toNat)] [dest] (fun c =>
    let t := c.step.offset
    let pos := posOf (c.readA ar) off
    let r := c.rawPlace h (c.readA ar) off
    let offs := offsFrom r.2 (if vec then 128 else 8)
    c.withAccess env o
      { handle := h.toNat, write := false, fmtOk := fmtWidth (c.descOf h.toNat).fmt != 0, place := r.1, bytes := c.checkBytes h.toNat false pos offs
        ports := [{ fc := t + 1, reads := (linesOf (c.offBytes h offs)).length, writes := 0 }], pos := pos }
      [dest] (t + 4) (fun held c => c.push (t + 1) (.rawRead { vec := vec, reg := d, handle := h, pos := pos, offs := offs, held := held, origin := o })))

/-- The handle byte offsets of 32 lanes at P advanced by i * STEP along a dimension; an error where a coordinate reaches its size (R233, R240, R245). -/
def CoreState.strided (c : CoreState) (h : Nat) (p dim step : Nat) : Except Bad (List Nat) :=
  let d := c.descOf h
  match d.coords p with
  | none => .error (Bad.bounds h p)
  | some cs =>
    match (List.range 32).mapM (fun i => d.advance cs dim (i * step)) with
    | some l => .ok (l.map (fun q => d.bitOffset q / 8))
    | none => .error (Bad.bounds h p)

/-- Whether elements may be moved lane by lane: widths 8, 16 and 32 (R240). -/
def laneFormat (f : BitVec 4) : Bool := fmtWidth f == 8 || fmtWidth f == 16 || fmtWidth f == 32

/-- The check of the bytes of strided lanes (R243). -/
def CoreState.checkStrided (c : CoreState) (h p : Nat) (write : Bool) (r : Except Bad (List Nat)) : Option Bad :=
  match r with
  | .error _ => none
  | .ok l => c.checkBytes h write p (l.flatMap (fun b => bytesOfBits (8 * b) (fmtWidth (c.descOf h).fmt)))

/-- The failure of strided lanes to have a place. -/
def stridedBad (r : Except Bad (List Nat)) : Option Bad :=
  match r with
  | .error b => some b
  | .ok _ => none

/-- The lanes of a strided access: the position of the operation and each lane's handle byte offset. -/
def stridedLanes (p : Nat) (r : Except Bad (List Nat)) : List (Option (Nat × Nat)) :=
  match r with
  | .error _ => []
  | .ok l => l.map (fun b => some (p, b))

/-- Four line reads in each of eight fc from `f` (R241). -/
def lanePorts (f : Nat) : List PortClaim := (List.range 8).map (fun j => { fc := f + j, reads := 4, writes := 0 })

/-- Two line writes in each of sixteen fc from `f` (R241). -/
def storePorts (f : Nat) : List PortClaim := (List.range 16).map (fun j => { fc := f + j, reads := 0, writes := 2 })

/-- The index read of LDVG and STVG (R240): the handle byte offsets of the 32 indices of IH at AR to AR + 31, or the failure. -/
def CoreState.indexOffs (c : CoreState) (ih p : Nat) : Except Bad (List Nat) :=
  let d := c.descOf ih
  match (List.range 32).mapM (fun i => d.coords (p + i)) with
  | none => .error (Bad.bounds ih p)
  | some l => if p + 31 > 0xFFFFFFFF then .error (Bad.bounds ih p) else .ok (l.flatMap (fun q => bytesOfBits (d.bitOffset q) 32))

/-- LDVG and STVG up to their index check (R240, R241, R243). -/
def CoreState.indexedAccess (c : CoreState) (env : Env) (o : Origin) (load : Bool) (r : BitVec 5) (h : BitVec 6) (ar : BitVec 4) (ih : BitVec 6) (sx : Bool) : CoreState :=
  c.withRegs o ([(.a, ar.toNat)] ++ (if load then [] else [(.v, r.toNat)])) (if load then [(.v, r.toNat)] else []) (fun c =>
    let t := c.step.offset
    let p := (c.readA ar).toNat
    let idx := c.indexOffs ih.toNat p
    let offs := match idx with | .ok b => b | .error _ => []
    let place := if !(c.handle h.toNat).valid then some (Bad.bounds h.toNat p) else match idx with | .ok _ => none | .error b => some b
    if !c.mayAccess ih.toNat o.fill false then c.issueFault 0x2013 o
    else
      c.withAccess env o
        { handle := h.toNat, write := !load, fmtOk := laneFormat (c.descOf h.toNat).fmt && (c.descOf ih.toNat).fmt == 2, place := place, bytes := c.checkBytes ih.toNat false p offs
          ports := ({ fc := t + 1, reads := (linesOf (c.offBytes ih offs)).length, writes := 0 } : PortClaim) :: (if load then lanePorts (t + 3) else storePorts (t + 3)), pos := p }
        (if load then [(.v, r.toNat)] else []) (t + 14) (fun held c =>
          c.push (t + 1) (.indexRead { load := load, reg := r, handle := h, idxHandle := ih, idxPos := p, idxOffs := offs, signExt := sx, idx := [], src := if load then {} else c.readV r, held := held, origin := o })))

/-- LNOP (R239). -/
def execLnop (i : Issue) (w : BitVec 32) (s : State) : Host.Outcome State Fault Refusal :=
  loadCommand s i 0x0 w (fun _ _ _ c => c)

/-- LDV (R240, R241). -/
def execLdv (i : Issue) (w : BitVec 32) (s : State) : Host.Outcome State Fault Refusal :=
  loadCommand s i 0x1 w (fun env op o c =>
    match op with
    | .ldv d h ar off => c.rawLoad env o true d h ar off.toInt
    | _ => c)

/-- LDS (R240, R241). -/
def execLds (i : Issue) (w : BitVec 32) (s : State) : Host.Outcome State Fault Refusal :=
  loadCommand s i 0x2 w (fun env op o c =>
    match op with
    | .lds d h ar off => c.rawLoad env o false d h ar off.toInt
    | _ => c)

/-- LDVS (R240, R241). -/
def execLdvs (i : Issue) (w : BitVec 32) (s : State) : Host.Outcome State Fault Refusal :=
  loadCommand s i 0x3 w (fun env op o c =>
    match op with
    | .ldvs d h ar dim sx step =>
      if (c.descOf h.toNat).rank ≤ dim.toNat then c.issueFault 0x2007 o
      else
        c.withRegs o [(.a, ar.toNat)] [(.v, d.toNat)] (fun c =>
          let t := c.step.offset
          let p := (c.readA ar).toNat
          let ds := c.descOf h.toNat
          let r := c.strided h.toNat p dim.toNat step.toNat
          c.withAccess env o
            { handle := h.toNat, write := false, fmtOk := laneFormat ds.fmt, place := stridedBad r, bytes := c.checkStrided h.toNat p false r, ports := lanePorts (t + 1), pos := p }
            [(.v, d.toNat)] (t + 12) (fun held c =>
              c.push (t + 1) (.gather { reg := d, handle := h, lanes := stridedLanes p r, width := fmtWidth ds.fmt, signExt := sx == 1, acc := {}, held := held, origin := o } 0)))
    | _ => c)

/-- LDVG (R240, R241, R243). -/
def execLdvg (i : Issue) (w : BitVec 32) (s : State) : Host.Outcome State Fault Refusal :=
  loadCommand s i 0x4 w (fun env op o c =>
    match op with
    | .ldvg d h ar ih sx => c.indexedAccess env o true d h ar ih (sx == 1)
    | _ => c)

/-- SNOPST (R239). -/
def execSnopst (i : Issue) (w : BitVec 32) (s : State) : Host.Outcome State Fault Refusal :=
  storeCommand s i 0x0 w (fun _ _ _ c => c)

/-- The writes of a raw store by fc: the first two lines touched in `t + 2`, a third in `t + 3` (R241). -/
def storeByFc (bs : List WByte) : List (List WByte) :=
  let ls := linesOf (bs.map (·.addr))
  let first := ls.take 2
  [bs.filter (fun b => first.contains (b.addr / 64)), bs.filter (fun b => !first.contains (b.addr / 64))].filter (fun l => !l.isEmpty)

/-- Line writes of a raw store by fc. -/
def storeClaims (t : Nat) (ws : List (List WByte)) : List PortClaim :=
  ws.zipIdx.map (fun p => { fc := t + 2 + p.2, reads := 0, writes := (linesOf (p.1.map (·.addr))).length })

/-- The writes of a raw store are on their way from fc `first`: main-stream writes in their fc, fill-stream writes one after another with the position and handle byte offset of each byte (R207, R241). `places` gives each byte's handle offset and scratchpad byte. -/
def CoreState.storeBytes (c : CoreState) (first : Nat) (h : BitVec 6) (pos : Nat) (places : List (Nat × Nat)) (ws : List (List WByte)) (held : Bool) (o : Origin) : CoreState :=
  if o.fill then
    let offsOf (bs : List WByte) : List (Nat × Nat) := (places.filter (fun p => (linesOf (bs.map (·.addr))).contains (p.2 / 64))).map (fun p => (pos, p.1))
    c.push first (.fillStore { handle := h, writes := ws.map (fun bs => (bs, offsOf bs)), held := held, origin := o })
  else ws.zipIdx.foldl (fun (c : CoreState) p => c.push (first + p.2) (.write p.1 false o)) c

/-- STV and STS (R225, R240, R241): bytes of the source register from handle offset of P onward; a scalar store writes unbruised. -/
def CoreState.rawStore (c : CoreState) (env : Env) (o : Origin) (src : RegClass × Nat) (h : BitVec 6) (ar : BitVec 4) (off : Int) (data : CoreState → List (Byte × Bool)) : CoreState :=
  c.withRegs o [(.a, ar.toNat), src] [] (fun c =>
    let t := c.step.offset
    let pos := posOf (c.readA ar) off
    let r := c.rawPlace h (c.readA ar) off
    let offs := offsFrom r.2 (data c).length
    let ws := storeByFc (((c.offBytes h offs).zip (data c)).map (fun p => { addr := p.1, val := p.2.1, bruise := p.2.2 }))
    c.withAccess env o
      { handle := h.toNat, write := true, fmtOk := fmtWidth (c.descOf h.toNat).fmt != 0, place := r.1, bytes := c.checkBytes h.toNat true pos offs, ports := storeClaims t ws, pos := pos }
      [] t (fun held c => c.storeBytes (t + 2) h pos (offs.zip (c.offBytes h offs)) ws held o))

/-- STV (R240, R241). -/
def execStv (i : Issue) (w : BitVec 32) (s : State) : Host.Outcome State Fault Refusal :=
  storeCommand s i 0x1 w (fun env op o c =>
    match op with
    | .stv vs h ar firstw nw off =>
      c.rawStore env o (.v, vs.toNat) h ar off.toInt (fun c =>
        (List.range (8 * (nw.toNat + 1))).map (fun j => let b := 8 * firstw.toNat + j; ((c.readV vs).byte b, (c.readV vs).bruise.getLsbD (b / 4))))
    | _ => c)

/-- STS (R240, R241). -/
def execSts (i : Issue) (w : BitVec 32) (s : State) : Host.Outcome State Fault Refusal :=
  storeCommand s i 0x2 w (fun env op o c =>
    match op with
    | .sts ss h ar off =>
      c.rawStore env o (.s, ss.toNat) h ar off.toInt (fun c => (List.range 8).map (fun j => ((c.readS ss).extractLsb' (8 * j) 8, false)))
    | _ => c)

/-- STVS (R240 to R242). -/
def execStvs (i : Issue) (w : BitVec 32) (s : State) : Host.Outcome State Fault Refusal :=
  storeCommand s i 0x3 w (fun env op o c =>
    match op with
    | .stvs vs h ar dim step =>
      if (c.descOf h.toNat).rank ≤ dim.toNat then c.issueFault 0x2007 o
      else
        c.withRegs o [(.a, ar.toNat), (.v, vs.toNat)] [] (fun c =>
          let t := c.step.offset
          let p := (c.readA ar).toNat
          let ds := c.descOf h.toNat
          let r := c.strided h.toNat p dim.toNat step.toNat
          c.withAccess env o
            { handle := h.toNat, write := true, fmtOk := laneFormat ds.fmt, place := stridedBad r, bytes := c.checkStrided h.toNat p true r, ports := storePorts (t + 2), pos := p }
            [] t (fun held c => c.storePairs (t + 2) h (c.readV vs) (stridedLanes p r) held o))
    | _ => c)

/-- STVG (R240 to R243). -/
def execStvg (i : Issue) (w : BitVec 32) (s : State) : Host.Outcome State Fault Refusal :=
  storeCommand s i 0x4 w (fun env op o c =>
    match op with
    | .stvg vs h ar ih => c.indexedAccess env o false vs h ar ih false
    | _ => c)

/-- RESULT_WRITE_LANDS (R166, R196, R241): the core runs to the end of the fc of its next result. -/
def execResultWriteLands (cid : CoreId) (s : State) : Host.Outcome State Fault Refusal :=
  coreCommand s cid (fun env c => c.runThrough env (fun e => match e with | .result _ _ => true | _ => false))

/-- STORE_WRITE_LANDS (R227, R241): the core runs to the end of the fc of its next store write. -/
def execStoreWriteLands (cid : CoreId) (s : State) : Host.Outcome State Fault Refusal :=
  coreCommand s cid (fun env c => c.runThrough env (fun e => match e with | .write _ _ _ => true | .fillStore _ => true | _ => false))

/-- FILL_OP_RESUMES (R207): the core runs to the end of the fc of its next fill-stream access. -/
def execFillOpResumes (cid : CoreId) (s : State) : Host.Outcome State Fault Refusal :=
  coreCommand s cid (fun env c => c.runThrough env (fun e => e.fillAccess.1 || e.fillAccess.2))

/-! ### Patrol scrub (R228) -/

/-- PATROL_SCRUB_READ (R228): `dt` fc on, in a fc with a free read port, the next line is read; a line with nothing to do is passed. -/
def execPatrolScrubRead (cid : CoreId) (dt : Nat) (s : State) : Host.Outcome State Fault Refusal :=
  coreCommand s cid (fun env c =>
    let c := c.runTo env (c.step.offset + dt)
    if c.scrub.waiting || !c.scrubMayRead env then c
    else if (c.scrubWork c.scrub.line).isEmpty then { c with scrub.line := (c.scrub.line + 1) % 24576 }
    else { c with scrub := { line := c.scrub.line, waiting := true, readFc := c.step.offset, touched := false } })

/-- PATROL_SCRUB_WRITEBACK (R228): `dt` fc on, in a fc after the read with a free write port, the words are written back at the end of that fc, or the write-back is dropped when a write touched the line. -/
def execPatrolScrubWriteback (cid : CoreId) (dt : Nat) (s : State) : Host.Outcome State Fault Refusal :=
  coreCommand s cid (fun env c =>
    let c := c.runTo env (c.step.offset + dt)
    let due := c.step.events.any (fun e => e.ev == .scrubWrite)
    if !c.scrub.waiting || due || c.step.offset ≤ c.scrub.readFc || !c.scrubMayWrite env then c else c.push c.step.offset .scrubWrite)

end Sys2Proof.Machine
end

