-- ==== Sys2Proof/Machine/Sync.lean ====
section
/-! DEFINITION. The sync slot, tallies, waits, rings, the commons and barrier groups as a core meets them (R246 to R282). -/

namespace Sys2Proof.Machine

/-- The sync slot's word. -/
def syncWord (opc : BitVec 5) (w : BitVec 27) : Word := (opc ++ w : BitVec 32).setWidth 64

/-- A sync-slot command that never waits: BAD_BUNDLE where the word does not decode (R248). -/
def syncCommand (s : State) (i : Issue) (opc : BitVec 5) (w : BitVec 27) (act : Env → SyncOp → Origin → CoreState → CoreState) : Host.Outcome State Fault Refusal :=
  slotCommand s i 6 (syncWord opc w) (fun env o c =>
    match decodeSync (opc ++ w) with
    | some op => act env op o c
    | none => c.issueFault 0x2007 o)

/-- A bundle is held: the main stream waits, from the fc of its first holding (R192, R252). -/
def CoreState.hold (c : CoreState) (h : BundleHead) (object : Option (BitVec 16)) : CoreState :=
  { c with step.main := { c.step.main with cancelled := true, waiting := true, waitFrom := c.step.offset, header := h.header, waitObject := object, waitWord := h.sync } }

/-- Whether a wait's bundle may issue in the present fc: its condition holds, or, where it is not already held, it faults whatever the condition (R252). -/
def CoreState.waitReady (c : CoreState) (exempt : SyncOp → CoreState → Bool) (word : BitVec 32) : Bool :=
  match decodeSync word with
  | some op => c.syncReady op || (!c.step.main.waiting && exempt op c)
  | none => true

/-- A sync-slot command that waits (R252): it comes first of its bundle's commands (log entry 12). While its condition does not hold, the bundle is held; in the first fc in which it holds, the bundle issues. `exempt` names the operations that fault at issue whatever their condition, and `object` what a commons wait is on. -/
def waitCommand (s : State) (i : Issue) (opc : BitVec 5) (w : BitVec 27) (exempt : SyncOp → CoreState → Bool) (object : SyncOp → Option (BitVec 16))
    (act : Env → SyncOp → Origin → CoreState → CoreState) : Host.Outcome State Fault Refusal :=
  coreCommand s i.core (fun env c =>
    let run (c : CoreState) : CoreState :=
      c.inBundle env { i with head := none } 6 (syncWord opc w) (fun o c =>
        match decodeSync (opc ++ w) with
        | some op => if c.syncReady op || exempt op c then act env op o c else c
        | none => c.issueFault 0x2007 o)
    match i.head with
    | none => run c
    | some h =>
      let c := c.runTo env (c.step.offset + h.dt)
      if !i.fill && c.mayIssue false && (bundleCancels h false c.step.main.next).isNone && !c.waitReady exempt (opc ++ w) then
        c.hold h ((decodeSync (opc ++ w)).bind object)
      else run (c.openBundle env i.fill { h with dt := 0 } (fun c => c.waitReady exempt (opc ++ w))))

/-- SYNOP (R248). -/
def execSynop (i : Issue) (w : BitVec 27) (s : State) : Host.Outcome State Fault Refusal :=
  syncCommand s i 0x00 w (fun _ _ _ c => c)

/-- WAIT's threshold (R248). -/
def CoreState.waitThreshold (c : CoreState) (op : SyncOp) : BitVec 32 :=
  match op with
  | .wait _ _ thr => thr.setWidth 32
  | .waitReg _ _ sa => (c.readS sa).setWidth 32
  | _ => 0

/-- Subtracts from a tally at the end of the fc when SUB is set (R252). -/
def CoreState.waitSub (c : CoreState) (tally : BitVec 6) (sub : BitVec 1) (thr : BitVec 32) : CoreState :=
  if sub = 1 then c.push c.step.offset (.tally tally (-(thr.toNat : Int))) else c

/-- WAIT (R252). -/
def execWait (i : Issue) (w : BitVec 27) (s : State) : Host.Outcome State Fault Refusal :=
  waitCommand s i 0x01 w
    (fun op c =>
      match op with
      | .waitReg _ _ sa => !c.mayUse false (.s, sa.toNat)
      | _ => false)
    (fun _ => none)
    (fun _ op o c =>
      match op with
      | .wait tally sub _ => c.waitSub tally sub (c.waitThreshold op)
      | .waitReg tally sub sa => c.withRegs o [(.s, sa.toNat)] [] (fun c => c.waitSub tally sub (c.waitThreshold op))
      | _ => c)

/-- TEST (R251). -/
def execTest (i : Issue) (w : BitVec 27) (s : State) : Host.Outcome State Fault Refusal :=
  syncCommand s i 0x02 w (fun _ op o c =>
    match op with
    | .test tally sd => c.scalarResult o [] sd 1 ((c.tally tally).setWidth 64) false
    | _ => c)

/-- A local change of a tally in the issue fc (R247, R250). -/
def CoreState.tallyAdd (c : CoreState) (tally : BitVec 6) (neg : BitVec 1) (amt : Nat) : CoreState :=
  c.push c.step.offset (.tally tally (if neg = 1 then -(amt : Int) else amt))

/-- TADD (R247). -/
def execTadd (i : Issue) (w : BitVec 27) (s : State) : Host.Outcome State Fault Refusal :=
  syncCommand s i 0x03 w (fun _ op o c =>
    match op with
    | .tadd tally neg amt => c.tallyAdd tally neg amt.toNat
    | .taddReg tally neg sa => c.withRegs o [(.s, sa.toNat)] [] (fun c => c.tallyAdd tally neg (fieldOf (c.readS sa) 0 32))
    | _ => c)

/-- The core and the module of a destination. -/
def Dest.split : Dest → CoreId × Option (BitVec 12)
  | .here c => (c, none)
  | .away m c => (c, some m)

/-- SIG (R249, R254, R294): DEST_RANGE, then NO_SLOT; else one flit leaves in the next fc in the SIG train's slot. -/
def execSig (i : Issue) (w : BitVec 27) (s : State) : Host.Outcome State Fault Refusal :=
  syncCommand s i 0x04 w (fun env op o c =>
    match op with
    | .sig sa =>
      c.withRegs o [(.s, sa.toNat)] [] (fun c =>
        let v := c.readS sa
        match (if fieldOf v 54 10 != 0 then none else env.dest.resolve (v.extractLsb' 0 32)) with
        | none => c.issueFault 0x200A o
        | some d =>
          match c.tables.sigTrain c.step.offset with
          | none => c.issueFault 0x201D o
          | some tr =>
            let f : FlitOut := { dest := d.split.1, destModule := d.split.2, ready := c.step.offset + 1, link1 := tr.2.link1, order := tr.1, firing := 0, site := o.site
                                 kind := .sig (v.extractLsb' 32 6) (fieldOf v 38 16) }
            { c with traffic.outbox := c.traffic.outbox ++ [f] })
    | _ => c)

/-! ### Barrier groups (R256 to R260) -/

/-- Whether a plot-relative core is a member of group `g` (R257). -/
def Plot.isMember (p : Plot) (g : Nat) (y x : Nat) : Bool :=
  bitOf (AMap.get 0 p.bar (3 * g + 2)) 6 && bitOf (AMap.get 0 p.bar (3 * g)) y && bitOf (AMap.get 0 p.bar (3 * g + 1)) x

/-- The cores of a plot in this module. -/
def Plot.cores (p : Plot) : List CoreId :=
  (List.range p.place.rows.toNat).flatMap (fun y => (List.range p.place.cols.toNat).map (fun x => coreAt (p.place.originY.toNat + y) (p.place.originX.toNat + x)))

/-- The members of a group (R257). -/
def Plot.members (p : Plot) (g : Nat) : List CoreId :=
  p.cores.filter (fun c => p.isMember g (rowOf c - p.place.originY.toNat) (colOf c - p.place.originX.toNat))

/-- The round of group `g` that the core arrives at next, as a key of the plot's rounds. -/
def CoreState.roundKey (c : CoreState) (g : Nat) : Nat := 64 * AMap.get 0 c.work.rounds g + g

/-- Opens a bundle for a command that also acts outside the core: the state, and the operation when the bundle issues and its word decodes. -/
def openSync (s : State) (i : Issue) (opc : BitVec 5) (w : BitVec 27) : State × Option (Origin × SyncOp) :=
  let s := s.onCore i.core (fun env c =>
    c.inBundle env i 6 (syncWord opc w) (fun o c => if (decodeSync (opc ++ w)).isSome then c else c.issueFault 0x2007 o))
  let c := s.core i.core
  if c.bundleLive i.fill then (s, (decodeSync (opc ++ w)).map (fun op => ((c.stream i.fill).origin i.fill 6 (syncWord opc w), op))) else (s, none)

/-- A sync-slot command that acts outside the core as well. -/
def outerCommand (s : State) (i : Issue) (opc : BitVec 5) (w : BitVec 27) (act : State → SyncOp → Origin → State) : Host.Outcome State Fault Refusal :=
  if !s.hasCore i.core then .fault .noSuchCore
  else if !(s.env i.core).running then .next s
  else
    match openSync s i opc w with
    | (s, some (o, op)) => .next (act s op o)
    | (s, none) => .next s

/-- An issue fault of a core, from outside it. -/
def State.coreFault (s : State) (cid : CoreId) (code : Code) (o : Origin) : State := s.modCore cid (fun c => c.issueFault code o)

/-- BAR (R258, R260). -/
def execBar (i : Issue) (w : BitVec 27) (s : State) : Host.Outcome State Fault Refusal :=
  outerCommand s i 0x05 w (fun s op o =>
    match op with
    | .bar group =>
      let c := s.core i.core
      let fn := c.owner.getD 0
      let p := s.plot fn
      let g := group.toNat
      let n := AMap.get 0 c.work.rounds g
      let before := AMap.get {} p.rounds (64 * (n - 1) + g)
      let open1 := n != 0 && before.arrivals.any (fun a => a.1 == i.core.toNat) && !before.landed.getLsbD (fieldOfCore i.core).toNat
      if !p.isMember g c.featY.toNat c.featX.toNat || open1 then s.coreFault i.core 0x2018 o
      else
        let r := AMap.get {} p.rounds (c.roundKey g)
        let s := s.setPlot fn { p with rounds := AMap.set p.rounds (c.roundKey g) { r with arrivals := r.arrivals ++ [(i.core.toNat, c.step.offset)] } }
        s.modCore i.core (fun c => { c with work.rounds := AMap.put 0 c.work.rounds g (n + 1) })
    | _ => s)

/-! ### Posted and active messages (R261, R262, R271) -/

/-- The words of a message and which are bruised (R248, R261). -/
def CoreState.messageWords (c : CoreState) (src : BitVec 5) (count : Nat) (vec : Bool) : List (Word × Bool) :=
  (List.range (count + 1)).map (fun j =>
    if vec then
      let v := c.readV src
      (v.bits.extractLsb' (64 * j) 64, v.bruise.getLsbD (2 * j) || v.bruise.getLsbD (2 * j + 1))
    else (c.readS (src + BitVec.ofNat 5 j), false))

/-- The header of R262. -/
def messageHeader (x y : BitVec 6) (module : BitVec 12) (count : BitVec 2) (tag : BitVec 16) (words : List (Word × Bool)) : Word :=
  let bruise := BitVec.ofNat 4 (words.zipIdx.foldl (fun n p => n + b2n p.1.2 * 2 ^ p.2) 0)
  (0#12 ++ bruise ++ tag ++ 0#6 ++ count ++ module ++ y ++ x : BitVec 64)

/-- The entry that a message lands as (R262). -/
def messageEntry (header : Word) (words : List (Word × Bool)) : RingEntry :=
  { line := BitVec.ofNat 512 (((header, false) :: words).foldr (fun w n => w.1.toNat + n * 2 ^ 64) 0)
    bruise := BitVec.ofNat 8 (((header, false) :: words).foldr (fun w n => b2n w.2 + n * 2) 0) }

/-- A message joins the send queue; it leaves from the next fc (R250, R261). -/
def CoreState.enqueue (c : CoreState) (d : Dest) (o : Origin) (kind : FlitKind) : CoreState :=
  let f : FlitOut := { dest := d.split.1, destModule := d.split.2, ready := c.step.offset + 1, link1 := false, order := 0, firing := 0, site := o.site, kind := kind }
  { c with traffic.sendQueue := c.traffic.sendQueue ++ [f] }

/-- POST (R249, R252, R261). -/
def execPost (i : Issue) (w : BitVec 27) (s : State) : Host.Outcome State Fault Refusal :=
  waitCommand s i 0x06 w (fun _ _ => false) (fun _ => none) (fun env op o c =>
    match op with
    | .post src sb count vec =>
      let v := vec == 1
      let regs : List (RegClass × Nat) := if v then [(.v, src.toNat)] else (List.range (count.toNat + 1)).map (fun j => (.s, src.toNat + j))
      c.withRegs o (regs ++ [(.s, sb.toNat)]) [] (fun c =>
        let h := c.readS sb
        match (if fieldOf h 48 16 != 0 then none else env.dest.resolve (h.extractLsb' 0 32)) with
        | none => c.issueFault 0x200A o
        | some d =>
          let ws := c.messageWords src count.toNat v
          let tag : BitVec 16 := h.extractLsb' 32 16
          c.enqueue d o (.posted (h.extractLsb' 32 3) (messageEntry (messageHeader c.featX c.featY env.dest.module count tag ws) ws)))
    | _ => c)

/-- The SELECT result (R249). -/
def selectWord (r : BitVec 3) (tk : BitVec 16) (logsize : Nat) : Word :=
  (0#32 ++ tk ++ 0#1 ++ BitVec.ofNat 12 (tk.toNat % 2 ^ logsize) ++ r : BitVec 64)

/-- SELECT (R252, R266). -/
def execSelect (i : Issue) (w : BitVec 27) (s : State) : Host.Outcome State Fault Refusal :=
  waitCommand s i 0x07 w
    (fun _ _ => false)
    (fun _ => none)
    (fun _ op o c =>
      match op with
      | .select mask rot sd =>
        match c.selectRing mask (rot == 1) with
        | none => c
        | some r =>
          c.withRegs o [] [(.s, sd.toNat)] (fun c =>
            c.withClaims o [(.s, sd.toNat)] (c.step.offset + 1) (fun c =>
              let c := c.result (c.step.offset + 1) (.s sd (selectWord r (c.ringPtr r).tk (c.ring r).logsize)) o
              c.push c.step.offset (.ringMove r true (rot == 1) o)))
      | _ => c)

/-- RELEASE (R266): RING_STATE when RD equals TK. -/
def execRelease (i : Issue) (w : BitVec 27) (s : State) : Host.Outcome State Fault Refusal :=
  syncCommand s i 0x08 w (fun _ op o c =>
    match op with
    | .release ring => if (c.ringPtr ring).rd = (c.ringPtr ring).tk then c.issueFault 0x201A o else c.push c.step.offset (.ringMove ring false false o)
    | _ => c)

/-! ### The commons as a core meets it (R273 to R278, R464) -/

/-- Whether a window word covers a commons tally (R466). -/
def windowCovers (w : Word) (k : Nat) : Bool := bitOf w 25 && !bitOf w 24 && fieldOf w 0 12 ≤ k && k ≤ fieldOf w 0 12 + fieldOf w 12 12

/-- Whether a plot may name commons tally `k` (R464). -/
def Plot.mayTally (p : Plot) (k : Nat) : Bool := (p.commons.cown.map (·.2) ++ p.commons.cgrant.map (·.2)).any (fun w => windowCovers w k)

/-- Whether a plot may put to mailbox `m` (R464). -/
def Plot.mayPut (p : Plot) (fn : Fn) (m : Fn) : Bool := m == fn || (p.commons.cgrant.map (·.2)).any (fun w => bitOf w 25 && bitOf w 24 && fieldOf w 0 8 == m.toNat)

/-- Whether commons tally `k` is orphaned (R278, R464). -/
def Commons.tallyOrphan (m : Commons) (k : Nat) : Bool := (AMap.find m.owner k).isNone

/-- Whether a mailbox is orphaned. -/
def Commons.mailOrphan (m : Commons) (f : Fn) : Bool := !(AMap.get {} m.mail f.toNat).assigned

/-- The former owner of an orphaned object: a tally's as the commons keeps it, a mailbox's the plot whose number it has (R273, R278). -/
def Commons.formerOf (m : Commons) (object : BitVec 16) (mailbox : Fn) : Fn := if object.getLsbD 15 then mailbox else AMap.get 0 m.former (fieldOf object 0 12)

/-- ORPHAN_WAIT with its detail words (R278, R378): a tally, or bit 15 for a mailbox; the former owner. -/
def State.orphanFault (s : State) (cid : CoreId) (object : BitVec 16) (mailbox : Fn) (o : Origin) : State :=
  s.modCore cid (fun c => c.fault 0x2008 o (object.setWidth 64) ((s.commons.formerOf object mailbox).setWidth 64) 0)

/-- A commons request of the running step, or its fault: DEST_RANGE, ORPHAN_WAIT, COMMONS_LIMIT (R273, R274, R278). -/
def State.commonsRequest (s : State) (cid : CoreId) (o : Origin) (allowed orphan : Bool) (object : BitVec 16) (r : CommonsReq) : State :=
  let fn := (s.core cid).owner.getD 0
  if !allowed then s.coreFault cid 0x200A o
  else if orphan then s.orphanFault cid object (r.target.setWidth 8) o
  else if 256 ≤ (s.plot fn).commons.requests.length then s.coreFault cid 0x201C o
  else s.modPlot fn (fun p => { p with commons.requests := p.commons.requests ++ [r] })

/-- CADD (R274). -/
def execCadd (i : Issue) (w : BitVec 27) (s : State) : Host.Outcome State Fault Refusal :=
  outerCommand s i 0x09 w (fun s op o =>
    match op with
    | .cadd k amount =>
      let p := s.plot ((s.core i.core).owner.getD 0)
      s.commonsRequest i.core o (p.mayTally k.toNat) (s.commons.tallyOrphan k.toNat) (k.setWidth 16) { core := i.core, put := false, target := k, value := amount.setWidth 64, accepted := false }
    | _ => s)

/-- CWAIT (R252, R276, R278). -/
def execCwait (i : Issue) (w : BitVec 27) (s : State) : Host.Outcome State Fault Refusal :=
  let p := s.plot ((s.core i.core).owner.getD 0)
  waitCommand s i 0x0A w
    (fun op c =>
      match op with
      | .cwait k sa => !p.mayTally k.toNat || s.commons.tallyOrphan k.toNat || !c.mayUse false (.s, sa.toNat)
      | _ => false)
    (fun op => match op with | .cwait k _ => some (k.setWidth 16) | _ => none)
    (fun _ op o c =>
      match op with
      | .cwait k sa =>
        c.withRegs o [(.s, sa.toNat)] [] (fun c =>
          if !p.mayTally k.toNat then c.issueFault 0x200A o
          else if s.commons.tallyOrphan k.toNat then c.fault 0x2008 o (k.setWidth 64) ((AMap.get (0 : Fn) s.commons.former k.toNat).setWidth 64) 0
          else c)
      | _ => c)

/-- CPUT (R274). -/
def execCput (i : Issue) (w : BitVec 27) (s : State) : Host.Outcome State Fault Refusal :=
  outerCommand s i 0x0B w (fun s op o =>
    match op with
    | .cput m sa =>
      let c := s.core i.core
      let fn := c.owner.getD 0
      if !c.mayUse false (.s, sa.toNat) then s.coreFault i.core 0x2013 o
      else s.commonsRequest i.core o ((s.plot fn).mayPut fn m) (s.commons.mailOrphan m) 0x8000 { core := i.core, put := true, target := m.setWidth 12, value := c.readS sa, accepted := false }
    | _ => s)

/-- CTAKE (R252, R277, R278). -/
def execCtake (i : Issue) (w : BitVec 27) (s : State) : Host.Outcome State Fault Refusal :=
  let fn := (s.core i.core).owner.getD 0
  waitCommand s i 0x0C w
    (fun _ _ => s.commons.mailOrphan fn)
    (fun _ => some 0x8000)
    (fun _ op o c =>
      match op with
      | .ctake sd =>
        if s.commons.mailOrphan fn then c.fault 0x2008 o 0x8000 (fn.setWidth 64) 0
        else
          let t := c.step.offset
          c.withRegs o [] [(.s, sd.toNat)] (fun c =>
            c.withClaims o [(.s, sd.toNat)] (t + 1) (fun c => (c.result (t + 1) (.s sd (c.viewMail.getD 0)) o).push t (.takeMail o)))
      | _ => c)

/-- AMSG (R252, R271). -/
def execAmsg (i : Issue) (w : BitVec 27) (s : State) : Host.Outcome State Fault Refusal :=
  let on := (s.env i.core).amOn
  waitCommand s i 0x0D w (fun _ _ => !on) (fun _ => none) (fun env op o c =>
    match op with
    | .amsg sa sb handler count =>
      let regs : List (RegClass × Nat) := (List.range (count.toNat + 1)).map (fun j => (.s, sb.toNat + j))
      c.withRegs o ((.s, sa.toNat) :: regs) [] (fun c =>
        match env.dest.resolve ((c.readS sa).extractLsb' 0 32) with
        | none => c.issueFault 0x200A o
        | some d =>
          if !env.amOn then c.issueFault 0x201B o
          else
            let ws := c.messageWords sb count.toNat false
            c.enqueue d o (.active { handler := handler, header := messageHeader c.featX c.featY env.dest.module count 0 ws, words := ws.map (·.1) }))
    | _ => c)

/-- HANDLER_START (R272): `dt` fc on, while the main stream does not run, the oldest active message starts its handler; S1 takes the header, S2 to S5 the words, and the handler's first bundle issues in the next fc. -/
def execHandlerStart (cid : CoreId) (dt : Nat) (s : State) : Host.Outcome State Fault Refusal :=
  coreCommand s cid (fun env c =>
    let c := c.runTo env (c.step.offset + dt)
    match c.traffic.amQueue with
    | [] => c
    | m :: rest =>
      if !c.step.main.stopped then c
      else
        let c := { c with traffic.amQueue := rest, step.main := { next := fieldOf (AMap.get 0 c.tables.handler m.handler.toNat) 0 13, issued := true, cancelled := true, curFc := c.step.offset } }
        let c := c.writeS 1 m.header
        (List.range 4).foldl (fun (c : CoreState) j => c.writeS (BitVec.ofNat 5 (2 + j)) (m.words.getD j 0)) c)

/-- ORPHAN_WAIT (R278): a wait held on an orphaned commons object is released, does not issue, and is reported; the fault ends the step's issue and the core's doze (R194, R253). -/
def execOrphanWait (cid : CoreId) (s : State) : Host.Outcome State Fault Refusal :=
  if !s.hasCore cid then .fault .noSuchCore
  else
    let c := s.core cid
    let st := c.step.main
    match st.waiting, st.waitObject with
    | true, some obj =>
      let orphan := if obj.getLsbD 15 then s.commons.mailOrphan (c.owner.getD 0) else s.commons.tallyOrphan (fieldOf obj 0 12)
      if orphan then
        .next ((s.orphanFault cid obj (c.owner.getD 0) (st.origin false 6 (st.waitWord.setWidth 64))).modCore cid (fun c => { c with step.main := { c.step.main with waiting := false, waitObject := none, cancelled := true }, totals.doze := false }))
      else .next s
    | _, _ => .next s

/-- Whether an event is an operation of a slot in flight (R253): what the traffic of other cores, slot tables and channels brings is none. -/
def CoreEv.isOperation : CoreEv → Bool
  | .result _ _ => true
  | .loopInc _ => true
  | .rawRead _ => true
  | .gather _ _ => true
  | .indexRead _ => true
  | .indexCheck _ => true
  | .write _ landing _ => !landing
  | .tileRead _ => true
  | .passLoad _ => true
  | .passStream _ => true
  | .column _ _ => true
  | .contribution _ => true
  | .merge _ => false
  | .anchor _ _ _ => true
  | .accRead _ _ _ _ _ _ _ _ => true
  | .accProbe _ _ _ _ => true
  | .postedLand _ _ _ _ => false
  | .ringMove _ _ _ _ => true
  | .takeMail _ => true
  | .fillStore _ => true
  | .scrubWrite => false
  | .tally _ _ => false
  | .lineRead _ _ _ => false
  | .partialRead _ _ _ _ _ _ => false
  | .sourceRead _ => false

/-- DOZE_ENTRY (R253): the main stream has held its bundle for 4,096 fc, no slot operation is in flight, and the fill stream does not run. -/
def execDozeEntry (cid : CoreId) (dt : Nat) (s : State) : Host.Outcome State Fault Refusal :=
  coreCommand s cid (fun env c =>
    let c := c.runTo env (c.step.offset + dt)
    if c.step.main.waiting && !c.waitHolds && c.step.main.waitFrom + 4096 ≤ c.step.offset && !c.step.events.any (fun e => e.ev.isOperation) && !c.arrayRuns c.step.offset && (!c.partitioned || c.step.fill.stopped) then
      { c with totals.doze := true }
    else c)

/-- COMMONS_VIEW_UPDATE (R276): the core's view takes the committed tallies and its plot's mailbox. -/
def execCommonsViewUpdate (cid : CoreId) (s : State) : Host.Outcome State Fault Refusal :=
  if !s.hasCore cid then .fault .noSuchCore
  else
    let mb := AMap.get {} s.commons.mail ((s.core cid).owner.getD 0).toNat
    .next (s.modCore cid (fun c => { c with viewTallies := s.commons.tally, viewMail := if mb.full then some mb.word else none }))

/-- COMMONS_REQUEST_ACCEPTED (R274, R279): the oldest request of the core that has not been accepted reaches the hub. -/
def execCommonsRequestAccepted (cid : CoreId) (s : State) : Host.Outcome State Fault Refusal :=
  if !s.hasCore cid then .fault .noSuchCore
  else
    let accept := fun (p : List CommonsReq × Bool) (r : CommonsReq) =>
      if !p.2 && r.core == cid && !r.accepted then (p.1 ++ [{ r with accepted := true }], true) else (p.1 ++ [r], p.2)
    .next (s.modPlot ((s.core cid).owner.getD 0) (fun p => { p with commons.requests := (p.commons.requests.foldl accept ([], false)).1 }))

/-- CORE.GRANARY (R267): first unit and depth. -/
def CoreState.granary (c : CoreState) : Nat × Nat := (fieldOf c.tables.granary 0 32, fieldOf c.tables.granary 32 16)

/-- Whether a core can take another delivery to spill (R319). -/
def CoreState.spillRoom (c : CoreState) : Bool := c.traffic.spillWait.length < 4

/-- A delivery spills (R267, R270, R282): SPILL and SPILLED rise and it waits for a granary firing, or GRANARY_FULL when SPILL equals DEPTH. -/
def CoreState.spill (c : CoreState) (ring : BitVec 3) (e : RingEntry) (sender : CoreId) (site : BitVec 10) : CoreState :=
  let p := c.ringPtr ring
  let g := c.granary
  if p.spill.toNat = g.2 then c.fault 0x2019 { site := site } 0 0 0
  else
    let n := AMap.get 0 c.work.spills ring.toNat
    let w : SpillWait := { ring := ring, e := e, unit := g.1 + ring.toNat * g.2 + n % g.2, sender := sender }
    let c := c.setRingPtr ring { p with spill := p.spill + 1 }
    { c with
      traffic.spillWait := c.traffic.spillWait ++ [w]
      work.spills := AMap.put 0 c.work.spills ring.toNat (n + 1)
      work.sync.spilled := satAdd c.work.sync.spilled 1 }

/-- Deliveries of the present fc that are still to land in a ring. -/
def CoreState.landingNow (c : CoreState) (ring : BitVec 3) : Nat :=
  (c.step.events.filter (fun e => match e.ev with | .postedLand r _ _ _ => r == ring | _ => false)).length

/-- Whether a ring has a free entry beyond the deliveries of the present fc (R264, R270). -/
def CoreState.ringRoom (c : CoreState) (ring : BitVec 3) : Bool :=
  ((c.ringPtr ring).wr - (c.ringPtr ring).rd).toNat + c.landingNow ring < 2 ^ (c.ring ring).logsize

/-- A delivery is to land in the first fc, from the present one on, that leaves it a write port (R222, R265). -/
def CoreState.landEntry (c : CoreState) (ring : BitVec 3) (port : Nat) (e : RingEntry) (drained : Bool) : CoreState :=
  c.push c.step.offset (.postedLand ring port e drained)

/-- The ring and entry of a posted flit. -/
def FlitKind.delivery : FlitKind → Option (BitVec 3 × RingEntry)
  | .posted r e => some (r, e)
  | _ => none

/-- GRANARY_SPILL (R267): the delivery held longest at the ring, 256 fc at least, spills when the ring is still full and no other delivery could land; while four wait it stays held (R319). -/
def execGranarySpill (cid : CoreId) (ring : BitVec 3) (s : State) : Host.Outcome State Fault Refusal :=
  let pick := (s.core cid).traffic.held.findSome? (fun h =>
    match (AMap.find s.mesh.flits h.1).bind (fun f => f.kind.delivery.map (fun d => (f, d))) with
    | some (f, r, e) => if r == ring then some (h, f, e) else none
    | none => none)
  match pick with
  | none => coreCommand s cid (fun _ c => c)
  | some (h, f, e) =>
    if !s.hasCore cid then .fault .noSuchCore
    else if !(s.env cid).running then .next s
    else
      let s := s.onCore cid (fun env c => c.runTo env (h.2 + 256))
      let c := s.core cid
      if !c.spillRoom || (c.ringRoom ring && (c.ringPtr ring).spill == 0) then .next s
      else
        .next (({ s with mesh := { s.mesh with flits := AMap.erase s.mesh.flits h.1 } } : State).setCore cid
          (({ c with traffic.held := c.traffic.held.filter (fun x => x != h) } : CoreState).spill ring e f.src f.site))

/-- GRANARY_DRAIN_LANDS (R268, R319, R333): the oldest drain in flight for the ring lands as a delivery; an uncorrectable unit lands bruised and is reported as DEEP_UE. -/
def execGranaryDrainLands (cid : CoreId) (ring : BitVec 3) (s : State) : Host.Outcome State Fault Refusal :=
  coreCommand s cid (fun env c =>
    match c.traffic.drains.find? (fun d => d.ring == ring) with
    | none => c
    | some d =>
      let c := c.runTo env d.land
      let c := { c with traffic.drains := c.traffic.drains.erase d }
      let c := if d.bad then c.note 0x3005 { site := d.site } (BitVec.ofNat 64 (2 ^ 63 + d.ordinal.toNat * 2 ^ 32)) (BitVec.ofNat 64 d.unit) 0 else c
      c.landEntry ring 0 (if d.bad then { d.e with bruise := 0xFF } else d.e) true)

end Sys2Proof.Machine
end

