-- ==== Sys2Proof/Machine/Mesh.lean ====
section
/-! DEFINITION. The mesh (R283 to R305): routes, the plan's link order, field edges, the posted lane, landings, trains, partial blocks and barrier completions. The events of one fc come in the order of R299 to R301 (log entry 13). -/

namespace Sys2Proof.Machine

/-! ### Routes (R284, R508, R529) -/

/-- The output port of a router toward a core: 0 north, 1 east, 2 south, 3 west; `none` at the core (R284). -/
def outPort (r d : CoreId) : Option (BitVec 3) :=
  if colOf r < colOf d then some 1
  else if colOf d < colOf r then some 3
  else if rowOf r < rowOf d then some 2
  else if rowOf d < rowOf r then some 0
  else none

/-- The router beyond an output port. -/
def routerBeyond (r : CoreId) (port : BitVec 3) : CoreId :=
  match port.toNat with
  | 0 => coreAt (rowOf r - 1) (colOf r)
  | 1 => coreAt (rowOf r) (min 63 (colOf r + 1))
  | 2 => coreAt (min 63 (rowOf r + 1)) (colOf r)
  | _ => coreAt (rowOf r) (colOf r - 1)

/-- The input port at the router beyond an output port. -/
def inputBeyond (port : BitVec 3) : BitVec 3 := if port.toNat < 2 then port + 2 else port - 2

/-- Whether an output port crosses a field edge (R16, R284). -/
def crossesEdge (r : CoreId) (port : BitVec 3) : Bool := fieldOfCore r != fieldOfCore (routerBeyond r port)

/-- Parent of a module in the bell tree; `none` for the root (R513). -/
def parentOf (m : BitVec 12) : Option (BitVec 12) :=
  let t := fieldOf m 8 4
  let g := fieldOf m 4 4
  let p := fieldOf m 0 4
  if m = 0 then none
  else if m = 1 then some 0
  else if t = 0 && g = 0 then some 1
  else if p != 0 then some (m &&& 0xFF0)
  else if g != 0 then some (if t = 0 then 2 else BitVec.ofNat 12 (256 * t + 1))
  else some 0

/-- Whether module `m` lies in the subtree of `n`; four links at most (R513). -/
def inSubtree (n m : BitVec 12) : Bool :=
  let up (x : Option (BitVec 12)) : Option (BitVec 12) := x.bind parentOf
  let l := [some m, up (some m), up (up (some m)), up (up (up (some m))), up (up (up (up (some m))))]
  l.contains (some n)

/-- Whether an optical port is up. -/
def Port.isUp (p : Port) : Bool := p.state == 2

/-- The port by which a flit leaves for another module (R529). -/
def State.portTo (s : State) (m : BitVec 12) : PortId :=
  let ps := (List.range 16).map (fun k => (BitVec.ofNat 4 k, s.port (BitVec.ofNat 4 k)))
  match ps.find? (fun p => p.2.isUp && p.2.role == 3 && p.2.neighbour == m) with
  | some p => p.1
  | none =>
    match ps.find? (fun p => p.2.isUp && p.2.role == 2 && inSubtree p.2.neighbour m) with
    | some p => p.1
    | none => 0

/-- The gate core of a port for a core of module row `y` (R508). -/
def Grade.gate (g : Grade) (p : PortId) (y : Nat) : CoreId :=
  let f := p.toNat / 2
  let half := if g = .mt3584 && 12 ≤ p.toNat then 0 else 8 * (p.toNat % 2)
  coreAt (16 * (f / 2) + half + y % 8) (if f % 2 = 0 then 0 else 63)

/-- Where a flit goes in this module's mesh: its core, or its gate for another module (R508). -/
def State.meshDest (s : State) (f : Flit) : CoreId :=
  match f.destModule with
  | none => f.dest
  | some m => if m = s.system.module then f.dest else s.grade.gate (s.portTo m) (rowOf f.src)

/-- Whether a flit's destination is another module. -/
def State.leaves (s : State) (f : Flit) : Bool :=
  match f.destModule with
  | none => false
  | some m => m != s.system.module

/-! ### Flits -/

/-- Replaces a flit. -/
def State.setFlit (s : State) (n : Nat) (f : Flit) : State := { s with mesh := { s.mesh with flits := AMap.set s.mesh.flits n f } }

/-- Takes a flit out of the mesh. -/
def State.dropFlit (s : State) (n : Nat) : State := { s with mesh := { s.mesh with flits := AMap.erase s.mesh.flits n } }

/-- A command of one flit; a number with no flit changes nothing. -/
def flitCommand (s : State) (n : Nat) (act : Flit → State) : Host.Outcome State Fault Refusal :=
  match AMap.find s.mesh.flits n with
  | none => .next s
  | some f => .next (act f)

/-- Whether a flit travels on the posted lane (R298). -/
def Flit.onPostedLane (f : Flit) : Bool :=
  match f.kind with
  | .posted _ _ => true
  | .active _ => true
  | .sig _ _ => false
  | .line _ _ _ _ _ _ _ _ _ => false
  | .part _ _ _ => false

/-- Whether the plot's step runs at a router. -/
def State.routerRuns (s : State) (r : CoreId) : Bool := (s.env r).running

/-- Whether a flit stands at a router. -/
def Flit.atRouter (f : Flit) : Bool := f.stage == .router

/-- Whether the flit is at its destination's router. -/
def State.atDest (s : State) (f : Flit) : Bool := f.atRouter && f.router == f.dest && !s.leaves f

/-- The link of a crossing or of a mesh hop: row crossings have two (R285). -/
def linkOf (r : CoreId) (port : BitVec 3) (link1 : Bool) : Bool := link1 && crossesEdge r port && port.toNat % 2 == 1

/-- A flit of the same lane ahead in the same input link (R298, R299); the local input holds the posted lane alone in order (R261, R299). A flit whose landing is delayed has left its input. -/
def State.flitAhead (s : State) (n : Nat) (f : Flit) : Bool :=
  (f.inPort != 4 || f.onPostedLane) && s.mesh.flits.any (fun g =>
    g.1 != n && g.2.atRouter && !g.2.delayed && g.2.router == f.router && g.2.inPort == f.inPort && g.2.onPostedLane == f.onPostedLane && linkOf f.router f.inPort g.2.link1 == linkOf f.router f.inPort f.link1 &&
      (g.2.arrived < f.arrived || (g.2.arrived == f.arrived && g.1 < n)))

/-- Whether an output link is taken in fc `fc`. -/
def State.linkUsed (s : State) (u : LinkUse) : Bool := s.mesh.uses.contains u

/-- The use of a scheduled flit's input in its fc: each input but the local one passes one flit in an fc (R299). -/
def Flit.inputUse (f : Flit) : LinkUse := { input := true, router := f.router, port := f.inPort, link1 := linkOf f.router f.inPort f.link1, fc := f.ready }

/-- Whether a scheduled flit is held in its input by its lane (R299). -/
def State.laneHeld (s : State) (n : Nat) (f : Flit) : Bool := s.flitAhead n f || (f.inPort != 4 && s.linkUsed f.inputUse)

/-- A scheduled flit passes its input in its fc. -/
def State.passInput (s : State) (f : Flit) : State :=
  if f.inPort = 4 || f.onPostedLane then s else { s with mesh := { s.mesh with uses := s.mesh.uses ++ [f.inputUse] } }

/-- A SLOT_COLLISION event at a core, the first in the step alone (R302): port and SITE of the delayed flit, at fc `fc`. -/
def CoreState.collision (c : CoreState) (fc : Nat) (port : BitVec 3) (site : BitVec 10) : CoreState :=
  if c.traffic.collided then c
  else
    { c with
      traffic.collided := true
      traffic.reports := c.traffic.reports ++ [{ code := 0x2006, fill := false, offset := fc, site := site, slot := 7, d0 := BitVec.ofNat 64 (port.toNat * 2 ^ 32), d1 := 0, d2 := 0 }] }

/-- A scheduled flit is held to the next fc and counted (R299, R302, R304). -/
def State.holdFlit (s : State) (n : Nat) (f : Flit) : State :=
  (s.setFlit n { f with ready := f.ready + 1 }).modCore f.router (fun c =>
    ({ c with mesh.linkColl := satAdd c.mesh.linkColl 1 } : CoreState).collision f.ready f.inPort f.site)

/-- Whether another scheduled flit goes first on an output link in the same fc: by input port, then slot-table order (R299). -/
def State.flitFirst (s : State) (n : Nat) (f : Flit) (port : BitVec 3) : Bool :=
  s.mesh.flits.any (fun g =>
    g.1 != n && g.2.atRouter && !g.2.onPostedLane && g.2.router == f.router && g.2.ready == f.ready && outPort g.2.router (s.meshDest g.2) == some port &&
      linkOf f.router port g.2.link1 == linkOf f.router port f.link1 &&
      (f.onPostedLane || g.2.inPort < f.inPort || (g.2.inPort == f.inPort && (g.2.order < f.order || (g.2.order == f.order && g.1 < n)))))

/-- Whether a flit is on a bridge link. -/
def Flit.onBridge (f : Flit) : Bool :=
  match f.stage with
  | .bridge _ => true
  | _ => false

/-- Flits of the posted lane in an input of a router, or on the bridge link that leads to it (R298). -/
def State.postedAt (s : State) (r : CoreId) (port : BitVec 3) (bridge : Bool) : Nat :=
  (s.mesh.flits.filter (fun g => g.2.onPostedLane && g.2.router == r && g.2.inPort == port && (if bridge then g.2.onBridge else g.2.atRouter))).length

/-- A flit moves over an output link in fc `ready`: to the next router 2 fc later, or onto the bridge (R286, R296). -/
def State.moveFlit (s : State) (n : Nat) (f : Flit) (port : BitVec 3) : State :=
  let u : LinkUse := { router := f.router, port := port, link1 := linkOf f.router port f.link1, fc := f.ready }
  let s : State := { s.passInput f with mesh := { (s.passInput f).mesh with uses := (s.passInput f).mesh.uses ++ [u] } }
  let g : Flit := { f with router := routerBeyond f.router port, inPort := inputBeyond port }
  s.setFlit n (if crossesEdge f.router port then { g with stage := .bridge f.ready } else { g with ready := f.ready + 2, arrived := f.ready + 2 })

/-- A gate gives its flit of fc `fc` to the link, with one credit (R508, R530). -/
def State.useGate (s : State) (g fc : Nat) : State :=
  { s with system := { s.system with gateUse := s.system.gateUse ++ [(g, fc)], credits := AMap.put 512 s.system.credits g (AMap.get 512 s.system.credits g - 1) } }

/-- A stall of R532: the plot's cores and routers in the field stand still. The periods are counted when it ends. -/
def State.stallGate (s : State) (fn : Fn) (f : FieldId) : State :=
  s.modPlot fn (fun p => { p with step.gateStall := p.step.gateStall ||| BitVec.ofNat 8 (2 ^ f.toNat) })

/-- A scheduled flit due at the same gate in the same fc goes first (R530). -/
def State.flitFirstAtGate (s : State) (n : Nat) (f : Flit) : Bool :=
  s.mesh.flits.any (fun g => g.1 != n && g.2.atRouter && !g.2.onPostedLane && g.2.router == f.router && g.2.ready == f.ready && s.leaves g.2 && (outPort g.2.router (s.meshDest g.2)).isNone)

/-- FLIT_ADVANCE (R284 to R286, R299, R531): a scheduled flit moves, leaves by its gate, or is held to the next fc and counted. -/
def execFlitAdvance (n : Nat) (s : State) : Host.Outcome State Fault Refusal :=
  flitCommand s n (fun f =>
    if !f.atRouter || f.onPostedLane || !s.routerRuns f.router then s
    else
      match outPort f.router (s.meshDest f) with
      | some port =>
        if s.laneHeld n f || s.flitFirst n f port || s.linkUsed { router := f.router, port := port, link1 := linkOf f.router port f.link1, fc := f.ready } then s.holdFlit n f
        else s.moveFlit n f port
      | none =>
        if !s.leaves f then s
        else
          let g := f.router.toNat
          if s.laneHeld n f || s.system.gateUse.contains (g, f.ready) then s.holdFlit n f
          else if AMap.get 512 s.system.credits g = 0 then s.stallGate f.fn (fieldOfCore f.router)
          else ((s.passInput f).useGate g f.ready).dropFlit n)

/-- POSTED_FLIT_ADVANCE (R298): a posted flit moves when no scheduled flit uses the link in its fc and the next buffer has room; else it waits one fc, counted. -/
def execPostedFlitAdvance (n : Nat) (s : State) : Host.Outcome State Fault Refusal :=
  flitCommand s n (fun f =>
    if !f.atRouter || !f.onPostedLane || !s.routerRuns f.router then s
    else
      let wait : State := (s.setFlit n { f with ready := f.ready + 1 }).modCore f.router (fun c => { c with mesh.postedWait := satAdd c.mesh.postedWait 1 })
      match outPort f.router (s.meshDest f) with
      | some port =>
        let edge := crossesEdge f.router port
        let room := s.postedAt (routerBeyond f.router port) (inputBeyond port) edge < (if edge then 16 else 4)
        if s.flitAhead n f || s.flitFirst n f port || !room || s.linkUsed { router := f.router, port := port, link1 := false, fc := f.ready } then wait
        else s.moveFlit n { f with link1 := false } port
      | none =>
        let g := f.router.toNat
        if !s.leaves f then s
        else if s.flitAhead n f || s.flitFirstAtGate n f || s.system.gateUse.contains (g, f.ready) || AMap.get 512 s.system.credits g = 0 then wait
        else (s.useGate g f.ready).dropFlit n)

/-! ### Field edges (R70 to R74, R296, R297) -/

/-- The latest offset that a plot's cores of a field have reached. -/
def State.fieldOffset (s : State) (fn : Fn) (f : FieldId) : Nat :=
  ((s.plot fn).cores.filter (fun c => fieldOfCore c == f)).foldl (fun m c => max m (s.core c).step.offset) 0

/-- The pass count of a plot in a field (R68, R74). -/
def PlotClock.passIn (k : PlotClock) (f : FieldId) : Nat := if k.capFields.getLsbD f.toNat then min k.capPass.toNat k.pass.toNat else k.pass.toNat

/-- BELL_OVERRUN (R73, R74): reported by a core of the receiving field; the faster field is capped, or the capped count falls by 4 when the step has overrun before; a third attempt stops the plot and lowers no cap. Fields capped at one time share CAP_PASS, the lower of their counts (DESIGN CHOICE, log entry 108). -/
def State.bellOverrun (s : State) (fn : Fn) (at1 : CoreId) (fc : Nat) (sender : FieldId) : State :=
  let recv := fieldOfCore at1
  let os := s.fieldOffset fn sender
  let o := max fc (s.fieldOffset fn recv)
  let fast := if os ≤ o then recv else sender
  let slow := min os o
  let s := s.modCore at1 (fun c => c.report { code := 0x4002, fill := false, offset := fc, site := 0, slot := 7, d0 := 0, d1 := 0, d2 := 0 })
  s.modPlot fn (fun p =>
    let again := p.run.events.any (fun e => e.code == 0x4002 && e.attempt == p.bell.attempt)
    let lowers := !again && p.bell.attempt.toNat < 2
    let first := p.clock.passIn fast * slow / max (max os o) 1
    let cap := if !lowers then p.clock.capPass.toNat else max 32 (if p.step.overruns != 0 then p.clock.capPass.toNat - 4 else if p.clock.capFields = 0 then first else min first p.clock.capPass.toNat)
    let ev : EventEntry := { code := 0x4002, bell := p.bell.bell, attempt := p.bell.attempt, kind := 0, site := 0, offset := BitVec.ofNat 32 fc
                             d0 := BitVec.ofNat 64 (2 ^ sender.toNat + 2 ^ recv.toNat), d1 := BitVec.ofNat 64 cap }
    if !lowers then { p with run.events := p.run.events ++ [ev] }
    else
      { p with
        clock.capFields := if p.step.overruns = 0 then p.clock.capFields ||| BitVec.ofNat 8 (2 ^ fast.toNat) else p.clock.capFields
        clock.capPass := BitVec.ofNat 7 cap
        clock.capBells := 64
        run.events := p.run.events ++ [ev] })

/-- The field across an input port. -/
def fieldAcross (r : CoreId) (inPort : BitVec 3) : FieldId := fieldOfCore (routerBeyond r inPort)

/-- Whether a flit is in an elastic buffer. -/
def Flit.inBuffer (f : Flit) : Bool :=
  match f.stage with
  | .buffered _ => true
  | _ => false

/-- The offset at which a flit in an elastic buffer was sent. -/
def Flit.sentAt (f : Flit) : Nat :=
  match f.stage with
  | .buffered t => t
  | .bridge t => t
  | _ => 0

/-- An earlier flit of the same lane on the same bridge link: a link keeps its order (R261, R296). -/
def State.bridgeAhead (s : State) (n : Nat) (f : Flit) : Bool :=
  s.mesh.flits.any (fun g => g.1 != n && g.2.onBridge && g.2.router == f.router && g.2.inPort == f.inPort && g.2.onPostedLane == f.onPostedLane && g.2.link1 == f.link1 && g.2.sentAt < f.sentAt)

/-- Flits in the elastic buffer of a bridge input (R72). -/
def State.buffered (s : State) (r : CoreId) (inPort : BitVec 3) (link1 : Bool) : List (Nat × Flit) :=
  s.mesh.flits.filter (fun g => g.2.inBuffer && g.2.router == r && g.2.inPort == inPort && (link1 == g.2.link1 || inPort.toNat % 2 == 0))

/-- BRIDGE_FLIT_ARRIVES (R72, R73, R296 to R298): at offset `offset` of the receiving field, the first flit of its lane comes off the bridge: a posted flit at the router when its input has room, a scheduled flit in the elastic buffer, which overruns at 256. -/
def execBridgeFlitArrives (n offset : Nat) (s : State) : Host.Outcome State Fault Refusal :=
  flitCommand s n (fun f =>
    match f.stage with
    | .bridge sent =>
      if s.bridgeAhead n f then s
      else if f.onPostedLane then
        if s.postedAt f.router f.inPort false < 4 then s.setFlit n { f with stage := .router, ready := offset, arrived := offset } else s
      else if 256 ≤ (s.buffered f.router f.inPort f.link1).length then
        (s.dropFlit n).bellOverrun f.fn f.router offset (fieldAcross f.router f.inPort)
      else s.setFlit n { f with stage := .buffered sent, arrived := offset }
    | _ => s)

/-- The next firing of a train of a core: number and offset, while it is valid, of the kind, and firings remain (R287). -/
def CoreState.nextFiring (c : CoreState) (slot : BitVec 10) (kind : Nat) : Option (Train × Nat × Nat) :=
  let tr := c.tables.train slot.toNat
  let k := AMap.get 0 c.traffic.slotFired slot.toNat
  if tr.valid && tr.kind == kind && k ≤ tr.reps && !c.traffic.routerStopped then some (tr, k, tr.start + k * tr.period) else none

/-- Whether another train of a channel fires before firing `fc` of train `slot`, or in that fc with a lower slot number: the channel counts its firings in that order (R291). -/
def CoreState.channelEarlier (c : CoreState) (slot : BitVec 10) (chan fc : Nat) : Bool :=
  c.tables.trains.any (fun t => t.1 != slot.toNat && t.2.kind ≤ 1 && t.2.chan == chan && AMap.get 0 c.traffic.slotFired t.1 ≤ t.2.reps &&
    (let g := t.2.start + AMap.get 0 c.traffic.slotFired t.1 * t.2.period; g < fc || (g == fc && t.1 < slot.toNat)))

/-- The next firing of a LINE or PARTIAL train, where no other train of its channel comes first (R287, R291). -/
def CoreState.nextChannelFiring (c : CoreState) (slot : BitVec 10) (kind : Nat) : Option (Train × Nat × Nat) :=
  (c.nextFiring slot kind).filter (fun x => !c.channelEarlier slot x.1.chan x.2.2)

/-- Counts a firing of a train. -/
def CoreState.countFiring (c : CoreState) (slot : BitVec 10) : CoreState :=
  { c with traffic.slotFired := AMap.put 0 c.traffic.slotFired slot.toNat (AMap.get 0 c.traffic.slotFired slot.toNat + 1) }

/-- Counts a firing of a transfer channel; its number before (R291). -/
def CoreState.countChannel (c : CoreState) (chan : Nat) : CoreState :=
  { c with traffic.chanFired := AMap.put 0 c.traffic.chanFired chan (AMap.get 0 c.traffic.chanFired chan + 1) }

/-- One release of a RECV firing in fc `fc`: the flit that arrived first, in the order sent among those of one fc, or an overrun (R73, R296). -/
def State.releaseOne (s : State) (cid : CoreId) (fn : Fn) (inPort : BitVec 3) (link1 : Bool) (fc : Nat) : State :=
  let first := ((s.buffered cid inPort link1).filter (fun g => g.2.arrived ≤ fc)).foldl
    (fun (m : Option (Nat × Flit)) g => match m with | none => some g | some b => if g.2.arrived < b.2.arrived || (g.2.arrived == b.2.arrived && g.2.sentAt < b.2.sentAt) then some g else some b) none
  match first with
  | some (n, f) => s.setFlit n { f with stage := .router, ready := fc, arrived := fc }
  | none => s.bellOverrun fn cid fc (fieldAcross cid inPort)

/-- RECV_FIRING (R288, R296, R297): LINES + 1 releases, one in each fc of the firing. -/
def execRecvFiring (cid : CoreId) (slot : BitVec 10) (s : State) : Host.Outcome State Fault Refusal :=
  if !s.hasCore cid then .fault .noSuchCore
  else if !s.routerRuns cid then .next s
  else
    match (s.core cid).nextFiring slot 4 with
    | none => .next s
    | some (tr, _, fc) =>
      let s := s.modCore cid (fun c => c.countFiring slot)
      .next ((List.range (tr.lines + 1)).foldl (fun (s : State) j => s.releaseOne cid ((s.core cid).owner.getD 0) (tr.port.setWidth 3) tr.link1 (fc + j)) s)

/-- LAND_FIRING (R288, R300): the claims stand in the table; the core runs to the firing, which is counted. -/
def execLandFiring (cid : CoreId) (slot : BitVec 10) (s : State) : Host.Outcome State Fault Refusal :=
  coreCommand s cid (fun env c =>
    match c.nextFiring slot 3 with
    | none => c
    | some (_, _, fc) => (c.runTo env fc).countFiring slot)

/-! ### Trains (R292, R293, R295) -/

/-- Whether the destination position of a LINE firing lies inside a byte line of the receiver: the failure, if any (R292). -/
def CoreState.destAligned (r : CoreState) (h : BitVec 6) (pos : Nat) : Option Bad :=
  match r.offsetAt h.toNat pos with
  | .error e => if e.code = 0x2017 then some e else none
  | .ok b =>
    let first := physByte (r.handle h.toNat) (r.descOf h.toNat) b
    if first % 64 != 0 then some { code := 0x2017, handle := h.toNat, pos := pos, byte := first, d2 := 0 } else none

/-- A failed firing: reported with the train's SITE; the router fires no further train and the core issues no further bundle (R295). -/
def CoreState.failFiring (c : CoreState) (b : Bad) (o : Origin) : CoreState :=
  { c.accessFault b o with traffic.routerStopped := true }

/-- LINE_FIRING (R291, R292, R295). -/
def execLineFiring (cid : CoreId) (slot : BitVec 10) (s : State) : Host.Outcome State Fault Refusal :=
  coreCommand s cid (fun env c =>
    match c.nextChannelFiring slot 0 with
    | none => c
    | some (tr, _, fc) =>
      let ch := c.tables.channel tr.chan
      match env.dest.resolve ch.dest with
      | none => c
      | some d =>
        let c := c.runTo env fc
        let m := AMap.get 0 c.traffic.chanFired tr.chan
        let c := (c.countFiring slot).countChannel tr.chan
        let spos := ch.spos + m * ch.sstep
        let dpos := ch.dpos + m * ch.dstep
        let there := match d with | .here r => (s.core r).destAligned ch.dh dpos | .away _ _ => none
        let n := tr.lines + 1
        let o : Origin := { site := tr.site, num := slot.toNat }
        match c.lineBytes ch.sh false spos 0 n, there with
        | .error b, t => c.failFiring ((worst (b :: t.toList)).getD b) o
        | .ok _, some b => c.failFiring b o
        | .ok bytes, none =>
          let f := c.step.offset
          (List.range n).foldl (fun (c : CoreState) j =>
            let out : FlitOut := { dest := d.split.1, destModule := d.split.2, ready := f + 1 + j, link1 := tr.link1, order := slot.toNat, firing := m, site := tr.site
                                   kind := .line ch.dh dpos j tr.lines ch.ten ch.tally ch.amount 0 0 }
            c.push (f + j) (.lineRead (listGet 0 bytes (64 * j) / 64) out o)) c)

/-- PARTIAL_FIRING (R291, R293, R295): ACC_RANGE, then ACC_PENDING; else the entries are read at the end of the fc. -/
def execPartialFiring (cid : CoreId) (slot : BitVec 10) (s : State) : Host.Outcome State Fault Refusal :=
  coreCommand s cid (fun env c =>
    match c.nextChannelFiring slot 1 with
    | none => c
    | some (tr, _, fc) =>
      let ch := c.tables.channel tr.chan
      match env.dest.resolve ch.dest with
      | none => c
      | some d =>
        let c := c.runTo env fc
        let m := AMap.get 0 c.traffic.chanFired tr.chan
        let c := (c.countFiring slot).countChannel tr.chan
        let sp := ch.spos + m * ch.sstep
        let dp := ch.dpos + m * ch.dstep
        let row := sp / 1024
        let e := sp % 1024
        let f := c.step.offset
        let anchors := ((List.range (ch.count + 1)).map (fun i => (c.group (entryGroup ch.narrow (e + i))).anchor)).dedup
        let fail (code : Code) : CoreState := { c.fault code { site := tr.site, num := slot.toNat } 0 0 0 with traffic.routerStopped := true }
        if !c.rangeOk ch.narrow e (e + ch.count) || 1 < anchors.length then fail 0x2005
        else if (List.range (ch.count + 1)).any (fun i => c.entryPending f ch.narrow row (e + i)) then fail 0x200E
        else
          let block : PartialBlock := { header := 0, body := [], row := dp / 1024, entry := dp % 1024, port := 4, sender := cid, site := tr.site
                                        tallyEn := ch.ten, tally := ch.tally, amount := ch.amount, train := slot.toNat }
          let out : FlitOut := { dest := d.split.1, destModule := d.split.2, ready := f + 1, link1 := tr.link1, order := slot.toNat, firing := m, site := tr.site, kind := .part 0 0 block }
          c.push f (.partialRead row e ch.count ch.narrow out block))

/-! ### Landings (R146 to R148, R254, R255, R300, R301) -/

/-- SIGNAL_LANDS (R254): the receiver's tally rises in the fc in which the flit is at its router. -/
def execSignalLands (n : Nat) (s : State) : Host.Outcome State Fault Refusal :=
  flitCommand s n (fun f =>
    match f.kind with
    | .sig t amount =>
      if !s.atDest f || !s.routerRuns f.dest then s
      else if s.laneHeld n f then s.holdFlit n f
      else ((s.passInput f).dropFlit n).onCore f.dest (fun env c => let c := c.runTo env f.ready; c.push c.step.offset (.tally t amount))
    | _ => s)

/-- LAND claims of the slot table in fc `fc` that no landing has used (R300). -/
def CoreState.freeClaim (c : CoreState) (fc : Nat) : Bool := (c.traffic.landClaims.filter (fun x => x == fc)).length < (c.tables.claims fc).2

/-- Takes a write port for a scheduled landing in the present fc, if there is one; posted deliveries and the patrol scrub take theirs after it (R300). -/
def CoreState.landPort (c : CoreState) (env : Env) : Option CoreState :=
  let f := c.step.offset
  if c.freeClaim f then some { c with traffic.landClaims := c.traffic.landClaims ++ [f] }
  else if c.claimedWrites env f < 2 then some (c.claimPorts [{ fc := f, reads := 0, writes := 1 }])
  else none

/-- Whether a write of the present fc touches a word that `bs` touches: a local write, or an earlier scheduled landing (R301). -/
def CoreState.wordTaken (c : CoreState) (words : List Nat) : Bool :=
  c.step.events.any (fun e => match e.ev with | .write bs _ _ => e.fc == c.step.offset && bs.any (fun b => words.contains (b.addr / 8)) | _ => false)

/-- What a landing attempt in the present fc comes to. -/
inductive Landing where
  | held (c : CoreState)
  | done (c : CoreState)
  | failed (c : CoreState)

/-- The words that line `j` of an arriving transfer touches; none where it has no place. -/
def CoreState.lineWords (c : CoreState) (h : BitVec 6) (pos j : Nat) : List Nat :=
  match c.offsetAt h.toNat pos with
  | .ok b => ((c.rawBytes h.toNat (b + 64 * j) 64).map (· / 8)).dedup
  | .error _ => []

/-- One attempt to land a line in the present fc: word order, write port, then, in the fc in which it lands, the checks of R243 and the write (R300, R301). `port` is the core with the port taken, `later` says that another landing of this fc goes first on a common word. -/
def CoreState.tryLand (c : CoreState) (port : Option CoreState) (later : Bool) (h : BitVec 6) (pos j : Nat) (data : BitVec 512) (bruise : BitVec 8) (o : Origin) : Landing :=
  if later || c.wordTaken (c.lineWords h pos j) then .held c
  else
    match port with
    | none => .held c
    | some k =>
      match c.lineBytes h true pos j 1 with
      | .error b => .failed (c.accessFault b o)
      | .ok bytes =>
        let bs : List WByte := bytes.zipIdx.map (fun p => { addr := p.1, val := data.extractLsb' (8 * p.2) 8, bruise := bruise.getLsbD (p.2 / 8) })
        .done (k.push k.step.offset (.write bs true o))

/-- The order of landings on a common word in one fc: a transfer to the core itself, then north, east, south, west (R301). -/
def Flit.landRank (f : Flit) : Nat := landingPlace f.inPort.toNat

/-- The words that a LINE flit touches where it lands. -/
def CoreState.flitWords (c : CoreState) (f : Flit) : List Nat :=
  match f.kind with
  | .line h pos j _ _ _ _ _ _ => c.lineWords h pos j
  | _ => []

/-- Whether a scheduled flit that is still to land in fc `fc` at a core touches one of `words`, of those that stand before rank `rank` (R301). -/
def State.landsFirst (s : State) (cid : CoreId) (fc rank : Nat) (words : List Nat) : Bool :=
  s.mesh.flits.any (fun g => g.2.dest == cid && s.atDest g.2 && g.2.ready == fc && g.2.landRank < rank && ((s.core cid).flitWords g.2).any words.contains)

/-- The delayed landing of a flit is counted once, and is the event of its core in the fc in which it lands (R301, R302). -/
def CoreState.settleDelay (c : CoreState) (f : Flit) : CoreState :=
  if f.noted then ({ c with traffic.collided := false } : CoreState).collision c.step.offset f.inPort f.site else c

/-- A landing is held to the next fc (R300, R301). -/
def State.holdLanding (s : State) (n : Nat) (f : Flit) (fc : Nat) : State :=
  let c := s.core f.dest
  let s := s.setFlit n { f with ready := fc + 1, delayed := true, noted := f.noted || !c.traffic.collided }
  s.setCore f.dest { c with
    traffic.collided := true
    mesh.wordColl := if f.delayed then c.mesh.wordColl else satAdd c.mesh.wordColl 1 }

/-- Whether a flit of the firing has been discarded. -/
def State.firingBroken (s : State) (f : Flit) : Bool := s.mesh.broken.contains (f.src.toNat, f.order, f.firing)

/-- A discarded flit breaks its firing (R255). -/
def State.breakFiring (s : State) (f : Flit) : State := { s with mesh := { s.mesh with broken := s.mesh.broken ++ [(f.src.toNat, f.order, f.firing)] } }

/-- A LINE flit lands, is held, or is discarded; the last one raises the tally (R255, R292). -/
def State.landLine (s : State) (n : Nat) (f : Flit) (h : BitVec 6) (pos j last : Nat) (ten : Bool) (t : BitVec 6) (amount : Nat) (data : BitVec 512) (bruise : BitVec 8) : State :=
  let s := s.onCore f.dest (fun env c => c.runTo env f.ready)
  let c := s.core f.dest
  let later := s.landsFirst f.dest c.step.offset f.landRank (c.lineWords h pos j)
  match c.tryLand (c.landPort (s.env f.dest)) later h pos j data bruise { site := f.site, num := f.order, port := f.inPort.toNat } with
  | .held c => (s.setCore f.dest c).holdLanding n f c.step.offset
  | .failed c => ((s.setCore f.dest (c.settleDelay f)).dropFlit n).breakFiring f
  | .done c =>
    let c := c.settleDelay f
    let c := if j = last && ten && !s.firingBroken f then c.push c.step.offset (.tally t amount) else c
    (s.setCore f.dest c).dropFlit n

/-- A flit of a partial block is received: entries are pending from the first, and the last one starts the merge (R146 to R148). -/
def CoreState.receivePart (c : CoreState) (f : Flit) (j last : Nat) (b : PartialBlock) : CoreState :=
  let b := { b with port := f.inPort.toNat }
  let c := if j = 0 then { c with traffic.blocks := c.traffic.blocks ++ [(f.firing, b)] } else c
  if j != last then c else c.push (c.step.offset + 2) (.merge b)

/-- SCHEDULED_FLIT_LANDS (R286, R300, R301, R303): a LINE or PARTIAL flit at its destination's router lands. -/
def execScheduledFlitLands (n : Nat) (s : State) : Host.Outcome State Fault Refusal :=
  flitCommand s n (fun f =>
    if !s.atDest f || !s.routerRuns f.dest then s
    else if !f.delayed && s.laneHeld n f then s.holdFlit n f
    else
      let s := if f.delayed then s else s.passInput f
      match f.kind with
      | .line h pos j last ten t amount data bruise => s.landLine n f h pos j last ten t amount data bruise
      | .part j last b => (s.dropFlit n).onCore f.dest (fun env c => (c.runTo env f.ready).receivePart f j last b)
      | _ => s)

/-- PARTIAL_MERGE_LANDS (R146, R148): the core runs to the end of the fc of its next merge, which checks the block first (R147). -/
def execPartialMergeLands (cid : CoreId) (s : State) : Host.Outcome State Fault Refusal :=
  coreCommand s cid (fun env c => c.runThrough env (fun e => match e with | .merge _ => true | _ => false))

/-! ### Posted and active messages arrive (R262, R265 to R272) -/

/-- A posted delivery at its receiver: discarded where the ring is not enabled, spilled while SPILL is above 0, held while the ring is full, else landed (R265, R267, R270). -/
def State.deliver (s : State) (n : Nat) (f : Flit) (ring : BitVec 3) (e : RingEntry) : State :=
  let s := s.onCore f.dest (fun env c => c.runTo env f.ready)
  let c := s.core f.dest
  let port := if f.inPort = 4 then 1 else 2 + f.inPort.toNat
  let free (s : State) : State := (s.dropFlit n).modCore f.dest (fun c => { c with traffic.held := c.traffic.held.filter (fun x => x.1 != n) })
  let hold (full : Bool) : State :=
    if c.traffic.held.any (fun x => x.1 == n) then s
    else s.modCore f.dest (fun c => { c with traffic.held := c.traffic.held ++ [(n, c.step.offset)], work.sync.held := if full then satAdd c.work.sync.held 1 else c.work.sync.held })
  if !(c.ring ring).enable then (free s).modCore f.dest (fun c => c.fault 0x201A { site := f.site } 0 0 0)
  else if (c.ringPtr ring).spill != 0 then
    if c.spillRoom then (free s).modCore f.dest (fun c => c.spill ring e f.src f.site) else hold false
  else if c.ringRoom ring then (free s).onCore f.dest (fun _ c => c.landEntry ring port e false)
  else hold true

/-- POSTED_MESSAGE_LANDS (R265, R267, R270); a message behind a held one on its link waits. -/
def execPostedMessageLands (n : Nat) (s : State) : Host.Outcome State Fault Refusal :=
  flitCommand s n (fun f =>
    match f.kind with
    | .posted ring e =>
      if !s.atDest f || !s.routerRuns f.dest then s
      else if s.flitAhead n f then (s.setFlit n { f with ready := f.ready + 1 }).modCore f.dest (fun c => { c with mesh.postedWait := satAdd c.mesh.postedWait 1 })
      else s.deliver n f ring e
    | _ => s)

/-- ACTIVE_MESSAGE_ARRIVES (R271, R272): discarded with AM_DISABLED outside the enabled states or for a handler that does not exist; held while four wait; else queued. -/
def execActiveMessageArrives (n : Nat) (s : State) : Host.Outcome State Fault Refusal :=
  flitCommand s n (fun f =>
    match f.kind with
    | .active m =>
      if !s.atDest f || !s.routerRuns f.dest || s.flitAhead n f then s
      else
        let c := s.core f.dest
        if !(s.env f.dest).amOn || !bitOf (AMap.get 0 c.tables.handler m.handler.toNat) 16 then
          (s.dropFlit n).onCore f.dest (fun env c => (c.runTo env f.ready).fault 0x201B { site := f.site } 0 0 0)
        else if 4 ≤ c.traffic.amQueue.length then s
        else (s.dropFlit n).onCore f.dest (fun env c => let c := c.runTo env f.ready; { c with traffic.amQueue := c.traffic.amQueue ++ [m] })
    | _ => s)

/-! ### Barrier completions (R258) -/

/-- `earliest_receive` (R71). -/
def earliestReceive (s : Nat) : Nat := s + (s * 12 + 99) / 100 + 24

/-- Field edges between two fields (R16). -/
def fieldHops (f g : Nat) : Nat := (f / 2 - g / 2) + (g / 2 - f / 2) + (f % 2 - g % 2) + (g % 2 - f % 2)

/-- The term of `barrier_landing` for the last arrival `a` of field `f`, at field `g` (R258). -/
def landingTerm (g f a : Nat) : Nat := if f = g then a + 24 else earliestReceive (a + 24) + 20 * (fieldHops f g - 1)

/-- The fields that hold members and their last arrivals in a round, when every member has arrived (R258). -/
def Plot.lastArrivals (p : Plot) (g : Nat) (r : BarRound) : Option (List (Nat × Nat)) :=
  let ms := p.members g
  if ms.isEmpty || !ms.all (fun c => r.arrivals.any (fun a => a.1 == c.toNat)) then none
  else
    let fs := (ms.map (fun c => (fieldOfCore c).toNat)).dedup
    some (fs.map (fun f => (f, (r.arrivals.filter (fun a => (fieldOfCore (BitVec.ofNat 12 a.1)).toNat == f)).foldl (fun m a => max m a.2) 0)))

/-- `barrier_landing` (R258): the landing offset in field `g` and the field whose notice fixes it. -/
def barrierLanding (g : Nat) (l : List (Nat × Nat)) : Nat × Nat :=
  l.foldl (fun (m : Nat × Nat) x => let t := landingTerm g x.1 x.2; if m.1 < t then (t, x.1) else m) (0, g)

/-- The oldest completed round of a group that has not landed in a field. -/
def Plot.dueRound (p : Plot) (g : Nat) (field : FieldId) : Option (Nat × BarRound × List (Nat × Nat)) :=
  p.rounds.findSome? (fun r =>
    if r.1 % 64 = g && !r.2.landed.getLsbD field.toNat then (p.lastArrivals g r.2).bind (fun l => if l.any (fun x => x.1 == field.toNat) then some (r.1, r.2, l) else none) else none)

/-- BARRIER_COMPLETION_LANDS (R258, R260): every member in the field runs to the landing offset and its tally rises by 1; when the notices of other fields come after that offset, it is a BELL_OVERRUN with the field whose notice is last. -/
def execBarrierCompletionLands (fn : Fn) (group : BitVec 6) (field : FieldId) (s : State) : Host.Outcome State Fault Refusal :=
  let p := s.plot fn
  let g := group.toNat
  match p.stepping, p.dueRound g field with
  | true, some (key, r, l) =>
    let land := barrierLanding field.toNat l
    let ms := (p.members g).filter (fun c => fieldOfCore c == field)
    let tally : BitVec 6 := (AMap.get 0 p.bar (3 * g + 2)).extractLsb' 0 6
    let far := barrierLanding field.toNat (l.filter (fun x => x.1 != field.toNat))
    let late := l.any (fun x => x.1 != field.toNat) && ms.any (fun c => land.1 < (s.core c).step.offset)
    let s := s.setPlot fn { p with rounds := AMap.set p.rounds key { r with landed := r.landed ||| BitVec.ofNat 8 (2 ^ field.toNat) } }
    if late then .next (s.bellOverrun fn (ms.headD 0) (ms.foldl (fun m c => max m (s.core c).step.offset) 0) (BitVec.ofNat 3 far.2))
    else .next (ms.foldl (fun (s : State) c => s.onCore c (fun env k => let k := k.runTo env land.1; k.push k.step.offset (.tally tally 1))) s)
  | _, _ => .next s

end Sys2Proof.Machine
end

