-- ==== Sys2Proof/Machine/DeepStore.lean ====
section
/-! DEFINITION. Deep store (R311 to R334): plot space, channel firings, landings, journaled writes, granary units, stalls, refresh and scrub. A granary queue holds its entries oldest first; which unit of the queue an entry takes is the model's (log entry 24). -/

namespace Sys2Proof.Machine

/-- Units of a channel's share (R312). -/
def shareUnits : Nat := 18612224

/-! ### Units -/

/-- The content of unit `u` of a channel. -/
def Channel.data (ch : Channel) (u : Nat) : BitVec 512 :=
  BitVec.ofNat 512 ((List.range 64).foldr (fun i n => (AMap.get (0 : Byte) ch.mem (64 * u + i)).toNat + 256 * n) 0)

/-- Writes unit `u` with its bruise bits; the stored unit is sound (R331). -/
def Channel.write (ch : Channel) (u : Nat) (d : BitVec 512) (bruise : BitVec 8) : Channel :=
  { ch with
    mem := (List.range 64).foldl (fun m i => AMap.put (0 : Byte) m (64 * u + i) (d.extractLsb' (8 * i) 8)) ch.mem
    bruise := AMap.put 0 ch.bruise u bruise
    damage := AMap.put .sound ch.damage u .sound }

/-- Reading unit `u` (R331, R333): the channel with its counts and repairs, the data, the bruise bits, and whether the unit was uncorrectable. -/
def Channel.readUnit (ch : Channel) (u : Nat) : Channel × BitVec 512 × BitVec 8 × Bool :=
  let d := ch.data u
  match AMap.get Damage.sound ch.damage u with
  | .sound => (ch, d, AMap.get 0 ch.bruise u, false)
  | .correctable => ({ ch with damage := AMap.put .sound ch.damage u .sound, stat.ce := satAdd ch.stat.ce 1 }, d, AMap.get 0 ch.bruise u, false)
  | .uncorrectable => ({ ch.write u d 0xFF with stat.ue := satAdd ch.stat.ue 1 }, d, 0xFF, true)

/-- Whether a write was requested before the request of an entry in fc `req` (R322). -/
def WriteUnit.before (w : WriteUnit) (req : Nat) (entry : BitVec 6) : Bool := w.req < req || (w.req == req && w.entry.toNat < entry.toNat)

/-- Reading unit `u` for a request of an entry in fc `req`, after every write of it that was requested earlier (R322). -/
def Channel.readOrdered (ch : Channel) (u req : Nat) (entry : BitVec 6) : Channel × BitVec 512 × BitVec 8 × Bool :=
  match (ch.writes.filter (fun w => w.unit % shareUnits == u && w.before req entry)).getLast? with
  | some w => (ch, w.data, w.bruise, false)
  | none => ch.readUnit u

/-- The channel reads what a READ unit takes, once. -/
def Channel.takeRead (ch : Channel) (u : ReadUnit) : Channel × ReadUnit :=
  if u.taken then (ch, u)
  else
    let r := ch.readOrdered (u.unit % shareUnits) u.req u.entry
    (r.1, { u with data := r.2.1, bruise := r.2.2.1, bad := r.2.2.2, taken := true })

/-- The outstanding READ units that `sel` selects take their units. -/
def Channel.takeReads (ch : Channel) (sel : ReadUnit → Bool) : Channel :=
  ch.reads.foldl (fun (k : Channel) u =>
    if sel u then
      let r := k.takeRead u
      { r.1 with reads := r.1.reads.map (fun x => if x == u then r.2 else x) }
    else k) ch

/-- Reads requested before a write take their unit before it is written (R322). -/
def Channel.readsBefore (ch : Channel) (w : WriteUnit) : Channel := ch.takeReads (fun u => u.unit == w.unit && !w.before u.req u.entry)

/-- Whether an entry of the channel still has a firing to come before one of `entry` in fc `req` (R316, R322). -/
def Channel.firingBefore (ch : Channel) (req : Nat) (entry : BitVec 6) : Bool :=
  (List.range 64).any (fun n =>
    let e := ch.dsEntry n
    let m := AMap.get 0 ch.fired n
    let f := e.start + m * e.period
    e.valid && m ≤ e.reps && (f < req || (f == req && n < entry.toNat)))

/-- Whether something is still to be requested of a channel before the request of `entry` in fc `req`: a channel serves its requests in their order (R322). -/
def State.requestsBefore (s : State) (ch : ChanId) (req : Nat) (entry : BitVec 6) : Bool :=
  let k := s.channel ch
  k.firingBefore req entry || (s.plot (k.owner.getD 0)).cores.any (fun c => (s.core c).step.events.any (fun e =>
    match e.ev with
    | .sourceRead l => l.chan == ch && (e.fc < req || (e.fc == req && l.entry.toNat < entry.toNat))
    | _ => false))

/-- The channel of a plot's ordinal (R313). -/
def State.ordinalChan (s : State) (fn : Fn) (o : Nat) : Option ChanId :=
  (s.channels.find? (fun c => c.2.owner == some fn && c.2.ordinal.toNat == o)).map (fun c => BitVec.ofNat 9 c.1)

/-- The channel and share offset of a plot-space unit (R313). -/
def State.spaceUnit (s : State) (fn : Fn) (u : Nat) : Option (ChanId × Nat) :=
  (s.ordinalChan fn (u / shareUnits)).map (fun c => (c, u % shareUnits))

/-- Whether the grade has the channel (R3, R311). -/
def State.hasChannel (s : State) (ch : ChanId) : Bool := ch.toNat < s.grade.channels

/-- A command of a channel: a fault where the grade has no such channel. -/
def channelCommand (s : State) (ch : ChanId) (act : Channel → State) : Host.Outcome State Fault Refusal :=
  if !s.hasChannel ch then .fault .noSuchChannel else .next (act (s.channel ch))

/-- D0 of DEEP_UE and DS_RANGE (R378). -/
def ordinalWord (o : BitVec 9) : Word := BitVec.ofNat 64 (2 ^ 63 + o.toNat * 2 ^ 32)

/-- The core that an entry names, in the plot that owns the channel. -/
def State.entryCore (s : State) (ch : Channel) (e : DsEntry) : CoreId :=
  let p := s.plot (ch.owner.getD 0)
  coreAt (p.place.originY.toNat + e.y) (p.place.originX.toNat + e.x)

/-! ### Firings (R316 to R320) -/

/-- The next firing of an entry: number and offset, while it is valid, of the kind, and firings remain. -/
def Channel.nextFiring (ch : Channel) (entry : BitVec 6) (kind : Nat) : Option (DsEntry × Nat × Nat) :=
  let e := ch.dsEntry entry.toNat
  let m := AMap.get 0 ch.fired entry.toNat
  if e.valid && e.kind == kind && m ≤ e.reps then some (e, m, e.start + m * e.period) else none

/-- Counts a firing of an entry. -/
def Channel.countFiring (ch : Channel) (entry : BitVec 6) : Channel :=
  { ch with fired := AMap.put 0 ch.fired entry.toNat (AMap.get 0 ch.fired entry.toNat + 1) }

/-- The plot-space address of unit 0 of a firing (R320). -/
def Plot.unitAddress (p : Plot) (e : DsEntry) (m : Nat) : Int :=
  (if e.ben then ((AMap.get {} p.sbase e.breg).base.toNat : Int) else 0) + e.dpos + m * e.dstep

/-- Whether the units of a firing lie in the channel's share (R320). -/
def Channel.inShare (ch : Channel) (a : Int) (lines : Nat) : Bool :=
  let lo : Int := ch.ordinal.toNat * shareUnits
  lo ≤ a && a + lines < lo + shareUnits

/-- A firing of an entry whose core runs, the channel's earlier firings done: the core runs to the firing's offset, the firing is counted, and DS_RANGE is judged (R316, R320, R322); then `act`. -/
def firingCommand (s : State) (ch : ChanId) (entry : BitVec 6) (kind : Nat) (act : State → Channel → DsEntry → Nat → CoreId → Nat → State) : Host.Outcome State Fault Refusal :=
  channelCommand s ch (fun k =>
    match k.nextFiring entry kind with
    | none => s
    | some (e, m, f) =>
      let cid := s.entryCore k e
      if k.owner.isNone || !s.routerRuns cid || k.firingBefore f entry then s
      else
        let s := s.onCore cid (fun env c => c.runTo env f)
        let s := s.setChannel ch ((s.channel ch).countFiring entry)
        let a := (s.plot (k.owner.getD 0)).unitAddress e m
        if kind != 2 && !k.inShare a e.lines then
          s.modCore cid (fun c => c.fault 0x2020 { site := e.site, num := entry.toNat } (ordinalWord k.ordinal) (BitVec.ofInt 64 a) 0)
        else act s (s.channel ch) e m cid a.toNat)

/-- The element position of a firing in its handle (R316). -/
def DsEntry.position (e : DsEntry) (m : Nat) : Nat := e.hpos + m * e.hstep

/-- One unit of a READ firing is requested in fc `f + j` (R316, R317, R322). -/
def State.requestRead (s : State) (ch : ChanId) (entry : BitVec 6) (e : DsEntry) (m : Nat) (cid : CoreId) (a f j : Nat) : State :=
  let k := s.channel ch
  let u : ReadUnit := { entry := entry, req := f + j, taken := false, firing := m, core := cid, handle := e.h, pos := e.position m, j := j, last := e.lines, unit := a + j, data := 0, bruise := 0
                        bad := false, land := f + j + 512, delayed := false, noted := false, tallyEn := e.ten, tally := e.tally, amount := e.amount, site := e.site }
  s.setChannel ch { k with reads := k.reads ++ [u] }

/-- DS_READ_FIRING (R317, R320): MISALIGNED, or LINES + 1 units requested from the firing's offset on. -/
def execDsReadFiring (ch : ChanId) (entry : BitVec 6) (s : State) : Host.Outcome State Fault Refusal :=
  firingCommand s ch entry 0 (fun s _ e m cid a =>
    let c := s.core cid
    match c.destAligned e.h (e.position m) with
    | some b => s.modCore cid (fun c => c.accessFault b { site := e.site, num := entry.toNat })
    | none => (List.range (e.lines + 1)).foldl (fun s j => s.requestRead ch entry e m cid a c.step.offset j) s)

/-- DS_WRITE_FIRING (R318, R320, R330): source line j is judged and read in fc f + j, and its unit requested there. -/
def execDsWriteFiring (ch : ChanId) (entry : BitVec 6) (s : State) : Host.Outcome State Fault Refusal :=
  firingCommand s ch entry 1 (fun s _ e m cid a =>
    s.modCore cid (fun c =>
      (List.range (e.lines + 1)).foldl (fun (c : CoreState) j =>
        c.push (c.step.offset + j) (.sourceRead { chan := ch, entry := entry, firing := m, handle := e.h, pos := e.position m, j := j, last := e.lines, unit := a
                                                  tallyEn := e.ten, tally := e.tally, amount := e.amount, site := e.site })) c))

/-- The lowest-numbered ring that a granary firing drains (R268, R319). -/
def CoreState.drainRing (c : CoreState) : Option (BitVec 3) :=
  ((List.range 8).map (BitVec.ofNat 3)).find? (fun r =>
    let p := c.ringPtr r
    p.spill != 0 && !(AMap.get [] c.work.queues r.toNat).isEmpty &&
      (p.wr - p.rd).toNat + (c.traffic.drains.filter (fun d => d.ring == r)).length < 2 ^ (c.ring r).logsize)

/-- The lowest-numbered ring with a delivery that waits to spill (R319). -/
def CoreState.spillRing (c : CoreState) : Option SpillWait :=
  (List.range 8).findSome? (fun r => c.traffic.spillWait.find? (fun w => w.ring.toNat == r))

/-- A unit of deep store as a ring entry. -/
def entryOfUnit (d : BitVec 512) (bruise : BitVec 8) : RingEntry := { line := d, bruise := bruise }

/-- DS_GRANARY_FIRING (R319, R322): a drain first, then a spill; nothing when neither is pending. A drain takes what its unit holds after every write requested before; an entry stands in its queue from the request of its spill on. -/
def execDsGranaryFiring (ch : ChanId) (entry : BitVec 6) (s : State) : Host.Outcome State Fault Refusal :=
  firingCommand s ch entry 2 (fun s k e _ cid _ =>
    let c := s.core cid
    match c.drainRing with
    | some r =>
      match AMap.get [] c.work.queues r.toNat with
      | [] => s
      | g :: rest =>
        let u := k.readOrdered (g.unit % shareUnits) c.step.offset entry
        let d : Drain := { ring := r, e := entryOfUnit u.2.1 u.2.2.1, ordinal := k.ordinal, unit := g.unit, bad := u.2.2.2, land := c.step.offset + 512, site := e.site }
        (s.setChannel ch u.1).setCore cid { c with work.queues := AMap.put [] c.work.queues r.toNat rest, traffic.drains := c.traffic.drains ++ [d] }
    | none =>
      match c.spillRing with
      | none => s
      | some w =>
        let u : WriteUnit := { chan := ch, entry := entry, req := c.step.offset, unit := w.unit, data := w.e.line, bruise := w.e.bruise, spill := true, core := cid, ring := w.ring, sender := w.sender, site := e.site }
        (s.setChannel ch (k.addWrite u)).setCore cid { c with
          work.queues := AMap.put [] c.work.queues w.ring.toNat (AMap.get [] c.work.queues w.ring.toNat ++ [{ e := w.e, unit := w.unit }])
          traffic.spillWait := c.traffic.spillWait.erase w })

/-! ### Landings and writes -/

/-- One attempt of a READ unit to land (R301, R317): the first holds the slot's own write port, a delayed one takes its port anew. -/
def CoreState.tryUnit (c : CoreState) (env : Env) (later : Bool) (u : ReadUnit) : Landing :=
  c.tryLand (if u.delayed then c.landPort env else some c) later u.handle u.pos u.j u.data u.bruise { site := u.site, num := u.entry.toNat, port := 5 }

/-- The order of deep-store landings on a common word in one fc: by channel, entry and unit (R301). -/
def ReadUnit.rank (u : ReadUnit) (ch : Nat) : Nat := (ch * 64 + u.entry.toNat) * 16 + u.j

/-- Whether a landing from deep store stands before a unit of channel `ch` on a common word in fc `fc` of a core: mesh landings do, and the units of a lower channel, entry and unit (R301). -/
def State.unitFirst (s : State) (ch : ChanId) (u : ReadUnit) (fc : Nat) : Bool :=
  let words := (s.core u.core).lineWords u.handle u.pos u.j
  s.landsFirst u.core fc (landingPlace 5) words || s.channels.any (fun k => k.2.owner == (s.channel ch).owner && k.2.reads.any (fun v =>
    v.core == u.core && v.land == fc && v.rank k.1 < u.rank ch.toNat && ((s.core u.core).lineWords v.handle v.pos v.j).any words.contains))

/-- The event of a delayed READ landing, port 5 (R301, R302). -/
def CoreState.settleUnit (c : CoreState) (u : ReadUnit) : CoreState :=
  if u.noted then ({ c with traffic.collided := false } : CoreState).collision c.step.offset 5 u.site else c

/-- DEEP_UE by the entry's core (R333). -/
def CoreState.noteUe (c : CoreState) (ordinal : BitVec 9) (unit : Nat) (o : Origin) : CoreState :=
  c.note 0x3005 o (ordinalWord ordinal) (BitVec.ofNat 64 unit) 0

/-- One attempt of a READ unit to land, its core at the landing fc: the unit is read first, after every write requested before it (R301, R317, R322, R333). -/
def State.landUnit (s : State) (ch : ChanId) (u : ReadUnit) : State :=
  let c := s.core u.core
  let r := (s.channel ch).takeRead u
  let k : Channel := { r.1 with reads := r.1.reads.map (fun x => if x == u then r.2 else x) }
  let u := r.2
  let key := (u.entry.toNat, u.firing)
  let rest : Channel := { k with reads := k.reads.erase u }
  let marked (c : CoreState) : CoreState := if u.bad then c.noteUe k.ordinal u.unit { site := u.site, num := u.entry.toNat } else c
  match c.tryUnit (s.env u.core) (s.unitFirst ch u c.step.offset) u with
  | .held c =>
    let c := { c with traffic.collided := true, mesh.wordColl := if u.delayed then c.mesh.wordColl else satAdd c.mesh.wordColl 1 }
    let u2 : ReadUnit := { u with land := c.step.offset + 1, delayed := true, noted := u.noted || !(s.core u.core).traffic.collided }
    (s.setCore u.core c).setChannel ch { k with reads := k.reads.map (fun x => if x == u then u2 else x) }
  | .failed c => (s.setCore u.core (marked (c.settleUnit u))).setChannel ch { rest with failedFirings := rest.failedFirings ++ [key] }
  | .done c =>
    let c := marked (c.settleUnit u)
    let c := if u.j = u.last && u.tallyEn && !k.failedFirings.contains key then c.push c.step.offset (.tally u.tally u.amount) else c
    (s.setCore u.core c).setChannel ch rest

/-- The outstanding READ unit with the earliest landing fc; the first requested among those of one fc. -/
def Channel.nextRead (ch : Channel) : Option ReadUnit :=
  ch.reads.foldl (fun (m : Option ReadUnit) u => match m with | none => some u | some b => if u.land < b.land then some u else some b) none

/-- DS_READ_UNIT_LANDS (R301, R317, R322): the READ unit with the earliest landing fc lands, is held or is discarded, once all that was to be requested before it has been. -/
def execDsReadUnitLands (ch : ChanId) (s : State) : Host.Outcome State Fault Refusal :=
  channelCommand s ch (fun k =>
    match k.nextRead with
    | none => s
    | some u =>
      if !s.routerRuns u.core then s
      else
        let s := s.onCore u.core (fun env c => c.runTo env u.land)
        if s.requestsBefore ch u.req u.entry then s else s.landUnit ch u)

/-- DS_WRITE_PERFORMED (R318, R322, R327, R333): the oldest WRITE unit is journaled and written, after the reads requested before it, once all that was to be requested before it has been; a spill is not journaled. -/
def execDsWritePerformed (ch : ChanId) (s : State) : Host.Outcome State Fault Refusal :=
  channelCommand s ch (fun k =>
    match k.writes with
    | [] => s
    | w :: rest =>
      if s.requestsBefore ch w.req w.entry then s
      else
      let k := k.readsBefore w
      let u := w.unit % shareUnits
      if w.spill then s.setChannel ch (({ k with writes := rest } : Channel).write u w.data w.bruise)
      else
        let r := ({ k with writes := rest } : Channel).readUnit u
        let j : JournalEntry := { unit := u, data := r.2.1, bruise := r.2.2.1, damage := .sound }
        let k2 : Channel := { r.1 with journal := r.1.journal ++ [j] }
        let s := s.setChannel ch (k2.write u w.data w.bruise)
        if r.2.2.2 then s.modCore w.core (fun c => c.noteUe k.ordinal w.unit { site := w.site, num := w.entry.toNat }) else s)

/-! ### Stalls, refresh, scrub -/

/-- DEEP_STALL (R326): the plot is stalled in the channel's field when a READ unit has not reached it by its landing fc, or a WRITE unit has found the write queue full. -/
def execDeepStall (ch : ChanId) (s : State) : Host.Outcome State Fault Refusal :=
  channelCommand s ch (fun k =>
    if k.owner.isSome && (k.reads.any (fun u => u.land ≤ (s.core u.core).step.offset) || writeQueue < k.writes.length) then s.setChannel ch { k with stalled := true } else s)

/-- The event entry of a channel's stalls in a step (R326, R361): the first stall enters it, later ones add their periods. -/
def stallEvents (es : List EventEntry) (p : Plot) (ch : ChanId) (first : Bool) (periods offset : Nat) : List EventEntry :=
  let d0 : Word := BitVec.ofNat 64 ch.toNat
  if first then
    es ++ [{ code := 0x0004, bell := p.bell.bell, attempt := p.bell.attempt, kind := 0, site := 0, offset := BitVec.ofNat 32 offset, d0 := d0, d1 := BitVec.ofNat 64 periods }]
  else es.map (fun e => if e.code == 0x0004 && e.d0 == d0 && e.attempt == p.bell.attempt then { e with d1 := e.d1 + BitVec.ofNat 64 periods } else e)

/-- A report that the hub die makes for a plot within its running step. -/
def Plot.hubReport (p : Plot) (fn : Fn) (code : Code) (time : Word) (d0 d1 d2 : Word) (offset : BitVec 32 := 0xFFFFFFFF) : Plot :=
  { p with faults.attemptReports := p.faults.attemptReports ++ [{ code := code, attempt := p.bell.attempt, bell := p.bell.bell, function := fn, hostTag := p.run.hostTag, offset := offset, time := time, d0 := d0, d1 := d1, d2 := d2 }] }

/-- DEEP_STALL_END (R326, R334): `periods` oscillator periods were swallowed until the unit has arrived or the queue has room. -/
def execDeepStallEnd (ch : ChanId) (periods : Nat) (s : State) : Host.Outcome State Fault Refusal :=
  channelCommand s ch (fun k =>
    if !k.stalled || writeQueue < k.writes.length then s
    else
      let fn := k.owner.getD 0
      let first := !k.stalledInStep
      let f : FieldId := BitVec.ofNat 3 (ch.toNat / 64)
      let s := s.setChannel ch { k with stalled := false, stalledInStep := true, stat.stall := satAdd k.stat.stall periods }
      s.modPlot fn (fun p =>
        let p := if first then p.hubReport fn 0x0004 s.stamp 0 0 0 (BitVec.ofNat 32 (s.fieldOffset fn f)) else p
        { p with run.events := stallEvents p.run.events p ch first periods (s.fieldOffset fn f) }))

/-- DS_REFRESH (R324, R334): REFRESH counts in units of 256. -/
def execDsRefresh (ch : ChanId) (s : State) : Host.Outcome State Fault Refusal :=
  channelCommand s ch (fun k =>
    let n := k.stat.refreshSub + 1
    s.setChannel ch { k with stat.refreshSub := n % 256, stat.refresh := if n = 256 then satAdd k.stat.refresh 1 else k.stat.refresh })

/-- A report that concerns no plot enters the reeve's log of 1,024, over the oldest when it is full (R380, R413). -/
def HubFaults.enterLog (h : HubFaults) (r : Report) : HubFaults :=
  let full := 1024 ≤ h.log.length
  { h with
    log := (if full then h.log.drop 1 else h.log) ++ [{ r with log := true, function := 0 }]
    logWrapped := h.logWrapped || full
    logLast := r.code
    logEntered := satAdd h.logEntered 1
    logRead := if full then h.logRead - 1 else h.logRead
    logSent := if full then h.logSent - 1 else h.logSent }

/-- DS_SCRUB (R332, R333): a correctable unit is rewritten corrected, an uncorrectable one bruised with SCRUB_BRUISE; the requests that stand before the scrub take the unit first, so a READ governs. -/
def execDsScrub (ch : ChanId) (unit : Nat) (s : State) : Host.Outcome State Fault Refusal :=
  channelCommand s ch (fun k =>
    let k := k.takeReads (fun u => u.unit % shareUnits == unit && !s.requestsBefore ch u.req u.entry)
    let bad := AMap.get Damage.sound k.damage unit == .uncorrectable
    let s := s.setChannel ch (k.readUnit unit).1
    if !bad then s
    else
      match k.owner with
      | none => s.modHub (fun h => { h with faults := h.faults.enterLog { code := 0x0002, time := s.stamp, seq := h.seq }, seq := h.seq + 1 })
      | some fn =>
        s.modPlot fn (fun p =>
          let p := p.hubReport fn 0x0002 s.stamp 0 0 0
          { p with run.events := p.run.events ++ [{ code := 0x0002, bell := p.bell.bell, attempt := p.bell.attempt, kind := 1, site := 0, offset := 0xFFFFFFFF
                                                    d0 := ordinalWord k.ordinal, d1 := BitVec.ofNat 64 (k.ordinal.toNat * shareUnits + unit) }] }))

end Sys2Proof.Machine
end

