-- ==== Sys2Proof/Machine/Reports.lean ====
section
/-! DEFINITION. Fault classes, fault reports, the reeve's log, HUB.FAULTSUM and the event list of a step (R360, R361, R373 to R382, R404, R405). -/

namespace Sys2Proof.Machine

/-! ### Ordered insertion -/

/-- Lexicographic order of keys. -/
def keyLe : List Nat → List Nat → Bool
  | [], _ => true
  | _ :: _, [] => false
  | a :: l, b :: m => if a < b then true else if b < a then false else keyLe l m

/-! ### Classes (R373, R405) -/

/-- The classes of R373. -/
inductive FaultClass where
  | info | refusal | program | hardware | system | environment | security
  deriving DecidableEq, Repr

/-- The class of a code (R405); LINK_DOWN takes its class from the link that D0 names (R373, R535). -/
def codeClass (code : Code) (d0 : Word) : FaultClass :=
  if code == 0x3006 then (if bitOf d0 63 then .system else .hardware)
  else if code == 0x2006 then .info
  else if code == 0x3003 || code == 0x3007 || code == 0x3009 then .system
  else match fieldOf code 12 4 with
    | 0 => .info
    | 1 => .refusal
    | 2 => .program
    | 3 => .hardware
    | 4 => .environment
    | _ => .security

/-- The class of a report. -/
def Report.cls (r : Report) : FaultClass := codeClass r.code r.d0

/-- Whether a report abandons the attempt in which it arose (R69, R73, R373). -/
def Report.abandons (r : Report) : Bool :=
  match r.cls with
  | .program => true
  | .hardware => true
  | .system => true
  | .environment => r.code == 0x4002 || r.code == 0x4004
  | _ => false

/-! ### HUB.FAULTSUM, the log, the queues -/

/-- The bit of HUB.FAULTSUM that a report sets (R382). -/
def Report.sumBit (r : Report) : Option Nat :=
  match r.cls with
  | .system => if r.stop then some 0 else none
  | .hardware => some 1
  | .environment => if r.code == 0x4006 || r.code == 0x4007 then some 4 else if r.code == 0x4001 || r.code == 0x4005 then none else some 2
  | .security => some 3
  | _ => none

/-- Sets the bit of HUB.FAULTSUM, with its in-band interrupt (R382, R553). -/
def Hub.sumUp (h : Hub) (r : Report) : Hub :=
  match r.sumBit with
  | none => h
  | some k => { h with faults.sum := h.faults.sum ||| BitVec.ofNat 5 (2 ^ k), i3c.ibi := h.i3c.ibi ++ [r.code] }

/-- Whether FAULT_N is asserted (R77, R382, R471, R476, R544). -/
def Hub.faultN (h : Hub) : Bool :=
  h.faults.sum &&& ~~~h.faults.mask != 0 || h.refs.faultN || h.boot.failed || h.pins.powerLatched

/-- A report that concerns no plot, to the reeve's log (R380). -/
def State.logReport (s : State) (code : Code) (d0 d1 d2 : Word) : State :=
  let r : Report := { code := code, time := s.stamp, d0 := d0, d1 := d1, d2 := d2 }
  s.modHub (fun h => { h.sumUp r with faults := (h.sumUp r).faults.enterLog { r with seq := h.seq }, seq := h.seq + 1 })

/-- The key of R379 within one attempt: the number of key 7 counts for reports of no bundle slot alone. -/
def Report.key (r : Report) : List Nat :=
  [r.offset.toNat, if r.core == 0xFFFFFFFF then 4096 else fieldOf r.core 0 12, r.slot, r.code.toNat, if r.slot = 7 then r.num else 0]

/-- A report takes its place among the undelivered reports of its own bell and attempt that end the queue (R379). -/
def insertReport (r : Report) : List Report → List Report
  | [] => [r]
  | q :: l => if (q :: l).all (fun x => x.bell == r.bell && x.attempt == r.attempt) && !keyLe q.key r.key then r :: q :: l else q :: insertReport r l

/-- A report joins a plot's queue of 256 (R379, R380). -/
def FaultState.enqueue (f : FaultState) (r : Report) : FaultState :=
  let lost := satAdd f.lost 1
  if r.stop || r.primary then
    if f.queue.length < 256 then { f with queue := insertReport r f.queue }
    else
      match (sortBy (fun a b => a.seq ≤ b.seq) f.queue).find? (fun q => !(q.stop || q.primary)) with
      | some q => { f with queue := insertReport r (f.queue.erase q), lost := lost }
      | none => { f with lost := lost }
  else if f.queue.length < 248 then { f with queue := insertReport r f.queue }
  else { f with lost := lost }

/-- A report of the hub die for a plot outside a step (R377); one that stops the plot is PRIMARY. -/
def State.hubReport (s : State) (fn : Fn) (code : Code) (stop : Bool) (d0 d1 d2 : Word) : Report :=
  let p := s.plot fn
  { code := code, stop := stop, primary := stop, attempt := p.bell.attempt, bell := p.bell.bell, function := fn, hostTag := p.run.hostTag, time := s.stamp, d0 := d0, d1 := d1, d2 := d2 }

/-- Hands a report to a plot's queue and to HUB.FAULTSUM. -/
def State.queueReport (s : State) (fn : Fn) (r : Report) : State :=
  (s.modPlot fn (fun p => { p with faults := p.faults.enqueue { r with seq := s.hub.seq } })).modHub (fun h => { h.sumUp r with seq := h.seq + 1 })

/-- A report of the hub die for a plot outside a step, queued at once. -/
def State.plotReport (s : State) (fn : Fn) (code : Code) (stop : Bool) (d0 d1 d2 : Word) : State :=
  s.queueReport fn (s.hubReport fn code stop d0 d1 d2)

/-! ### The reports of an attempt (R378, R379) -/

/-- The fields that a plot occupies (R446). -/
def Plot.fieldList (p : Plot) : List Nat := (List.range 8).filter (fun f => p.cores.any (fun c => (fieldOfCore c).toNat == f))

/-- The FIELDS mask of a plot (R446). -/
def Plot.fieldMask (p : Plot) : BitVec 8 := BitVec.ofNat 8 ((p.fieldList.map (fun f => 2 ^ f)).foldl (· + ·) 0)

/-- A core as a destination value with SCOPE 1 (R39, R377). -/
def coreDest (c : CoreId) : BitVec 32 := BitVec.ofNat 32 (2 ^ 24 + c.toNat)

/-- Detail word 0 of a core's report: SLOT_COLLISION and SCRUB_BRUISE fill none (R378); the core keeps what their events need there. -/
def reportD0 (r : CoreReport) : Word := if r.code == 0x2006 || r.code == 0x0002 then 0 else r.d0

/-- A core's report with the plot's common fields (R377). TIME is the calendar when the hub takes the report (log entry 26). -/
def CoreReport.full (r : CoreReport) (p : Plot) (fn : Fn) (c : CoreId) (time : Word) : Report :=
  { code := r.code, fill := r.fill, attempt := p.bell.attempt, core := coreDest c, bell := p.bell.bell, offset := BitVec.ofNat 32 r.offset, site := r.site, function := fn
    hostTag := p.run.hostTag, time := time, d0 := reportD0 r, d1 := r.d1, d2 := r.d2, slot := r.slot, num := r.num }

/-- All reports of a plot's running attempt in the order of R379. -/
def State.attemptReports (s : State) (fn : Fn) : List Report :=
  let p := s.plot fn
  let cores := p.cores.flatMap (fun c => (s.core c).traffic.reports.map (fun r => r.full p fn c s.stamp))
  sortBy (fun a b => keyLe a.key b.key) (cores ++ p.faults.attemptReports)

/-! ### Event entries (R360, R361) -/

/-- The event entry of a core's report, when R361 lists its code. Overruns enter where they are detected. -/
def CoreReport.event (r : CoreReport) (p : Plot) (c : CoreId) : Option EventEntry :=
  let core : Word := (coreDest c).setWidth 64
  let e (kind : BitVec 8) (d0 d1 : Word) : Option EventEntry :=
    some { code := r.code, bell := p.bell.bell, attempt := p.bell.attempt, kind := kind, site := r.site, offset := BitVec.ofNat 32 r.offset, d0 := d0, d1 := d1 }
  match r.code.toNat with
  | 0x3001 => e 1 core r.d0
  | 0x3005 => e 1 (core ||| r.d0) r.d1
  | 0x0002 => e 1 core r.d0
  | 0x2006 => e 2 (core ||| r.d0) 0
  | _ => none

/-- The event entry of a hub-die report of CORE_LOST, COLUMN_LOST, SIG_MISMATCH, LINK_DOWN or SCRATCH_UE. LINK_DOWN of a bridge gives the edge as its report does and the link in D0[39:32]; that of an optical link gives its report's D0 (log entry 110). -/
def Report.event (r : Report) : Option EventEntry :=
  let core : Word := r.core.setWidth 64
  let e (kind : BitVec 8) (d0 d1 : Word) : Option EventEntry := some { code := r.code, bell := r.bell, attempt := r.attempt, kind := kind, site := r.site, offset := r.offset, d0 := d0, d1 := d1 }
  match r.code.toNat with
  | 0x3001 => e 1 core r.d0
  | 0x3005 => e 1 (core ||| r.d0) r.d1
  | 0x3002 => e 0 core (BitVec.ofNat 64 (fieldOf r.d0 4 6))
  | 0x3008 => e 0 core (if fieldOf r.d0 0 6 = 0x3F then 0 else BitVec.ofNat 64 (fieldOf r.d0 0 6))
  | 0x3004 => e 0 core 0
  | 0x3006 => if bitOf r.d0 63 then e 0 r.d0 0 else e 0 (BitVec.ofNat 64 (fieldOf r.d0 0 5 + 2 ^ 32 * fieldOf r.d1 0 6)) (BitVec.ofNat 64 (fieldOf r.d1 0 6))
  | _ => none

/-- The entry of KIND 4 of a fault that stops the plot (R361). -/
def Report.stopEvent (r : Report) : EventEntry :=
  { code := r.code, bell := r.bell, attempt := r.attempt, kind := 4, site := r.site, offset := r.offset, d0 := r.core.setWidth 64, d1 := r.hostTag }

/-- The order of a step's entries (R360). -/
def EventEntry.key (e : EventEntry) : List Nat := [e.attempt.toNat, e.offset.toNat, e.code.toNat]

/-- The event entries of a plot's running attempt that no command has entered yet. -/
def State.attemptEvents (s : State) (fn : Fn) : List EventEntry :=
  let p := s.plot fn
  p.cores.flatMap (fun c => (s.core c).traffic.reports.filterMap (fun r => r.event p c)) ++ p.faults.attemptReports.filterMap Report.event

/-! ### What an attempt comes to (R74, R373, R387, R404) -/

/-- The outcome of an attempt and the place of the report that decides it. -/
inductive Verdict where
  | commit
  | retry (by_ : Nat)
  | stop (by_ : Nat)
  deriving DecidableEq, Repr

/-- The first place at which `f` holds, if any. -/
def placeOf {α : Type} (f : α → Bool) (l : List α) : Option Nat := (l.zipIdx.find? (fun p => f p.1)).map (·.2)

/-- The outcome of an attempt (R74, R387, R404): a class S report stops the plot; a class P report with no class H report before it stops it; otherwise a class H or class E report retries the step, but BELL_OVERRUN stops it from the third attempt on and any of them in the fourth. `attempt` counts the attempts abandoned before this one. -/
def verdictOf (rs : List Report) (attempt : Nat) : Verdict :=
  let at_ (c : FaultClass) : Option Nat := placeOf (fun r => r.cls == c && r.abandons) rs
  let later : Verdict :=
    match placeOf (fun r => r.code == 0x4002) rs, placeOf (fun r => r.abandons) rs with
    | some o, some k => if 2 ≤ attempt then .stop o else .retry (min o k)
    | none, some k => if 3 ≤ attempt then .stop k else .retry k
    | _, none => .commit
  match at_ .system, at_ .program, at_ .hardware with
  | some k, _, _ => .stop k
  | none, some a, some b => if b < a then later else .stop a
  | none, some a, none => .stop a
  | none, none, _ => later

/-- The reports of an attempt with the flags of its outcome (R377). -/
def flagReports (v : Verdict) (rs : List Report) : List Report :=
  rs.zipIdx.map (fun p =>
    match v with
    | .commit => p.1
    | .retry k => { p.1 with retry := true, primary := p.2 == k }
    | .stop k => { p.1 with stop := true, primary := p.2 == k })

/-- Hands reports to a plot's queue and to HUB.FAULTSUM. -/
def State.queueReports (s : State) (fn : Fn) (rs : List Report) : State := rs.foldl (fun (s : State) r => s.queueReport fn r) s

/-- Clears what an attempt has reported. -/
def State.clearReports (s : State) (fn : Fn) : State :=
  ((s.plot fn).cores.foldl (fun (s : State) c => s.modCore c (fun k => { k with traffic.reports := [] })) s).modPlot fn (fun p => { p with faults.attemptReports := [] })

end Sys2Proof.Machine
end

