-- ==== Sys2Proof/Machine/Sha256.lean ====
section
/-! DEFINITION. SHA-256 under FIPS 180-4, which every digest of the spec is (R351, R417, R488), over lists of bytes. -/

namespace Sys2Proof.Machine

/-- The 64 round constants of FIPS 180-4. -/
def shaK : List (BitVec 32) :=
  [0x428A2F98, 0x71374491, 0xB5C0FBCF, 0xE9B5DBA5, 0x3956C25B, 0x59F111F1, 0x923F82A4, 0xAB1C5ED5]
  ++ [0xD807AA98, 0x12835B01, 0x243185BE, 0x550C7DC3, 0x72BE5D74, 0x80DEB1FE, 0x9BDC06A7, 0xC19BF174]
  ++ [0xE49B69C1, 0xEFBE4786, 0x0FC19DC6, 0x240CA1CC, 0x2DE92C6F, 0x4A7484AA, 0x5CB0A9DC, 0x76F988DA]
  ++ [0x983E5152, 0xA831C66D, 0xB00327C8, 0xBF597FC7, 0xC6E00BF3, 0xD5A79147, 0x06CA6351, 0x14292967]
  ++ [0x27B70A85, 0x2E1B2138, 0x4D2C6DFC, 0x53380D13, 0x650A7354, 0x766A0ABB, 0x81C2C92E, 0x92722C85]
  ++ [0xA2BFE8A1, 0xA81A664B, 0xC24B8B70, 0xC76C51A3, 0xD192E819, 0xD6990624, 0xF40E3585, 0x106AA070]
  ++ [0x19A4C116, 0x1E376C08, 0x2748774C, 0x34B0BCB5, 0x391C0CB3, 0x4ED8AA4A, 0x5B9CCA4F, 0x682E6FF3]
  ++ [0x748F82EE, 0x78A5636F, 0x84C87814, 0x8CC70208, 0x90BEFFFA, 0xA4506CEB, 0xBEF9A3F7, 0xC67178F2]

/-- The initial hash value of FIPS 180-4. -/
def shaInit : List (BitVec 32) := [0x6A09E667, 0xBB67AE85, 0x3C6EF372, 0xA54FF53A, 0x510E527F, 0x9B05688C, 0x1F83D9AB, 0x5BE0CD19]

/-- One word of the message schedule before the words `w`, newest first. -/
def shaNext (w : List (BitVec 32)) : BitVec 32 :=
  let a := listGet 0 w 1
  let b := listGet 0 w 14
  let s1 := (a.rotateRight 17 ^^^ a.rotateRight 19) ^^^ (a >>> 10)
  let s0 := (b.rotateRight 7 ^^^ b.rotateRight 18) ^^^ (b >>> 3)
  s1 + listGet 0 w 6 + s0 + listGet 0 w 15

/-- `n` further words of the message schedule, newest first. -/
def shaExtend : Nat → List (BitVec 32) → List (BitVec 32)
  | 0, w => w
  | n + 1, w => shaExtend n (shaNext w :: w)

/-- The eight working variables. -/
structure ShaVars where
  a : BitVec 32
  b : BitVec 32
  c : BitVec 32
  d : BitVec 32
  e : BitVec 32
  f : BitVec 32
  g : BitVec 32
  h : BitVec 32

/-- One round with its constant and schedule word. -/
def ShaVars.round (v : ShaVars) (kw : BitVec 32 × BitVec 32) : ShaVars :=
  let s1 := (v.e.rotateRight 6 ^^^ v.e.rotateRight 11) ^^^ v.e.rotateRight 25
  let ch := (v.e &&& v.f) ^^^ (~~~v.e &&& v.g)
  let t1 := v.h + s1 + ch + kw.1 + kw.2
  let s0 := (v.a.rotateRight 2 ^^^ v.a.rotateRight 13) ^^^ v.a.rotateRight 22
  let maj := ((v.a &&& v.b) ^^^ (v.a &&& v.c)) ^^^ (v.b &&& v.c)
  { a := t1 + (s0 + maj), b := v.a, c := v.b, d := v.c, e := v.d + t1, f := v.e, g := v.f, h := v.g }

/-- The working variables of a hash value. -/
def ShaVars.ofHash (h : List (BitVec 32)) : ShaVars :=
  { a := listGet 0 h 0, b := listGet 0 h 1, c := listGet 0 h 2, d := listGet 0 h 3, e := listGet 0 h 4, f := listGet 0 h 5, g := listGet 0 h 6, h := listGet 0 h 7 }

/-- The working variables as a list. -/
def ShaVars.list (v : ShaVars) : List (BitVec 32) := [v.a, v.b, v.c, v.d, v.e, v.f, v.g, v.h]

/-- The hash value after one block of sixteen words. -/
def shaBlock (h : List (BitVec 32)) (block : List (BitVec 32)) : List (BitVec 32) :=
  let w := (shaExtend 48 block.reverse).reverse
  List.zipWith (· + ·) h ((shaK.zip w).foldl ShaVars.round (ShaVars.ofHash h)).list

/-- A big-endian word of four bytes. -/
def wordBe (l : List Byte) : BitVec 32 := BitVec.ofNat 32 (l.foldl (fun n b => 256 * n + b.toNat) 0)

/-- The pieces of `k` bytes of a list, `n` of them. -/
def pieces {α : Type} (k : Nat) : Nat → List α → List (List α)
  | 0, _ => []
  | n + 1, l => l.take k :: pieces k n (l.drop k)

/-- The padded message. -/
def shaPad (m : List Byte) : List Byte :=
  let n := m.length
  m ++ [0x80] ++ List.replicate ((119 - n % 64) % 64) 0 ++ (List.range 8).map (fun i => BitVec.ofNat 8 (8 * n / 256 ^ (7 - i)))

/-- The 32 bytes of a SHA-256 digest. -/
def sha256 (m : List Byte) : List Byte :=
  let p := shaPad m
  let h := (pieces 64 (p.length / 64) p).foldl (fun h b => shaBlock h ((pieces 4 16 b).map wordBe)) shaInit
  h.flatMap (fun w => (List.range 4).map (fun i => w.extractLsb' (8 * (3 - i)) 8))

/-- A little-endian number of bytes (R10). -/
def natOfBytes (l : List Byte) : Nat := l.foldr (fun b n => b.toNat + 256 * n) 0

/-- The `n` bytes of a number, byte 0 first (R10). -/
def bytesOfNat (n v : Nat) : List Byte := (List.range n).map (fun i => BitVec.ofNat 8 (v / 256 ^ i))

/-- A digest as a field of a header: byte 0 in bits [7:0] (R10). -/
def digestOf (m : List Byte) : BitVec 256 := BitVec.ofNat 256 (natOfBytes (sha256 m))

/-- The `n` bytes of a list from byte `at0`, zero beyond its end. -/
def sliceBytes (l : List Byte) (at0 n : Nat) : List Byte :=
  let s := (l.drop at0).take n
  s ++ List.replicate (n - s.length) 0

/-- The little-endian field of `n` bytes from byte `at0`. -/
def fieldBytes (l : List Byte) (at0 n : Nat) : Nat := natOfBytes (sliceBytes l at0 n)

end Sys2Proof.Machine
end

