-- ==== Sys2Proof/Machine/Record.lean ====
section
/-! DEFINITION. Deruri records (R351 to R366): items, step blocks and their digest, the record as bytes, when a record closes, the counter and signing. -/

namespace Sys2Proof.Machine

/-- A digest as its 32 bytes (R10). -/
def digestBytes (d : BitVec 256) : List Byte := bytesOfNat 32 d.toNat

/-! ### Items and step blocks (R351 to R353, R358) -/

/-- An item's 48 bytes (R351). -/
def Item.bytes (i : Item) : List Byte :=
  bytesOfNat 8 i.tag.toNat ++ [i.kind, i.type] ++ bytesOfNat 2 0 ++ bytesOfNat 4 i.length.toNat ++ digestBytes i.digest

/-- Input items in ascending order of (KIND, TAG) (R352). -/
def sortItems (l : List Item) : List Item := sortBy (fun a b => keyLe [a.kind.toNat, a.tag.toNat] [b.kind.toNat, b.tag.toNat]) l

/-- An event entry's 32 bytes (R360). -/
def EventEntry.bytes (e : EventEntry) : List Byte :=
  bytesOfNat 6 e.bell.toNat ++ bytesOfNat 2 e.code.toNat ++ [e.attempt, e.kind] ++ bytesOfNat 2 e.site.toNat ++ bytesOfNat 4 e.offset.toNat ++ bytesOfNat 8 e.d0.toNat ++ bytesOfNat 8 e.d1.toNat

/-- Bytes 56 to 68 of a step block (R358). -/
def ArithTot.bytes (t : ArithTot) : List Byte :=
  bytesOfNat 4 t.overflow.toNat ++ bytesOfNat 4 t.underflow.toNat ++ bytesOfNat 4 t.bruise.toNat ++ [BitVec.ofNat 8 (b2n t.sumSat)]

/-- The step digest (R353). -/
def stepDigest (bell : BitVec 48) (t : ArithTot) (ins outs : List Item) : BitVec 256 :=
  digestOf (bytesOfNat 8 bell.toNat ++ t.bytes ++ ins.flatMap Item.bytes ++ outs.flatMap Item.bytes)

/-- A step block with its items and events (R356, R358). -/
def StepBlock.bytes (b : StepBlock) : List Byte :=
  bytesOfNat 8 b.bell.toNat ++ [b.attempts, BitVec.ofNat 8 (b2n b.damaged + 2 * b2n b.held)] ++ bytesOfNat 2 b.inputs.length ++ bytesOfNat 2 b.outputs.length ++ bytesOfNat 2 b.events.length ++
    bytesOfNat 8 b.commitTime.toNat ++ digestBytes b.stepDigest ++ b.totals.bytes ++ bytesOfNat 11 0 ++
    b.inputs.flatMap Item.bytes ++ b.outputs.flatMap Item.bytes ++ b.events.flatMap EventEntry.bytes

/-- The length of a step block with its items and events. -/
def StepBlock.size (b : StepBlock) : Nat := 80 + 48 * (b.inputs.length + b.outputs.length) + 32 * b.events.length

/-! ### Records (R355 to R357, R362) -/

/-- HUB.IDENT.GRADE as a record gives it (R4, R357). -/
def Grade.code : Grade → Nat
  | .mt4096 => 0
  | .mt3584 => 1

/-- KEY_ID: the digest of the identity public key in its 97-byte form (R481). -/
def keyId : BitVec 256 :=
  let coord (lo : Nat) : List Byte := ((List.range 6).flatMap (fun k => bytesOfNat 8 (Config.idKey (lo + k)).toNat)).reverse
  digestOf ((4 : Byte) :: coord 0 ++ coord 6)

/-- The header of a record (R357). -/
def recordHeader (g : Grade) (r : Record) (b : RecordBody) : List Byte :=
  let events := (b.blocks.map (fun k => k.events.length)).foldl (· + ·) 0
  let items := (b.blocks.map (fun k => k.inputs.length + k.outputs.length)).foldl (· + ·) 0
  let size := (b.blocks.map StepBlock.size).foldl (· + ·) 0
  let first := ((b.blocks.head?).map (fun k => k.bell.toNat)).getD 0
  let last := ((b.blocks.getLast?).map (fun k => k.bell.toNat)).getD 0
  bytesOfNat 4 0x31525244 ++ bytesOfNat 2 1 ++ [r.level, BitVec.ofNat 8 (r.replayClass.toNat + 4 * b2n r.batchInv)] ++ bytesOfNat 8 r.counter.toNat ++ bytesOfNat 8 r.runId.toNat ++ bytesOfNat 4 r.segment.toNat ++
    bytesOfNat 4 (r.close.toNat + 16 * b2n r.unsigned + 32 * b2n (b.blocks.any (fun k => k.damaged))) ++
    digestBytes r.prev ++ digestBytes r.image ++ digestBytes keyId ++ bytesOfNat 8 r.seed.toNat ++ bytesOfNat 2 r.plotkey.toNat ++ [r.rows, r.cols] ++ bytesOfNat 2 r.groupModules.toNat ++ bytesOfNat 2 b.groupIndex.toNat ++
    [b.originY, b.originX] ++ bytesOfNat 2 b.module.toNat ++ [b.function, BitVec.ofNat 8 g.code, 0x41, BitVec.ofNat 8 (b2n b.fmt)] ++
    bytesOfNat 8 first ++ bytesOfNat 8 last ++ bytesOfNat 8 b.openTime.toNat ++ bytesOfNat 8 b.closeTime.toNat ++ bytesOfNat 4 b.blocks.length ++ bytesOfNat 4 items ++ bytesOfNat 4 events ++ bytesOfNat 4 size ++ bytesOfNat 56 0

/-- Header and body. -/
def recordText (g : Grade) (r : Record) (b : RecordBody) : List Byte := recordHeader g r b ++ b.blocks.flatMap StepBlock.bytes

/-- The trailer (R362): zero when unsigned. -/
def recordTrailer (r : Record) (b : RecordBody) : List Byte := if r.unsigned then bytesOfNat 96 0 else bytesOfNat 96 b.signature

/-! ### The monotonic counter and the identity key (R364, R395, R396) -/

/-- Whether a record can be signed. -/
def Hub.canSign (h : Hub) : Bool := !h.counter.readOnly && h.keys.identityPresent && !h.keys.withheld

/-- An increment of the counter and whether it succeeded (R395, R396): the attempts it takes are a free value of the part, and after 16 the counter is read-only. -/
def Counter.increment (c : Counter) : Counter × Bool :=
  let n := max 1 (Config.counterAttempts c.value)
  if n ≤ 16 then ({ c with value := c.value + 1, next := c.next + 1, retries := satAdd c.retries (n - 1), warn := c.warn || 1 < n }, true)
  else ({ c with retries := satAdd c.retries 15, warn := true, readOnly := true }, false)

/-- WEAR_WARN, once per start-up, for the first increment that needed a second attempt (R396). -/
def State.wearWarn (s : State) (old new : Counter) : State :=
  if old.retries == new.retries || old.warnedNow then s else (s.modHub (fun h => { h with counter.warnedNow := true })).logReport 0x4006 0 0 0

/-! ### Closing (R355, R365) -/

/-- Bytes of a record's body. -/
def bodySize (l : List StepBlock) : Nat := (l.map StepBlock.size).foldl (· + ·) 0

/-- 16 MiB (R355). -/
def maxBody : Nat := 16777216

/-- Adds an event entry to the last step block of a list. -/
def lastEvent (e : EventEntry) : List StepBlock → List StepBlock
  | [] => []
  | [b] => [{ b with events := b.events ++ [{ e with bell := b.bell, attempt := b.attempts }] }]
  | b :: l => b :: lastEvent e l

/-- The time at which a plot's bell rang that commits now: it waits for a lock-step partner since then, or rings now (R358, R400; log entry 122). -/
def State.bellStamp (s : State) (fn : Fn) : Word := if (s.plot fn).step.rung then (s.plot fn).step.heldStamp else s.stamp

/-- Closes a record of a plot over the blocks given (R355, R357, R362 to R364): it takes a counter value and a record place, or is closed unsigned with RECORD_REFUSED, judged at the bell `bell`; with REQUIRE_SIGNED that stops the plot, by an entry of KIND 4 in the record's last block (log entry 57), unless another fault stops it at that bell. `time` is the record's closing time. The record's PREV, SEGMENT and RUN_ID run on in the plot. -/
def State.closeRecord (s : State) (fn : Fn) (blocks : List StepBlock) (close : Nat) (bell : BitVec 48) (time : Word) : State :=
  let p := s.plot fn
  let old := s.hub.counter
  let inc := if s.hub.canSign then s.hub.counter.increment else (s.hub.counter, false)
  let counter := inc.1
  let sign := inc.2
  let stops := !sign && p.regs.requireSigned
  let decides := stops && close != 3 && close != 6 && !p.run.unsignedFrom
  let report : Report := { s.hubReport fn 0x5005 stops 0 0 0 with primary := decides, bell := bell }
  let blocks := if decides then lastEvent report.stopEvent blocks else blocks
  let r : Record :=
    { replayClass := p.regs.replayClass, batchInv := p.regs.batchInv, counter := counter.value, runId := if p.run.segment = 0 then counter.value else p.run.runId, segment := p.run.segment
      close := BitVec.ofNat 4 close, unsigned := !sign, prev := p.run.prev, image := p.place.imageDigest, seed := p.run.seed, plotkey := p.run.plotkey
      rows := p.place.rows.setWidth 8, cols := p.place.cols.setWidth 8, groupModules := if p.group.joined then p.group.modules.setWidth 16 else 1 }
  let b : RecordBody :=
    { groupIndex := if p.group.joined then p.group.index.setWidth 16 else 0, originY := p.place.originY.setWidth 8, originX := p.place.originX.setWidth 8, module := s.system.module, function := fn
      fmt := p.regs.bruiseNan, openTime := p.run.openTime, closeTime := time, blocks := blocks }
  let text := recordText s.grade r b
  let b : RecordBody := if sign then { b with signature := Config.ecdsaSign (digestOf text).toNat } else b
  let s := (s.setPlot fn { p with run.segment := p.run.segment + 1, run.runId := r.runId, run.prev := digestOf (text ++ recordTrailer r b), run.openTime := time, run.unsignedFrom := !sign }).modHub (fun h =>
    { h with counter := { counter with warnedNow := h.counter.warnedNow }, records := h.records ++ [{ fn := if p.moving.flr then 0 else fn, head := r, body := b, seq := h.seq }], seq := h.seq + 1 })
  let s := if 8 < s.hub.records.length then s.modPlot fn (fun p => { p with run.owesPlace := true }) else s
  let s := s.wearWarn old counter
  if sign then s else s.queueReport fn report

/-- Whether a record that a plot has closed between two states was refused and REQUIRE_SIGNED makes that a stop (R364). -/
def State.recordRefused (after before : State) (fn : Fn) : Bool :=
  (after.plot fn).regs.requireSigned && (after.plot fn).run.unsignedFrom && (after.plot fn).run.segment != (before.plot fn).run.segment

/-- The conditions of R355 after a step's block is known: condition 5 first closes the record without it, at its last step's bell; then the highest of the others closes the record that holds it. -/
def State.addBlock (s : State) (fn : Fn) (blk : StepBlock) (conds : List Nat) (bell : BitVec 48) : State :=
  let p := s.plot fn
  let old := p.run.blocks
  let split := old != [] && maxBody < bodySize old + blk.size
  let s := if split then (s.closeRecord fn old 5 bell (((old.getLast?).map (fun b => b.commitTime)).getD s.stamp)).modPlot fn (fun p => { p with run.blocks := [] }) else s
  let blocks := (if split then [] else old) ++ [blk]
  let conds := if blocks.length = (s.plot fn).regs.steps.toNat then 0 :: conds else conds
  let conds := if maxBody < blk.size && conds == [] then [5] else conds
  match conds with
  | [] => s.modPlot fn (fun p => { p with run.blocks := blocks })
  | c :: cs => (s.closeRecord fn blocks (cs.foldl max c) bell (s.bellStamp fn)).modPlot fn (fun p => { p with run.blocks := [] })

/-- The step block of the running step (R353, R354, R358). -/
def State.stepBlock (s : State) (fn : Fn) (outs : List Item) (events : List EventEntry) : StepBlock :=
  let p := s.plot fn
  let ins := sortItems p.run.inputs
  let outs := sortBy (fun a b => a.tag.toNat ≤ b.tag.toNat) outs
  let evs := sortBy (fun a b => keyLe a.key b.key) events
  { bell := p.bell.bell, attempts := p.bell.attempt, damaged := evs.any (fun e => e.kind == 1), held := p.run.stepHeld, commitTime := s.bellStamp fn
    stepDigest := stepDigest p.bell.bell p.tot ins outs, totals := p.tot, inputs := ins, outputs := outs, events := evs }

/-- The run ends: nothing of it stays open (R336). -/
def Run.ended (r : Run) : Run := { r with isOpen := false, blocks := [], inputs := [], outputs := [], events := [], stepHeld := false, segment := 0, runId := 0, prev := 0, unsignedFrom := false }

end Sys2Proof.Machine
end

