-- ==== Sys2Proof/Machine/Image.lean ====
section
/-! DEFINITION. Image containers (R486 to R491): authentication, structure, the checks of tables and schedule sets (R235, R257, R263, R289, R323), and the loading of cores, plots and channels. -/

namespace Sys2Proof.Machine

/-! ### Containers (R486 to R488) -/

/-- The bytes of the flash from offset `lo`. -/
def Flash.read (f : Flash) (lo n : Nat) : List Byte := (List.range n).map (fun i => AMap.get 0 f.mem (lo + i))

/-- The digest of a public key stored x then y, little-endian, in its 97-byte form (R481). -/
def keyDigest (key : List Byte) : BitVec 256 := digestOf ((4 : Byte) :: ((key.take 48).reverse ++ ((key.drop 48).take 48).reverse))

/-- Whether every byte from `lo` to `hi - 1` is 0. -/
def zeroBytes (l : List Byte) (lo hi : Nat) : Bool := (sliceBytes l lo (hi - lo)).all (fun b => b == 0)

/-- The key of a container's KEYSRC; `none` where the slot is empty, revoked or withheld (R480, R487, R499). -/
def Keys.source (k : Keys) (src : Nat) : Option Nat :=
  if k.withheld then none
  else if src = 4 then k.batteryKey.map BitVec.toNat
  else if Config.aesSlotKey src == 0 || k.revoked.getLsbD src then none
  else some (Config.aesSlotKey src).toNat

/-- Checks 1 to 6 of R487: the plaintext body, or the verdict of the first check that fails. -/
def openContainer (k : Keys) (c : List Byte) : Except Code (List Byte) :=
  let h := c.take 512
  let src := fieldBytes h 7 1
  let size := fieldBytes h 32 8
  let signer := sliceBytes h 96 96
  if fieldBytes h 0 4 ≠ 0x474D494D || fieldBytes h 4 2 ≠ 1 || 4 < src || !zeroBytes h 12 16 || !zeroBytes h 28 32 || !zeroBytes h 56 64 || !zeroBytes h 288 512 then .error 0x5001
  else if keyDigest signer != Config.signerDigest then .error 0x5001
  else if !Config.ecdsaVerify (natOfBytes signer) (fieldBytes h 192 96) (digestOf (h.take 192)).toNat then .error 0x5001
  else if fieldBytes h 8 4 < k.minSecurity.toNat then .error 0x5004
  else
    match k.source src with
    | none => .error 0x5002
    | some key =>
      match Config.gcmOpen key (fieldBytes h 16 12) (h.take 64) (fieldBytes h 40 16) (sliceBytes c 512 size) with
      | none => .error 0x5001
      | some body => if digestOf body == BitVec.ofNat 256 (fieldBytes h 64 32) then .ok body else .error 0x5001

/-! ### The body (R489 to R491) -/

/-- A section (R489). -/
structure Section where
  kind : Nat
  offset : Nat
  length : Nat
  deriving DecidableEq, Repr

/-- The sections of a body. -/
def bodySections (b : List Byte) : List Section :=
  (List.range (fieldBytes b 24 2)).map (fun k => { kind := fieldBytes b (1024 + 16 * k) 1, offset := fieldBytes b (1024 + 16 * k + 4) 4, length := fieldBytes b (1024 + 16 * k + 8) 4 })

/-- The bytes of section `k`; none for an absent section. -/
def sectionBytes (b : List Byte) (k : Nat) : List Byte :=
  match (bodySections b)[k]? with
  | some s => sliceBytes b s.offset s.length
  | none => []

/-- A dimension entry (R490). -/
structure Dim where
  rows : Nat
  cols : Nat
  phaseY : Nat
  phaseX : Nat
  occupied : Nat
  ch : List Nat
  map : Nat
  plot : Nat
  deriving DecidableEq, Repr

/-- The dimension entries of a body. -/
def bodyDims (b : List Byte) : List Dim :=
  (List.range (fieldBytes b 11 1)).map (fun i =>
    let at0 := 64 + 32 * i
    { rows := fieldBytes b at0 1, cols := fieldBytes b (at0 + 1) 1, phaseY := fieldBytes b (at0 + 2) 1, phaseX := fieldBytes b (at0 + 3) 1, occupied := fieldBytes b (at0 + 4) 1
      ch := (List.range 8).map (fun k => fieldBytes b (at0 + 8 + k) 1), map := fieldBytes b (at0 + 16) 2, plot := fieldBytes b (at0 + 18) 2 })

/-- FOOT of a body (R489). -/
def bodyFoot (b : List Byte) : Nat := fieldBytes b 12 4

/-- Channels in all. -/
def Dim.channels (d : Dim) : Nat := d.ch.foldl (· + ·) 0

/-- Whether a placement matches an entry (R490). -/
def Dim.fits (d : Dim) (rows cols y x : Nat) : Bool := d.rows == rows && d.cols == cols && d.phaseY == y % 16 && d.phaseX == x % 32

/-- The entry that a placement matches. -/
def dimFor (b : List Byte) (rows cols y x : Nat) : Option Dim := (bodyDims b).find? (fun d => d.fits rows cols y x)

/-- Whether section `k` has the kind. -/
def hasKind (b : List Byte) (k kind : Nat) : Bool := ((bodySections b)[k]?.map (fun s => s.kind == kind)).getD false

/-- Bytes of a MAP for `n` cores. -/
def mapBytes (n : Nat) : Nat := ceilDiv (8 * n) 64 * 64

/-- Whether a section's LENGTH obeys R491. -/
def Section.lengthOk (s : Section) (b : List Byte) : Bool :=
  match s.kind with
  | 1 => s.length % 32 == 0 && 32 ≤ s.length && s.length ≤ 32 * 8192
  | 2 => s.length == 3072 && zeroBytes b (s.offset + 3024) (s.offset + 3072)
  | 3 => s.length == 64 + 64 * fieldBytes b (s.offset + 4) 4
  | 4 => s.length == 17920
  | 5 => 0 < s.length
  | 6 => 1536 ≤ s.length
  | _ => false

/-- The four section numbers of core `k` in a MAP section: CODE, CSTATE, DATA, SLOTS. -/
def mapEntry (m : List Byte) (k : Nat) : Nat × Nat × Nat × Nat :=
  (fieldBytes m (8 * k) 2, fieldBytes m (8 * k + 2) 2, fieldBytes m (8 * k + 4) 2, fieldBytes m (8 * k + 6) 2)

/-- Whether a dimension entry obeys R490 and R491. -/
def Dim.ok (d : Dim) (b : List Byte) (at0 : Nat) : Bool :=
  let n := d.rows * d.cols
  let m := sectionBytes b d.map
  1 ≤ d.rows && d.rows ≤ 64 && 1 ≤ d.cols && d.cols ≤ 64 && d.phaseY ≤ 15 && d.phaseX ≤ 31 &&
    d.occupied == ((d.phaseY + d.rows - 1) / 16 + 1) * ((d.phaseX + d.cols - 1) / 32 + 1) && d.ch.all (fun c => c ≤ 64) && 1 ≤ d.channels && (d.ch.drop d.occupied).all (fun c => c == 0) &&
    zeroBytes b (at0 + 5) (at0 + 8) && zeroBytes b (at0 + 20) (at0 + 32) &&
    hasKind b d.map 5 && m.length == mapBytes n && zeroBytes m (8 * n) m.length &&
    hasKind b d.plot 6 && (sectionBytes b d.plot).length == 1536 + 2048 * d.channels &&
    (List.range n).all (fun k =>
      let e := mapEntry m k
      hasKind b e.1 1 && hasKind b e.2.1 2 && (e.2.2.1 == 0xFFFF || hasKind b e.2.2.1 3) && (e.2.2.2 == 0xFFFF || hasKind b e.2.2.2 4))

/-- Check 8 of R487: the structure of R489 to R491. -/
def bodyOk (level : Nat) (b : List Byte) : Bool :=
  let ss := bodySections b
  let ds := bodyDims b
  let steps := fieldBytes b 8 2
  1024 ≤ b.length && b.length % 64 == 0 && fieldBytes b 0 4 == 0x4E414D4D && fieldBytes b 4 2 == 1 && fieldBytes b 6 1 == level && fieldBytes b 7 1 < 8 && 1 ≤ steps && steps ≤ 4096 &&
    fieldBytes b 10 1 < 4 && 1 ≤ ds.length && ds.length ≤ 16 && 1 ≤ ss.length && zeroBytes b 26 64 && zeroBytes b (64 + 32 * ds.length) 1024 && 1024 + 16 * ss.length ≤ b.length &&
    (ss.zipIdx.all (fun p => p.1.offset % 64 == 0 && 1024 + 16 * ss.length ≤ p.1.offset && p.1.offset + p.1.length ≤ b.length && p.1.lengthOk b &&
      zeroBytes b (1024 + 16 * p.2 + 1) (1024 + 16 * p.2 + 4) && zeroBytes b (1024 + 16 * p.2 + 12) (1024 + 16 * p.2 + 16) &&
      ss.zipIdx.all (fun q => q.2 ≤ p.2 || p.1.offset + p.1.length ≤ q.1.offset || q.1.offset + q.1.length ≤ p.1.offset))) &&
    (ds.zipIdx.all (fun p => p.1.ok b (64 + 32 * p.2) && ds.zipIdx.all (fun q => q.2 ≤ p.2 || !p.1.fits q.1.rows q.1.cols q.1.phaseY q.1.phaseX)))

/-! ### Register images (R491) -/

/-- The words of a section. -/
def wordAt (l : List Byte) (k : Nat) : Word := BitVec.ofNat 64 (fieldBytes l (8 * k) 8)

/-- Words `lo` to `lo + n - 1` of a section as a map from 0. -/
def wordMap (l : List Byte) (lo n : Nat) : AMap Word := (List.range n).foldl (fun m k => AMap.put 0 m k (wordAt l (lo + k))) []

/-- A register map with the bits of each register that its map assigns; a reserved bit reads as 0 (R12). -/
def assigned (m : AMap Word) (mask : Nat → Word) : AMap Word := (m.map (fun e => (e.1, e.2 &&& mask e.1))).filter (fun e => e.2 != 0)

/-- The tables of a core as its registers hold them: the bits of handles (R230), descriptors (R232), rings (R263), handlers (R271), the granary (R267), slots (R287) and channels (R291) that are not reserved. -/
def CoreTables.asHeld (t : CoreTables) : CoreTables :=
  { t with
    handle := assigned t.handle (fun _ => 0x1FF7FFF7FFF)
    desc := assigned t.desc (fun k => if k % 4 < 2 then 0xFFFFFFFFFFFFFFFF else 0xFFFFFFFFFFFF)
    ring := assigned t.ring (fun _ => 0x3FFFFFFF)
    handler := assigned t.handler (fun _ => 0x11FFF)
    granary := t.granary &&& 0xFFFFFFFFFFFF
    slot := assigned t.slot (fun k => if k % 2 = 0 then 0xFFFFFFFFFFFFFFFF else 0x7FFFFF)
    xchan := assigned t.xchan (fun k => if k % 3 < 2 then 0xFFFFFFFFFFFFFFFF else 0x7FFFFFFFFFFFFF) }

/-- The tables and working registers that a core's sections give (R491), reserved bits as the image has them; tallies from T0 to T63, ENTRY, and the STREAM fields of the handles. -/
def loadedCore (code cs data slots : List Byte) : CoreState :=
  let istore := (List.range (code.length / 32)).foldl (fun m k => AMap.put 0 m k (BitVec.ofNat 256 (fieldBytes code (32 * k) 32))) []
  let entry := wordAt cs 0
  let handles := wordMap cs 1 64
  let lines := fieldBytes data 4 4
  let first := fieldBytes data 0 4
  { tables :=
      { istore := istore, handle := handles, desc := wordMap cs 65 256, ring := wordMap cs 321 8, handler := wordMap cs 329 16, granary := wordAt cs 345
        slot := wordMap slots 0 2048, xchan := wordMap slots 2048 192 }
    work :=
      { entry := { mainNext := entry.extractLsb' 0 13, fillNext := entry.extractLsb' 16 13, fillEn := bitOf entry 31 }
        own := (List.range 64).foldl (fun m h => AMap.put 0 m h ((AMap.get (0 : Word) handles h).extractLsb' 38 2)) []
        tallies := (List.range 64).foldl (fun m t => AMap.put 0 m t (BitVec.ofNat 32 (fieldBytes cs (2768 + 4 * t) 4))) []
        mem := (List.range (64 * lines)).foldl (fun m i => if 64 * first + i < 1572864 then AMap.put 0 m (64 * first + i) (listGet 0 data (64 + i)) else m) [] } }

/-- The core that entry `k` of a dimension's MAP loads. -/
def Dim.core (d : Dim) (b : List Byte) (k : Nat) : CoreState :=
  let e := mapEntry (sectionBytes b d.map) k
  loadedCore (sectionBytes b e.1) (sectionBytes b e.2.1) (sectionBytes b e.2.2.1) (sectionBytes b e.2.2.2)

/-- PLT.BAR words of a dimension; W2 holds 7 bits (R256). -/
def Dim.bars (d : Dim) (b : List Byte) : AMap Word := assigned (wordMap (sectionBytes b d.plot) 0 192) (fun k => if k % 3 < 2 then 0xFFFFFFFFFFFFFFFF else 0x7F)

/-- The channel table of ordinal `o` of a dimension. -/
def Dim.table (d : Dim) (b : List Byte) (o : Nat) : AMap Word := wordMap (sectionBytes b d.plot) (192 + 256 * o) 256

/-- A channel table as its registers hold it (R316). -/
def tableAsHeld (m : AMap Word) : AMap Word :=
  assigned m (fun k => match k % 4 with | 0 => 0xBFFFFFFFFFFFFFFF | 1 => 0x1FFFFFFFFFFFFFF | 2 => 0xFFFFFFFFFFFFFFFF | _ => 0x3FFFFFFFFFFFFFF)

/-- Valid barrier groups of a table (R259). -/
def validBars (m : AMap Word) : Nat := ((List.range 64).filter (fun g => bitOf (AMap.get 0 m (3 * g + 2)) 6)).length

/-! ### DESC_INVALID (R235) -/

/-- Bits beyond the listed ones are nonzero. -/
def reservedSet (w : Word) (hi : Nat) : Bool := fieldOf w hi (64 - hi) != 0

/-- The format, rank, guard and zero-field checks of a judged descriptor. -/
def Desc.malformed (d : Desc) (w2 w3 : Word) : Bool :=
  let mx := fmtIsMx d.fmt
  let unused := (List.range 5).any (fun k => d.rank ≤ k && (d.size.getD k 1 != 1 || d.stride.getD k 0 != 0))
  let outer := (d.swap (List.range (max d.rank 2))).getD (d.rank - 1) 0
  12 ≤ d.fmt.toNat || d.rank == 0 || 6 ≤ d.rank || d.gkind == 3 || unused || reservedSet w2 48 || reservedSet w3 48 ||
    (d.gkind == 0 && (d.gtally != 0 || d.gshift != 0)) || (d.gkind != 2 && (d.rtally != 0 || d.slots != 0)) || 14 < d.gshift ||
    (!mx && d.fmt != 0xB && d.sh != 0) || (d.isRing && d.size.getD outer 1 != 1) || (d.transpose && (d.rank == 1 || mx)) || (mx && d.size.getD 0 1 % 32 != 0)

/-- The byte just past the largest element of a handle that is no ring. -/
def Desc.lastByte (d : Desc) : Nat := (d.bitOffset (d.logical.map (· - 1)) + fmtWidth d.fmt + 7) / 8

/-- Whether handle `h` and its descriptor fail a check of R235 by themselves. -/
def CoreState.handleBad (c : CoreState) (h : Nat) : Bool :=
  let w := AMap.get (0 : Word) c.tables.handle h
  let k := c.handle h
  let d := c.descOf h
  bitOf w 15 || bitOf w 31 || reservedSet w 41 || fieldOf w 38 2 == 3 || 24575 < k.base + k.extent || d.malformed (AMap.get 0 c.tables.desc (4 * k.desc + 2)) (AMap.get 0 c.tables.desc (4 * k.desc + 3)) ||
    (if d.isRing then (d.slots + 1) * d.grain != 64 * (k.extent + 1) || d.gtally == d.rtally || fmtWidth d.fmt % 8 != 0 else 64 * (k.extent + 1) < d.lastByte)

/-- Whether the handle that SH names suits the format (R235). -/
def CoreState.scaleBad (c : CoreState) (h : Nat) : Bool :=
  let d := c.descOf h
  let sh := d.sh.toNat
  let sd := c.descOf sh
  let same := d.size.tail == sd.size.tail
  if fmtIsMx d.fmt then !(c.handle sh).valid || c.handleBad sh || sd.fmt != 0 || sd.rank != d.rank || sd.size.getD 0 1 * 32 != d.size.getD 0 1 || !same
  else if d.fmt == 0xB then !(c.handle sh).valid || c.handleBad sh || sd.fmt != 1
  else false

/-- DESC_INVALID for a core's tables (R235). -/
def CoreState.descInvalid (c : CoreState) : Bool := (List.range 64).any (fun h => (c.handle h).valid && (c.handleBad h || c.scaleBad h))

/-! ### SYNC_INVALID (R257, R263) -/

/-- SYNC_INVALID for a core's rings (R263). -/
def CoreState.ringsInvalid (c : CoreState) : Bool :=
  (List.range 8).any (fun r =>
    let w := AMap.get (0 : Word) c.tables.ring r
    12 < fieldOf w 16 4 || 24575 < fieldOf w 0 15 + 2 ^ fieldOf w 16 4 - 1 || (!bitOf w 23 && fieldOf w 24 6 != 0))

/-- SYNC_INVALID for a barrier table (R257). -/
def barsInvalid (m : AMap Word) (rows cols : Nat) : Bool :=
  (List.range 64).any (fun g =>
    let r := (AMap.get (0 : Word) m (3 * g)).toNat
    let k := (AMap.get (0 : Word) m (3 * g + 1)).toNat
    bitOf (AMap.get 0 m (3 * g + 2)) 6 && (r == 0 || k == 0 || 2 ^ rows ≤ r || 2 ^ cols ≤ k))

/-! ### SCHED_INVALID (R289, R323) -/

/-- Whether a train fails a check of R289 that does not depend on placement. -/
def CoreTables.trainBad (t : CoreTables) (n : Nat) : Bool :=
  let tr := t.train n
  let w1 := AMap.get (0 : Word) t.slot (2 * n + 1)
  let carries := tr.kind < 2
  let ch := t.channel tr.chan
  4 < tr.kind || reservedSet w1 23 || (!carries && tr.chan != 0) || ((tr.kind == 1 || tr.kind == 2) && tr.lines != 0) || (!carries && tr.site != 0) || (tr.kind != 4 && tr.port != 0) || (tr.kind == 3 && tr.link1) ||
    (0 < tr.reps && tr.period < t.firingLen tr) || 0xFFFFFF < tr.start + tr.reps * tr.period + t.firingLen tr - 1 || (carries && !ch.valid)

/-- Firings of a step that name channel `c` (R291). -/
def CoreTables.firings (t : CoreTables) (c : Nat) : Nat :=
  ((t.trains.filter (fun p => p.2.kind < 2 && p.2.chan == c)).map (fun p => p.2.reps + 1)).foldl (· + ·) 0

/-- Whether a transfer channel fails a check of R289 that does not depend on placement. -/
def CoreTables.channelBad (t : CoreTables) (c : Nat) : Bool :=
  let ch := t.channel c
  let w2 := AMap.get (0 : Word) t.xchan (3 * c + 2)
  let part := t.trains.any (fun p => p.2.kind == 1 && p.2.chan == c)
  let last := if ch.narrow then 1024 else 512
  let out (p : Nat) : Bool := last < p % 1024 + ch.count + 1 || 16 ≤ p / 1024
  ch.valid && (reservedSet w2 55 ||
    (part && (ch.sh != 0 || ch.dh != 0 || (List.range (t.firings c)).any (fun m => out (ch.spos + m * ch.sstep) || out (ch.dpos + m * ch.dstep)))))

/-- SCHED_INVALID for a core's slot table and channels, placement apart (R289). -/
def CoreTables.schedBad (t : CoreTables) : Bool := t.trains.any (fun p => t.trainBad p.1) || (List.range 64).any t.channelBad

/-- Requests of an entry in the fc from `w` to `w + 63` (R323). -/
def DsEntry.inWindow (e : DsEntry) (w : Nat) : Nat :=
  ((List.range (e.lines + 1)).map (fun j =>
    ((List.range (e.reps + 1)).filter (fun m => w ≤ e.start + m * e.period + j && e.start + m * e.period + j < w + 64)).length)).foldl (· + ·) 0

/-- Beats that a request of the kind weighs (R323). -/
def DsEntry.weight (e : DsEntry) : Nat := if e.kind = 1 then 3 else 1

/-- Whether an entry fails a check of R323 by itself. -/
def DsEntry.bad (e : DsEntry) (w0 w1 w3 : Word) : Bool :=
  e.kind == 3 || bitOf w0 62 || reservedSet w1 57 || reservedSet w3 58 || (e.kind == 2 && (e.h != 0 || e.lines != 0 || e.tally != 0 || e.ten || e.amount != 0)) ||
    (0 < e.reps && e.period < e.lines + 1) || 0xFFFFFF < e.start + e.reps * e.period + e.lines

/-- The valid entries of a channel table. -/
def tableEntries (m : AMap Word) : List DsEntry := (List.range 64).map (fun n => ({ entry := m } : Channel).dsEntry n) |>.filter (fun e => e.valid)

/-- SCHED_INVALID for a channel table, placement apart (R323): entries, the rate rule, WRITE units. A window can start where a request starts. -/
def tableBad (m : AMap Word) : Bool :=
  let es := tableEntries m
  let starts := es.flatMap (fun e => (List.range (e.reps + 1)).flatMap (fun k => (List.range (e.lines + 1)).map (fun j => e.start + k * e.period + j)))
  (List.range 64).any (fun n =>
    let e := ({ entry := m } : Channel).dsEntry n
    e.valid && e.bad (AMap.get 0 m (4 * n)) (AMap.get 0 m (4 * n + 1)) (AMap.get 0 m (4 * n + 3))) ||
    starts.any (fun w => 36 < (es.map (fun e => e.weight * e.inWindow w)).foldl (· + ·) 0) ||
    12288 < ((es.filter (fun e => e.kind == 1)).map (fun e => (e.reps + 1) * (e.lines + 1))).foldl (· + ·) 0

/-- The place of core `k` of a dimension in the fields that its placement occupies: 0 for the lowest field (R313, R490). -/
def Dim.fieldPlace (d : Dim) (y x : Nat) : Nat :=
  let wide := (d.phaseX + d.cols - 1) / 32 + 1
  (d.phaseY + y) / 16 * wide + (d.phaseX + x) / 32

/-- The occupied field, by place, of an ordinal (R313). -/
def Dim.ordinalPlace (d : Dim) (o : Nat) : Nat :=
  ((List.range 8).find? (fun f => o < (d.ch.take (f + 1)).foldl (· + ·) 0)).getD 8

/-- The granary checks of R323 for a core: reserved by an entry, and inside the share of every such channel. -/
def Dim.granaryBad (d : Dim) (b : List Byte) (y x : Nat) (c : CoreState) : Bool :=
  let g := c.granary
  let os := (List.range d.channels).filter (fun o => (tableEntries (d.table b o)).any (fun e => e.kind == 2 && e.isFor y x))
  0 < g.2 && (os == [] || os.any (fun o => g.1 < o * shareUnits || (o + 1) * shareUnits < g.1 + 8 * g.2))

/-- SCHED_INVALID for the entries of a dimension: each entry's core lies in the plot and in the channel's field (R323). -/
def Dim.entriesBad (d : Dim) (b : List Byte) : Bool :=
  (List.range d.channels).any (fun o =>
    tableBad (d.table b o) || (tableEntries (d.table b o)).any (fun e => d.rows ≤ e.y || d.cols ≤ e.x || d.fieldPlace e.y e.x != d.ordinalPlace o))

/-- Check 9 of R487 for one dimension: the code of the first group of checks that fails. -/
def Dim.verdict (d : Dim) (b : List Byte) : Option Code :=
  let cores := (List.range (d.rows * d.cols)).map (fun k => (k, d.core b k))
  if cores.any (fun p => p.2.descInvalid) then some 0x100D
  else if cores.any (fun p => p.2.ringsInvalid) || barsInvalid (d.bars b) d.rows d.cols then some 0x100F
  else if cores.any (fun p => p.2.tables.schedBad || d.granaryBad b (p.1 / d.cols) (p.1 % d.cols) p.2) || d.entriesBad b then some 0x1010
  else none

/-- The verdict of a container (R487, R492): the body where it is OK. -/
def containerVerdict (k : Keys) (c : List Byte) : Code × List Byte :=
  match openContainer k c with
  | .error e => (e, [])
  | .ok body =>
    let level := fieldBytes c 6 1
    if level ≠ 2 then (0x100C, [])
    else if !bodyOk level body then (0x5001, [])
    else
      match (bodyDims body).findSome? (fun d => d.verdict body) with
      | some e => (e, [])
      | none => (0, body)

/-! ### Placement (R289, R444, R456, R490) -/

/-- Whether a train or channel of a core fails a check of R289 at the placement that `env` describes. `far` is the column of the gate by which a flit leaves for another module (R508). -/
def CoreTables.placedBad (t : CoreTables) (g : Grade) (env : DestEnv) (far : BitVec 12 → Nat) (c : CoreId) : Bool :=
  (List.range 64).any (fun k => (t.channel k).valid && (env.resolve (t.channel k).dest).isNone) ||
  t.trains.any (fun p =>
    let tr := p.2
    let q : BitVec 3 := tr.port.setWidth 3
    let crosses : Bool := match env.resolve (t.channel tr.chan).dest with
      | none => false
      | some (.here x) => colOf x / 32 != colOf c / 32
      | some (.away m _) => far m / 32 != colOf c / 32
    (tr.kind == 4 && (!crossesEdge c q || g.rows ≤ rowOf (routerBeyond c q) || (tr.link1 && tr.port.toNat % 2 == 0))) ||
      (tr.kind < 2 && tr.link1 && !crosses))

end Sys2Proof.Machine
end

