-- ==== Sys2Proof/Machine/Place.lean ====
section
/-! DEFINITION. Placement and resources of plots (R440 to R466): power draw, rectangles, clearing, binding of channels, the commons objects of a plot, loading an image. -/

namespace Sys2Proof.Machine

/-! ### Power (R459 to R462) -/

/-- draw(P) in mW for `n` cores and `c` channels (R459). -/
def drawMw (n c p : Nat) : Nat := 37 * n + (223 * n + 500 * c) * p / 64

/-- The largest pass count from 32 to 64 whose draw is at most `mw`; 32 where none is (R460, R461). -/
def passFor (n c mw : Nat) : Nat :=
  ((List.range 33).reverse.map (32 + ·)).find? (fun p => drawMw n c p ≤ mw) |>.getD 32

/-- Channels that a plot holds (R458). -/
def State.boundCount (s : State) (fn : Fn) : Nat := (s.channels.filter (fun c => c.2.owner == some fn)).length

/-- The floor of a plot in mW (R459). -/
def State.floorMw (s : State) (fn : Fn) : Nat := drawMw ((s.plot fn).cores.length) (s.boundCount fn) 32

/-- The pass counts of PLT.POWER and PLT.CLOCK from budget, loan and binding (R460 to R462). B = 0xFFFF gives 64. -/
def State.setPass (s : State) (fn : Fn) : State :=
  let p := s.plot fn
  let n := p.cores.length
  let c := s.boundCount fn
  let b := p.clock.budget.toNat
  let none_ := p.clock.budget == 0xFFFF
  s.setPlot fn { p with
    clock.floor := BitVec.ofNat 16 (ceilDiv (drawMw n c 32) 100)
    clock.passBudget := BitVec.ofNat 7 (if none_ then 64 else passFor n c (100 * b))
    clock.pass := BitVec.ofNat 7 (if none_ then 64 else passFor n c (100 * b + p.clock.lent)) }

/-! ### Rectangles (R444, R447, R451) -/

/-- The cores of a rectangle. -/
def rectCores (rows cols y x : Nat) : List CoreId := (List.range rows).flatMap (fun i => (List.range cols).map (fun j => coreAt (y + i) (x + j)))

/-- Whether a row map leaves a logical row whole (R31, R478): 32 enabled cores. -/
def RowMap.whole (r : RowMap) : Bool := ((List.range 36).filter (fun i => r.enable.getLsbD i)).length == 32

/-- The physical link that serves logical link `k` of an edge; 36 when none does. -/
def Edge.served (g : Edge) (k : Nat) : Nat := (AMap.find g.serves k).getD k

/-- Whether a rectangle lies on both sides of an edge at logical link `k` (R36, R478). Edges 0 to 5 lie south of fields 0 to 5, edges 6 to 9 between the two fields of a field row. -/
def spansLink (rows cols y x e k : Nat) : Bool :=
  if e < 6 then
    let c := 32 * (e % 2) + k
    y ≤ 16 * (e / 2) + 15 && 16 * (e / 2) + 16 < y + rows && x ≤ c && c < x + cols
  else
    let r := 16 * (e - 6) + k / 2
    x ≤ 31 && 32 < x + cols && y ≤ r && r < y + rows

/-- Whether an unserved bridge link keeps a rectangle from being placed (R478). -/
def State.edgeBroken (s : State) (rows cols y x : Nat) : Bool :=
  s.edges.any (fun e => (e.2.serves ++ e.2.next).any (fun l => l.2 == 36 && spansLink rows cols y x e.1 l.1))

/-- Whether a rectangle may be placed for `fn`: 16 cores at least, inside the grade's grid, each core of no other plot, not being cleared, and in a whole row, on no unserved bridge link (R4, R444, R478). Cores of `fn` itself are free when `own`. -/
def State.rectFree (s : State) (fn : Fn) (own : Bool) (rows cols y x : Nat) : Bool :=
  16 ≤ rows * cols && y + rows ≤ s.grade.rows && x + cols ≤ 64 && !s.edgeBroken rows cols y x &&
    (rectCores rows cols y x).all (fun c =>
      let k := s.core c
      (k.owner.isNone || (own && k.owner == some fn)) && !k.clearing && (AMap.get {} (s.field (fieldOfCore c)).rows (rowOf c % 16)).whole)

/-- The origin that a PARAM names, or the one that AUTO finds: lowest ORIGIN_Y, then lowest ORIGIN_X (R444). -/
def State.originFor (s : State) (fn : Fn) (own : Bool) (param : Word) : Option (Nat × Nat) :=
  let rows := fieldOf param 0 7
  let cols := fieldOf param 7 7
  if bitOf param 26 then
    ((List.range 64).flatMap (fun y => (List.range 64).map (fun x => (y, x)))).find? (fun o => s.rectFree fn own rows cols o.1 o.2)
  else
    let o := (fieldOf param 14 6, fieldOf param 20 6)
    if s.rectFree fn own rows cols o.1 o.2 then some o else none

/-- The field pattern of a placement (R451): rows and columns in each occupied field, ascending. -/
def fieldPattern (rows cols y x : Nat) : List (Nat × Nat) :=
  let span (lo n size k : Nat) : Nat := min (lo + n) (size * (k + 1)) - max lo (size * k)
  (List.range 8).filterMap (fun f =>
    let r := span y rows 16 (f / 2)
    let c := span x cols 32 (f % 2)
    if r = 0 || c = 0 then none else some (r, c))

/-- The fields of a placement, ascending. -/
def placeFields (rows cols y x : Nat) : List Nat :=
  (List.range 8).filter (fun f => (rectCores rows cols y x).any (fun c => (fieldOfCore c).toNat == f))

/-! ### Cores entering and leaving (R445) -/

/-- A core that leaves a plot: cleared but for what belongs to its physical core, and not free until CORE_CLEAR_DONE. -/
def CoreState.leave (c : CoreState) : CoreState := { scrub := c.scrub, clearing := true }

/-- Cores leave a plot. -/
def State.leaveCores (s : State) (cs : List CoreId) : State := cs.foldl (fun (s : State) c => s.modCore c CoreState.leave) s

/-- Cores join a plot. -/
def State.joinCores (s : State) (fn : Fn) (cs : List CoreId) : State := cs.foldl (fun (s : State) c => s.modCore c (fun k => { k with owner := some fn })) s

/-! ### Channels (R313, R456) -/

/-- A released channel: its share is being zeroed, and it is not free (R456). -/
def Channel.release (c : Channel) : Channel := { live := c.live, stat := c.stat, scrubAt := c.scrubAt, zeroing := true, mem := c.mem, bruise := c.bruise, damage := c.damage }

/-- Every channel of a plot is released. -/
def State.releaseChannels (s : State) (fn : Fn) : State :=
  { s with channels := (s.channels.map (fun c => if c.2.owner == some fn then (c.1, c.2.release) else c)).filter (fun c => c.2 != {}) }

/-- The free channels of a field, lowest first (R456). -/
def State.freeChannels (s : State) (f : Nat) : List ChanId :=
  ((List.range 64).map (fun k => BitVec.ofNat 9 (64 * f + k))).filter (fun ch => s.hasChannel ch && (s.channel ch).live && (s.channel ch).owner.isNone && !(s.channel ch).zeroing)

/-- The channels that a binding takes: for each occupied field in order, the declared number; `none` where a field has too few. -/
def State.pickChannels (s : State) : List (Nat × Nat) → Option (List ChanId)
  | [] => some []
  | (f, n) :: rest =>
    let free := s.freeChannels f
    if free.length < n then none else (s.pickChannels rest).map (fun l => free.take n ++ l)

/-- Binds channels in ordinal order with a dimension's tables (R313, R456). -/
def State.bind (s : State) (fn : Fn) (chs : List ChanId) : State :=
  chs.zipIdx.foldl (fun (s : State) p => s.setChannel p.1 { s.channel p.1 with ordinal := BitVec.ofNat 9 p.2, owner := some fn }) s

/-- Channels bound to a plot in each of the listed fields. -/
def State.boundIn (s : State) (fn : Fn) (fs : List Nat) : List Nat :=
  fs.map (fun f => (s.channels.filter (fun c => c.2.owner == some fn && c.1 / 64 == f)).length)

/-- The declared counts of a dimension with the fields of a placement. -/
def Dim.wants (d : Dim) (fs : List Nat) : List (Nat × Nat) := fs.zip d.ch

/-- Whether a placement keeps the plot's binding: the same fields with the same counts (R447, R456). -/
def State.keepsBinding (s : State) (fn : Fn) (d : Dim) (fs : List Nat) : Bool :=
  let want := d.wants fs
  s.boundIn fn fs == want.map (·.2) && s.boundCount fn == (want.map (·.2)).foldl (· + ·) 0

/-- Whether a plot can bind a dimension's channels, its own counted as still held unless it keeps them (R456): a released channel is not free in time. -/
def State.canBind (s : State) (fn : Fn) (d : Dim) (fs : List Nat) : Bool :=
  s.keepsBinding fn d fs || (s.pickChannels (d.wants fs)).isSome

/-- Releases and binds anew, or keeps the binding (R456). -/
def State.rebind (s : State) (fn : Fn) (d : Dim) (fs : List Nat) : State :=
  if s.keepsBinding fn d fs then s
  else
    let s := s.releaseChannels fn
    s.bind fn ((s.pickChannels (d.wants fs)).getD [])

/-! ### The commons objects of a plot (R278, R444, R451, R454) -/

/-- The tallies and the mailbox of a plot become orphaned (R278). -/
def State.orphanAll (s : State) (fn : Fn) : State :=
  let mine := (s.commons.owner.filter (fun o => o.2 == fn)).map (·.1)
  { s with commons :=
    { s.commons with
      owner := s.commons.owner.filter (fun o => o.2 != fn)
      former := mine.foldl (fun m k => AMap.set m k fn) s.commons.former
      mail := AMap.put {} s.commons.mail fn.toNat { AMap.get {} s.commons.mail fn.toNat with assigned := false } } }

/-- A plot's mailbox is assigned and empty. -/
def State.assignMail (s : State) (fn : Fn) : State :=
  { s with commons.mail := AMap.put {} s.commons.mail fn.toNat { assigned := true } }

/-- Tallies `lo` to `lo + n` are assigned to a plot and zeroed. -/
def State.assignTallies (s : State) (fn : Fn) (lo n : Nat) : State :=
  { s with commons :=
    { s.commons with
      owner := (List.range (n + 1)).foldl (fun m i => AMap.set m (lo + i) fn) s.commons.owner
      tally := (List.range (n + 1)).foldl (fun m i => AMap.put 0 m (lo + i) 0) s.commons.tally } }

/-- The first free window of 16, if any. -/
def freeWindow (m : AMap Word) : Option Nat := (List.range 16).find? (fun k => !bitOf (AMap.get 0 m k) 25)

/-- A window word (R466). -/
def windowWord (first count : Nat) (mail : Bool) : Word := BitVec.ofNat 64 (first + 2 ^ 12 * count + 2 ^ 24 * b2n mail + 2 ^ 25)

/-! ### Loading (R213, R214, R493) -/

/-- CORE.FEATPOS of a core (R214). -/
def featPosWord (module : BitVec 12) (y x : Nat) (c : CoreId) : Word :=
  BitVec.ofNat 64 (x + 2 ^ 6 * y + 2 ^ 12 * colOf c + 2 ^ 18 * rowOf c + 2 ^ 24 * (fieldOfCore c).toNat + 2 ^ 32 * module.toNat)

/-- CORE.FEATPLOT of a plot (R214, R527). -/
def Plot.featWord (p : Plot) : Word :=
  let g := p.group
  BitVec.ofNat 64 (p.place.rows.toNat + 2 ^ 7 * p.place.cols.toNat + 2 ^ 14 * p.place.originY.toNat + 2 ^ 20 * p.place.originX.toNat +
    2 ^ 26 * (if g.joined then g.modules.toNat else 1) + 2 ^ 39 * (if g.joined then g.index.toNat else 0))

/-- The 1 KiB blocks of a core's image state by object of R392, each as its words. -/
def CoreTables.block (t : CoreTables) (object block : Nat) : List Word :=
  let from_ (m : AMap Word) : List Word := (List.range 128).map (fun k => AMap.get 0 m (128 * block + k))
  match object with
  | 0 => (List.range 128).map (fun k => (AMap.get (0 : BitVec 256) t.istore (32 * block + k / 4)).extractLsb' (64 * (k % 4)) 64)
  | 1 => from_ t.slot
  | 2 => from_ t.xchan
  | 3 => if block = 0 then (List.range 128).map (fun k => if k < 64 then AMap.get 0 t.handle k else AMap.get 0 t.desc (k - 64)) else (List.range 128).map (fun k => AMap.get 0 t.desc (64 + 128 * (block - 1) + k))
  | 4 => (List.range 24).map (fun k => if k < 8 then AMap.get 0 t.ring k else AMap.get 0 t.handler (k - 8))
  | _ => []

/-- Blocks of each object. -/
def objectBlocks : Nat → Nat
  | 0 => 256
  | 1 => 16
  | 2 => 2
  | 3 => 3
  | 4 => 1
  | _ => 0

/-- The golden signatures of a core's blocks, keyed by 4,096 * object + block (R392). -/
def CoreTables.signAll (t : CoreTables) : AMap Word :=
  ((List.range 5).flatMap (fun o => (List.range (objectBlocks o)).map (fun b => (o, b)))).foldl (fun m p => AMap.set m (4096 * p.1 + p.2) (Config.goldenSignature (t.block p.1 p.2))) []

/-- One core takes its image-load state (R216, R445, R493): what the sections load, its feature registers and signatures; registers and counters that no image gives read as at reset. -/
def CoreState.load (c l : CoreState) (fn : Fn) (pos plot : Word) (keepWork : Bool) : CoreState :=
  let t : CoreTables := { l.tables.asHeld with featPos := pos, featPlot := plot }
  let t : CoreTables := { t with golden := t.signAll }
  if keepWork then { c with tables := t }
  else { owner := some fn, work := l.work, image := l.work, tables := t, scrub := c.scrub }

/-- Loads every core and channel table of a plot from the dimension that its placement matches (R216, R493 step 3, R491). -/
def State.loadCores (s : State) (fn : Fn) (body : List Byte) (d : Dim) (keepWork : Bool) : State :=
  let p := s.plot fn
  let cs := p.cores
  let s := cs.zipIdx.foldl (fun (s : State) q =>
    let y := q.2 / d.cols
    let x := q.2 % d.cols
    s.modCore q.1 (fun c => c.load (d.core body q.2) fn (featPosWord s.system.module y x q.1) p.featWord keepWork)) s
  let chs := s.channels.filter (fun c => c.2.owner == some fn)
  let s := chs.foldl (fun (s : State) c => s.setChannel (BitVec.ofNat 9 c.1) { c.2 with entry := tableAsHeld (d.table body c.2.ordinal.toNat) }) s
  s.modPlot fn (fun p => { p with bar := d.bars body, rounds := [] })

/-- PLT.FMTCTL, PLT.CHAFFCTL and PLT.REPLAY take the manifest's values where R21 lets them (R489, R493 step 4). -/
def PlotRegs.loadImage (r : PlotRegs) (b : List Byte) : PlotRegs :=
  let chaff := BitVec.ofNat 64 (fieldBytes b 16 8)
  let cls := BitVec.ofNat 8 (fieldBytes b 7 1)
  let flags := BitVec.ofNat 8 (fieldBytes b 10 1)
  { r with
    bruiseNan := if r.wroteNan then r.bruiseNan else bitOf flags 1
    rampDown := if r.wroteRampDown then r.rampDown else chaff.extractLsb' 0 10
    rampUp := if r.wroteRampUp then r.rampUp else chaff.extractLsb' 16 8
    chaffFloor := if r.wroteFloor then r.chaffFloor else chaff.extractLsb' 32 6
    replayClass := cls.extractLsb' 0 2
    batchInv := bitOf cls 2
    requireSigned := if r.wroteSigned then r.requireSigned else bitOf flags 0
    steps := if r.wroteSteps then r.steps else BitVec.ofNat 13 (fieldBytes b 8 2) }

/-- Barrier groups reserved in the module by every plot but `fn` (R259). -/
def State.reservedBars (s : State) (fn : Fn) : Nat :=
  ((s.plots.filter (fun p => p.1 != fn.toNat)).map (fun p => validBars p.2.bar)).foldl (· + ·) 0

/-- Check 7 of R421 for loading a body into a plot at a placement (R216, R289, R323, R457, R460, R493). -/
def State.loadRefusal (s : State) (fn : Fn) (body : List Byte) (rows cols y x : Nat) : Option Code :=
  let p := s.plot fn
  let fs := placeFields rows cols y x
  match dimFor body rows cols y x with
  | none => some 0x100B
  | some d =>
    let env : DestEnv := { s.destEnv fn with originY := y, originX := x, rows := rows, cols := cols }
    if p.place.channels.toNat < d.channels || p.place.mib.toNat < bodyFoot body || d.channels * 1136 < bodyFoot body then some 0x1004
    else if 8388608 * d.channels < body.length then some 0x100B
    else if p.clock.budget != 0xFFFF && s.floorMw fn < drawMw (rows * cols) d.channels 32 && 100 * p.clock.budget.toNat < drawMw (rows * cols) d.channels 32 then some 0x100A
    else if !s.canBind fn d fs then some 0x100B
    else if 1024 < s.reservedBars fn + validBars (d.bars body) then some 0x100E
    else if (rectCores rows cols y x).zipIdx.any (fun q => (d.core body q.2).tables.placedBad s.grade env (fun m => colOf (s.grade.gate (s.portTo m) (rowOf q.1))) q.1) then some 0x1010
    else none

/-- The image is loaded into a placed plot (R50, R443, R493): its cores, tables and registers, the image copy, the bell number from 0. -/
def State.loadBody (s : State) (fn : Fn) (slot : BitVec 4) (body : List Byte) (d : Dim) : State :=
  let fs := (s.plot fn).fieldList
  let s := (s.rebind fn d fs).loadCores fn body d false
  (s.modPlot fn (fun p =>
    { p with
      place.state := 2
      place.foot := BitVec.ofNat 20 (bodyFoot body)
      place.image := some slot
      place.imageDigest := digestOf body
      place.coreDependent := fieldBytes body 7 1 % 4 != 0
      place.imageBody := body
      place.loads := p.place.loads + 1
      regs := p.regs.loadImage body
      bell.bell := 0 })).setPass fn

end Sys2Proof.Machine
end

