-- ==== Sys2Proof/Machine/Spares.lean ====
section
/-! DEFINITION. Which physical core serves a logical core and which physical link a logical one, the repairs that wait for a bell or a restart (R29 to R37, R42), and the rebuild of a moved core with the words of a bell image that cannot be read (R389, R404, R450). -/

namespace Sys2Proof.Machine

/-! ### Bell images (R389, R404, R450) -/

/-- A group whose unreadable entries have become bruised, with the others that their check bits cover. -/
def AccGroup.heal (g : AccGroup) : AccGroup :=
  ((g.entries.filter (fun e => e.2.damage == .uncorrectable)).map (·.1)).foldl
    (fun (g : AccGroup) k => g.onChecked g.narrow (k / 64) (k % 64) (fun e => { e with damage := .sound, bruise := true })) g

/-- The words of a bell image that cannot be read, each with detail words 0 and 2 of its report (R378): scratchpad words, then accumulator entries. -/
def CoreWork.unreadable (w : CoreWork) : List (Word × Word) :=
  (w.marks.filter (fun m => m.2 == .uncorrectable)).map (fun m => (BitVec.ofNat 64 m.1, 2)) ++
    w.groups.flatMap (fun g => (g.2.entries.filter (fun e => e.2.damage == .uncorrectable)).map (fun e =>
      (BitVec.ofNat 64 (e.1 / 64 * 1024 + (if g.2.narrow then 64 else 32) * g.1 + e.1 % 64), 6)))

/-- A bell image as it is read: what cannot be read is bruised. -/
def CoreWork.heal (w : CoreWork) : CoreWork :=
  { w with
    marks := w.marks.map (fun m => (m.1, if m.2 == .uncorrectable then .bruised else m.2))
    groups := w.groups.map (fun g => (g.1, g.2.heal)) }

/-- A report of a plot's core that belongs to no attempt, with its event entry (R361, R377, R404). -/
def State.coreReport (s : State) (fn : Fn) (c : CoreId) (code : Code) (d0 d1 d2 : Word) : State :=
  let r : Report := { s.hubReport fn code false d0 d1 d2 with core := coreDest c }
  (s.modPlot fn (fun p => { p with run.events := if p.run.isOpen then p.run.events ++ r.event.toList else p.run.events })).queueReport fn r

/-- A core's bell image is read for a restore, a rebuild or a save (R389, R404, R450): unreadable words become bruised, and SCRATCH_UE names the first of them (log entry 123). -/
def State.readImage (s : State) (fn : Fn) (c : CoreId) : State :=
  match (s.core c).image.unreadable with
  | [] => s
  | w :: _ => (s.modCore c (fun k => { k with image := k.image.heal })).coreReport fn c 0x3001 w.1 0 w.2

/-- The bell images of all cores of a plot are read. -/
def State.readImages (s : State) (fn : Fn) : State := (s.plot fn).cores.foldl (fun (s : State) c => s.readImage fn c) s

/-- A moved core is rebuilt from its bell image (R389). -/
def State.rebuildCore (s : State) (fn : Fn) (c : CoreId) : State := (s.readImage fn c).modCore c (fun k => { k with work := k.image })

/-! ### Row maps (R29 to R34) -/

/-- The place of set bit `k` of a mask, 36 when there is none (R29). -/
def physicalColumn (m : BitVec 36) (k : Nat) : Nat := ((List.range 36).filter (fun i => m.getLsbD i)).getD k 36

/-- The row map of a logical core's row. -/
def State.rowMap (s : State) (c : CoreId) : RowMap := AMap.get {} (s.field (fieldOfCore c)).rows (rowOf c % 16)

/-- The physical column that serves logical column `k` of a row, by the old mask where a remap still waits (R31, R42). -/
def RowMap.column (r : RowMap) (k : Nat) : Nat := physicalColumn ((AMap.find r.serving k).getD r.enable) k

/-- The physical column that serves a logical core. -/
def State.physOf (s : State) (c : CoreId) : Nat := (s.rowMap c).column (colOf c % 32)

/-- The physical core that serves a logical core. -/
def State.physCore (s : State) (c : CoreId) : PhysCore := AMap.get {} (s.field (fieldOfCore c)).arrays (64 * (rowOf c % 16) + s.physOf c)

/-- Replaces the physical core that serves a logical core. -/
def State.setPhysCore (s : State) (c : CoreId) (k : PhysCore) : State :=
  let f := s.field (fieldOfCore c)
  s.setField (fieldOfCore c) { f with arrays := AMap.put {} f.arrays (64 * (rowOf c % 16) + s.physOf c) k }

/-- The core at logical row and column of a field. -/
def fieldCore (f row col : Nat) : CoreId := coreAt (16 * (f / 2) + row) (32 * (f % 2) + col)

/-- Whether a plot is held between steps or being restored: a repair is then made at once (R404, R467). -/
def Plot.repairsNow (p : Plot) : Bool := (p.place.state == 3 && p.step.phase == .held) || p.moving.restoring

/-- A row takes a new map (R31, R42, R404): each core that moves is served as before until the next bell or restart of its domain; one of a plot held between steps, or being restored, moves at once. The cores of a shared row wait each for its own domain (log entry 116). -/
def State.remapRow (s : State) (f : FieldId) (row : Nat) (new : RowMap) : State :=
  let old := (AMap.get {} (s.field f).rows row).enable
  let moved := (List.range 32).filter (fun k => physicalColumn old k != physicalColumn new.enable k)
  let heldBy (k : Nat) : Option Fn := (s.core (fieldCore f.toNat row k)).owner.filter (fun fn => (s.plot fn).repairsNow)
  let wait := moved.filter (fun k => (heldBy k).isNone && (AMap.find new.serving k).isNone)
  let row_ : RowMap := { new with serving := wait.foldl (fun m k => AMap.set m k old) new.serving }
  let s := s.setField f { s.field f with rows := AMap.put {} (s.field f).rows row row_ }
  moved.foldl (fun (s : State) k => match heldBy k with | some fn => s.rebuildCore fn (fieldCore f.toNat row k) | none => s) s

/-! ### Bridge links (R36, R37) -/

/-- The physical link that serves logical link `k`, or is to serve it from the next bell or restart. -/
def Edge.planned (g : Edge) (k : Nat) : Nat := (AMap.find g.next k).getD (g.served k)

/-- A failed bridge link (R37): the edge, and the logical link that it served with the physical link that is to serve that from the next bell or restart, 36 when no spare is left. -/
def Edge.fail (g : Edge) (link : Nat) : Edge × Option (Nat × Nat) :=
  let bad := g.bad ||| BitVec.ofNat 36 (2 ^ link)
  match (List.range 32).find? (fun k => g.planned k == link) with
  | none => ({ g with bad := bad }, none)
  | some k =>
    let used (i : Nat) : Bool := g.serves.any (fun l => l.2 == i) || g.next.any (fun l => l.2 == i)
    let i := (((List.range 4).map (32 + ·)).find? (fun i => !bad.getLsbD i && !used i)).getD 36
    ({ g with bad := bad, next := AMap.set g.next k i }, some (k, i))

/-- The waiting link changes that `f` selects take effect. -/
def Edge.take (g : Edge) (f : Nat → Bool) : Edge :=
  let now := g.next.filter (fun l => f l.1)
  { g with serves := now.foldl (fun m l => AMap.set m l.1 l.2) g.serves, next := g.next.filter (fun l => !f l.1) }

/-- The two routers of a logical link with the input port that faces it. -/
def linkEnds (e k : Nat) : List (CoreId × Nat) :=
  if e < 6 then [(coreAt (16 * (e / 2) + 15) (32 * (e % 2) + k), 2), (coreAt (16 * (e / 2) + 16) (32 * (e % 2) + k), 0)]
  else [(coreAt (16 * (e - 6) + k / 2) 31, 1), (coreAt (16 * (e - 6) + k / 2) 32, 3)]

/-- The plots with a slot on a logical link: those with a RECV train at one of its ends (R296). -/
def State.linkPlots (s : State) (e k : Nat) : List Fn :=
  ((linkEnds e k).filterMap (fun q =>
    let c := s.core q.1
    if c.tables.trains.any (fun t => t.2.kind == 4 && t.2.port.toNat == q.2 && (e < 6 || t.2.link1 == (k % 2 == 1))) then c.owner else none)).dedup

/-! ### A bell or a restart of a domain (R31, R37, R42, R129) -/

/-- The cores of a domain, the idle domain for `none`, whose remap waits: field, row and logical column. -/
def State.waitingCores (s : State) (own : Option Fn) : List (Nat × Nat × Nat) :=
  s.fields.flatMap (fun f => f.2.rows.flatMap (fun r => (r.2.serving.map (fun e => (f.1, r.1, e.1))).filter (fun w => (s.core (fieldCore w.1 w.2.1 w.2.2)).owner == own)))

/-- One waiting remap takes effect: the core is served by its new physical core and rebuilt there. -/
def State.moveCore (own : Option Fn) (s : State) (w : Nat × Nat × Nat) : State :=
  let f : FieldId := BitVec.ofNat 3 w.1
  let k := s.field f
  let row := AMap.get {} k.rows w.2.1
  let s := s.setField f { k with rows := AMap.put {} k.rows w.2.1 { row with serving := AMap.erase row.serving w.2.2 } }
  match own with
  | some fn => s.rebuildCore fn (fieldCore w.1 w.2.1 w.2.2)
  | none => s

/-- The domain of the logical core that a physical core serves, if it serves one. -/
def State.servedBy (s : State) (f key : Nat) : Option CoreId :=
  let row := AMap.get {} (s.field (BitVec.ofNat 3 f)).rows (key / 64)
  ((List.range 32).find? (fun k => row.column k == key % 64)).map (fun k => fieldCore f (key / 64) k)

/-- The waiting array maps of a domain's cores take effect (R42, R129). -/
def State.takeMaps (s : State) (own : Option Fn) : State :=
  let due (f key : Nat) : Bool := match s.servedBy f key with | some c => (s.core c).owner == own | none => own.isNone
  { s with fields := s.fields.map (fun f => (f.1, { f.2 with arrays := f.2.arrays.map (fun a =>
      (a.1, if a.2.next.isSome && due f.1 a.1 then { a.2 with map := a.2.next.getD a.2.map, next := none } else a.2)) })) }

/-- The repairs that wait for a bell or a restart of a domain take effect (R31, R37, R42); a link with no plot's slot on it waits for the idle domain's bell. -/
def State.takeRemaps (s : State) (own : Option Fn) : State :=
  let s := ((s.waitingCores own).foldl (State.moveCore own) s).takeMaps own
  let due (e k : Nat) : Bool := match own with | some fn => (s.linkPlots e k).contains fn | none => s.linkPlots e k == []
  { s with edges := s.edges.map (fun e => (e.1, e.2.take (due e.1))) }

end Sys2Proof.Machine
end

