-- ==== Sys2Proof/Machine/Plots.lean ====
section
/-! DEFINITION. What the management packets do to a plot (R441 to R466, R525, R526): their checks at check 7 of R421 and their effects at the bell. -/

namespace Sys2Proof.Machine

/-- The plot state that PLT.PLACE.STATE reads (R440): 4 while a running plot is held, at its bell for a lock-step partner too (R400). -/
def Plot.stateNow (p : Plot) : Nat := if p.place.state == 3 && (p.step.phase == .held || p.step.rung) then 4 else p.place.state.toNat

/-- No step runs any more; the time of the domain's last bell stands (R52). -/
def StepState.fresh (t : StepState) : StepState := { lastBell := t.lastBell, everRung := t.everRung }

/-- The states in which a packet TYPE is allowed (R441). -/
def typeAllowed (type : BitVec 8) (st : Nat) : Bool :=
  match type.toNat with
  | 0x20 => st == 0
  | 0x09 => st == 1 || st == 2
  | 0x06 => st == 2
  | 0x07 => st == 3 || st == 4
  | 0x08 => st == 3 || st == 4
  | 0x21 => st == 1 || st == 2
  | 0x22 => 1 ≤ st && st ≤ 5
  | 0x23 => st == 5 || st == 6
  | 0x28 => st == 1
  | 0x29 => true
  | 0x2A => true
  | _ => 1 ≤ st && st ≤ 6

/-! ### Resizing, resuming -/

/-- The rows, columns and origin that a placement packet comes to, if it fits (R444, R447, R451). -/
def State.placement (s : State) (fn : Fn) (own : Bool) (param : Word) : Option (Nat × Nat × Nat × Nat) :=
  (s.originFor fn own param).map (fun o => (fieldOf param 0 7, fieldOf param 7 7, o.1, o.2))

/-- The save regions of a plot: for each occupied field, its highest ordinal if it holds a channel there, and its cores (R448). -/
def State.saveRegions (s : State) (fn : Fn) : List (Option Nat × Nat) :=
  let p := s.plot fn
  p.fieldList.map (fun f =>
    let os := (s.channels.filter (fun c => c.2.owner == some fn && c.1 / 64 == f)).map (fun c => c.2.ordinal.toNat)
    (if os == [] then none else some (os.foldl max 0), (p.cores.filter (fun c => (fieldOfCore c).toNat == f)).length))

/-- The refusals of PLOT_PREEMPT at check 7 (R449). -/
def State.preemptRefusal (s : State) (fn : Fn) : Option Code :=
  let p := s.plot fn
  if p.place.state == 1 then none
  else if (s.saveRegions fn).any (fun r => r.1.isNone) then some 0x100B
  else if (s.saveRegions fn).any (fun r => (r.1.getD 0 + 1) * shareUnits < p.place.foot.toNat * 16384 + 27648 * r.2) then some 0x1004
  else none

/-- The fields of a resumption in which ordinals stay, and the channels to bind for the others (R451): pairs of old channel and new field. -/
def State.movedOrdinals (s : State) (fn : Fn) (old new : List Nat) : List (Nat × Channel × Nat) :=
  ((s.channels.filter (fun c => c.2.owner == some fn)).map (fun c => (c.1, c.2, (new.zip old).foldl (fun k q => if q.2 = c.1 / 64 then q.1 else k) (c.1 / 64)))).filter (fun c => c.2.2 != c.1 / 64)

/-- Whether a resumption finds a free channel for every ordinal that moves (R451, R469). -/
def State.canMove (s : State) (fn : Fn) (old new : List Nat) : Bool :=
  new.all (fun f => ((s.movedOrdinals fn old new).filter (fun c => c.2.2 == f)).length ≤ (s.freeChannels f).length)

/-- Moves each ordinal of a changed field to a free channel of the corresponding field, with its share; the old channel is released (R451). -/
def State.moveOrdinals (s : State) (fn : Fn) (old new : List Nat) : State :=
  (sortBy (fun a b => a.2.1.ordinal.toNat ≤ b.2.1.ordinal.toNat) (s.movedOrdinals fn old new)).foldl (fun (s : State) c =>
    match s.freeChannels c.2.2 with
    | [] => s
    | ch :: _ =>
      let k := s.channel ch
      let s := s.setChannel ch { k with ordinal := c.2.1.ordinal, owner := some fn, mem := c.2.1.mem, bruise := c.2.1.bruise, damage := c.2.1.damage }
      s.setChannel (BitVec.ofNat 9 c.1) c.2.1.release) s

/-- The refusals of PLOT_RESUME at check 7 (R451, R452, R460, R469). -/
def State.resumeRefusal (s : State) (fn : Fn) (param : Word) : Option Code :=
  let p := s.plot fn
  if p.place.state == 5 then
    if bitOf param 26 || fieldOf param 0 7 != p.place.rows.toNat || fieldOf param 7 7 != p.place.cols.toNat || fieldOf param 14 6 != p.place.originY.toNat || fieldOf param 20 6 != p.place.originX.toNat then some 0x100B else none
  else
    match s.placement fn false param with
    | none => some 0x100B
    | some (rows, cols, y, x) =>
      let fs := placeFields rows cols y x
      if rows != p.place.savedRows.toNat || cols != p.place.savedCols.toNat || fieldPattern rows cols y x != p.place.pattern || !s.canMove fn (placeFields rows cols p.place.originY.toNat p.place.originX.toNat) fs then some 0x100B
      else if p.place.hadImage && (dimFor p.place.imageBody rows cols y x).isNone then some 0x100B
      else if p.clock.budget != 0xFFFF && s.floorMw fn < drawMw (rows * cols) (s.boundCount fn) 32 && 100 * p.clock.budget.toNat < drawMw (rows * cols) (s.boundCount fn) 32 then some 0x100A
      else none

/-- The refusals of PLOT_RESIZE at check 7 (R216, R447, R460). -/
def State.resizeRefusal (s : State) (fn : Fn) (param : Word) : Option Code :=
  let p := s.plot fn
  match s.placement fn true param with
  | none => some 0x100B
  | some (rows, cols, y, x) =>
    if p.place.state == 2 then s.loadRefusal fn p.place.imageBody rows cols y x
    else if p.clock.budget != 0xFFFF && s.floorMw fn < drawMw (rows * cols) 0 32 && 100 * p.clock.budget.toNat < drawMw (rows * cols) 0 32 then some 0x100A
    else none

/-- The refusals of COMMONS at check 7 (R465). -/
def State.commonsRefusal (s : State) (fn : Fn) (param : Word) : Option Code :=
  let p := s.plot fn
  let first := fieldOf param 0 12
  match fieldOf param 32 2 with
  | 0 =>
    if bitOf param 34 then if fieldOf param 0 8 != fn.toNat || (AMap.get {} s.commons.mail fn.toNat).assigned then some 0x1008 else none
    else if (List.range (fieldOf param 12 12 + 1)).any (fun i => !s.commons.tallyOrphan (first + i)) || (freeWindow p.commons.cown).isNone then some 0x1008
    else none
  | 1 => if (freeWindow p.commons.cgrant).isNone then some 0x1008 else none
  | _ => none

/-- The refusals of PLOT_JOIN at its checks (R526); a module number is taken to be in the system when a cable path to it can exist (R513). -/
def State.joinRefusal (s : State) (fn : Fn) (p : PacketIn) : Option Code :=
  let g := (s.plot fn).group
  let n := fieldOf p.param 24 13
  let ms := (List.range n).map (fun i => fieldBytes p.payload (2 * i) 2)
  if bitOf p.param 53 then (if g.joined then none else some 0x1008)
  else if g.joined || g.joining.isSome || s.system.joins.any (fun j => j.groupId == p.param.extractLsb' 0 8 && j.digest != p.digest.extractLsb' 0 40) then some 0x1008
  else if n < 2 || 4096 < n || ms.getD (fieldOf p.param 12 12) 0xFFFF != s.system.module.toNat || ms.dedup.length != n || ms.any (fun m => 4096 ≤ m) || !zeroBytes p.payload (2 * n) p.payload.length then some 0x1002
  else none

/-- Check 7 of R421 for the packets that act on a plot in placement or resources. -/
def State.mgmtRefusal (s : State) (type : BitVec 8) (p : PacketIn) : Option Code :=
  let fn := p.plot
  let q := s.plot fn
  match type.toNat with
  | 0x20 => if (s.placement fn false p.param).isNone then some 0x100B else none
  | 0x21 => s.resizeRefusal fn p.param
  | 0x22 => s.preemptRefusal fn
  | 0x23 => s.resumeRefusal fn p.param
  | 0x25 => if fieldOf p.param 0 10 < s.boundCount fn || fieldOf p.param 10 32 < q.place.foot.toNat then some 0x1004 else none
  | 0x26 => if 100 * fieldOf p.param 0 16 < s.floorMw fn then some 0x100A else none
  | 0x27 => s.commonsRefusal fn p.param
  | 0x28 => s.joinRefusal fn p
  | _ => none

/-! ### Effects -/

/-- A plot as the reset of its function's plot leaves it (R437, R454): the registers of the plot at reset, its rings, mailbox, counters and queued packets as they stood. -/
def Plot.cleared (p : Plot) : Plot :=
  { sq := p.sq, cq := p.cq, host := p.host
    counts := { vector0 := p.counts.vector0, vector1 := p.counts.vector1, vector2 := p.counts.vector2, readPaused := p.counts.readPaused }
    packets := { p.packets with staged := [] }
    faults := { p.faults with stopCode := 0, attemptReports := [] }
    commons := { dropped := p.commons.dropped, refused := p.commons.refused }
    bell := { ctl := p.bell.ctl, late := p.bell.late, slip := p.bell.slip, rejected := p.bell.rejected, overrun := p.bell.overrun, heldCount := p.bell.heldCount, cause := p.bell.cause } }

/-- A plot is placed (R444): cores joined, state 1, its mailbox assigned and empty. -/
def State.createPlot (s : State) (fn : Fn) (rows cols y x : Nat) : State :=
  let s := (s.joinCores fn (rectCores rows cols y x)).assignMail fn
  (s.modPlot fn (fun p => { p.cleared with packets := p.packets, place := { state := 1, rows := BitVec.ofNat 7 rows, cols := BitVec.ofNat 7 cols, originY := BitVec.ofNat 6 y, originX := BitVec.ofNat 6 x } })).setPass fn

/-- A plot's place takes a new rectangle. -/
def Plot.movedTo (p : Plot) (rows cols y x : Nat) : Plot :=
  { p with place.rows := BitVec.ofNat 7 rows, place.cols := BitVec.ofNat 7 cols, place.originY := BitVec.ofNat 6 y, place.originX := BitVec.ofNat 6 x }

/-- PLOT_RESIZE (R447). -/
def State.resizePlot (s : State) (fn : Fn) (rows cols y x : Nat) : State :=
  let p := s.plot fn
  let new := rectCores rows cols y x
  let s := ((s.leaveCores (p.cores.filter (fun c => !new.contains c))).joinCores fn new).setPlot fn (p.movedTo rows cols y x)
  if p.place.state == 2 then
    match dimFor p.place.imageBody rows cols y x with
    | some d => ((s.rebind fn d (placeFields rows cols y x)).loadCores fn p.place.imageBody d false).setPass fn
    | none => s
  else s.setPass fn

/-- PLOT_PREEMPT (R450): the run has ended; owned commons objects are orphaned, and every core's bell image is read and saved. -/
def State.preemptPlot (s : State) (fn : Fn) : State :=
  let s := if (s.plot fn).place.state == 1 then s else s.readImages fn
  let p := s.plot fn
  let saved := if p.place.state == 1 then [] else p.cores.zipIdx.map (fun c => { rel := c.2, work := (s.core c.1).image })
  (s.orphanAll fn).setPlot fn { p with
    run := p.run.ended
    step := p.step.fresh
    moving := { saving := true, saved := saved }
    place.hadImage := p.place.image.isSome
    place.state := if p.place.state == 1 || p.place.state == 5 then p.place.state else 2
    place.pattern := fieldPattern p.place.rows.toNat p.place.cols.toNat p.place.originY.toNat p.place.originX.toNat
    place.savedRows := p.place.rows
    place.savedCols := p.place.cols
    bell.stopped := false }

/-- PLOT_RESUME (R451, R452): a stopped plot passes to state 2; a pre-empted one is placed, its ordinals move, its image state loads, and the restore begins. -/
def State.resumePlot (s : State) (fn : Fn) (rows cols y x : Nat) : State :=
  let p := s.plot fn
  if p.place.state == 5 then s.setPlot fn { p with place.state := 2, bell.stopped := false, faults.stopCode := 0, step := p.step.fresh }
  else
    let old := placeFields rows cols p.place.originY.toNat p.place.originX.toNat
    let s := ((s.moveOrdinals fn old (placeFields rows cols y x)).joinCores fn (rectCores rows cols y x)).setPlot fn { p.movedTo rows cols y x with moving.restoring := true }
    let s :=
      match p.place.hadImage, dimFor p.place.imageBody rows cols y x with
      | true, some d => s.loadCores fn p.place.imageBody d true
      | _, _ => s
    s.setPass fn

/-- The ownership windows of a plot whose tallies are still orphaned are honoured, the others removed; the mailbox is assigned again (R451, R466). -/
def State.reclaim (s : State) (fn : Fn) : State :=
  let s := s.assignMail fn
  (s.plot fn).commons.cown.foldl (fun (s : State) w =>
    let first := fieldOf w.2 0 12
    let n := fieldOf w.2 12 12
    if (List.range (n + 1)).all (fun i => s.commons.tallyOrphan (first + i)) then s.assignTallies fn first n
    else s.modPlot fn (fun p => { p with commons.cown := AMap.erase p.commons.cown w.1 })) s

/-- A plot is removed (R454): objects orphaned, cores and channels released; its staged packets are refused by the caller. -/
def State.removePlot (s : State) (fn : Fn) : State :=
  let s := ((s.orphanAll fn).leaveCores (s.plot fn).cores).releaseChannels fn
  { s.modPlot fn Plot.cleared with mesh.flits := s.mesh.flits.filter (fun f => f.2.fn != fn) }

/-- COMMONS (R465). -/
def State.commonsOp (s : State) (fn : Fn) (param : Word) : State :=
  let first := fieldOf param 0 12
  let n := fieldOf param 12 12
  let mail := bitOf param 34
  let w := windowWord (if mail then fieldOf param 0 8 else first) (if mail then 0 else n) mail
  match fieldOf param 32 2 with
  | 0 =>
    if mail then s.assignMail fn
    else (s.assignTallies fn first n).modPlot fn (fun p => { p with commons.cown := AMap.set p.commons.cown ((freeWindow p.commons.cown).getD 0) w })
  | 1 => s.modPlot fn (fun p => { p with commons.cgrant := AMap.set p.commons.cgrant ((freeWindow p.commons.cgrant).getD 0) w })
  | _ => s.modPlot fn (fun p => { p with commons.cgrant := p.commons.cgrant.filter (fun g => g.2 != w) })

/-- A bell word toward the root leaves by port 0 (R510, R513). -/
def State.sendWord (s : State) (port : PortId) (w : Word) : State :=
  let p := s.port port
  if p.bellOut.length < 64 then s.setPort port { p with bellOut := p.bellOut ++ [w] } else s

/-- The ports below which a group has members (R520, R526). -/
def State.branchesOf (s : State) (g : BitVec 8) : List PortId := (s.system.branches.filter (fun b => b.1 == g)).map (·.2)

/-- A word goes down every branch that holds a member of the group. -/
def State.sendDown (s : State) (g : BitVec 8) (w : Word) : State := (s.branchesOf g).foldl (fun (s : State) p => s.sendWord p w) s

/-- A member's word to the root, which sends it to every member (R524). -/
def State.groupSend (s : State) (g : BitVec 8) (w : Word) : State := if s.system.root then s.sendDown g w else s.sendWord 0 w

/-- A bell word (R519). -/
def bellWord (kind : Nat) (group : BitVec 8) (bell : Nat) (value : Nat) : Word :=
  BitVec.ofNat 64 (kind + 2 ^ 4 * group.toNat + 2 ^ 12 * (bell % 4096) + 2 ^ 24 * (value % 2 ^ 40))

/-- PLOT_JOIN takes effect (R526): the join goes to the root in CONTROL words; its completion waits. At the root itself it is held there. -/
def State.joinPlot (s : State) (fn : Fn) (st : Staged) : State :=
  let digest : BitVec 40 := st.p.digest.extractLsb' 0 40
  let gid : BitVec 8 := st.p.param.extractLsb' 0 8
  let s := s.modPlot fn (fun q => { q with group := { q.group with joining := some st, groupId := gid, index := st.p.param.extractLsb' 12 12, modules := st.p.param.extractLsb' 24 13, cross := st.p.param.extractLsb' 37 16,
                                                                    root := BitVec.ofNat 12 (fieldBytes st.p.payload 0 2), members := (List.range (fieldOf st.p.param 24 13)).map (fun i => BitVec.ofNat 12 (fieldBytes st.p.payload (2 * i) 2)) } })
  if s.system.root then { s with system.joins := s.system.joins ++ [{ groupId := gid, digest := digest }] }
  else s.sendWord 0 (bellWord 6 gid (s.plot fn).bell.bell.toNat digest.toNat)

/-- PLOT_LEAVE (R525). -/
def State.leavePlot (s : State) (fn : Fn) : State := s.modPlot fn (fun p => { p with group := {} })

/-- BUDGET (R460); a cut while an overrun cap holds lowers both pass counts to the budget's at most (R74). -/
def State.setBudget (s : State) (fn : Fn) (b : BitVec 16) : State :=
  let old := (s.plot fn).clock
  let s := (s.modPlot fn (fun q => { q with clock.budget := b })).setPass fn
  if old.capBells == 0 || old.budget.toNat ≤ b.toNat then s
  else
    s.modPlot fn (fun q => { q with
      clock.pass := BitVec.ofNat 7 (min old.pass.toNat q.clock.passBudget.toNat)
      clock.capPass := BitVec.ofNat 7 (min old.capPass.toNat q.clock.passBudget.toNat) })

/-- The effect of a management packet that its checks let through, joins and the module's own packets apart. -/
def State.mgmtApply (s : State) (type : BitVec 8) (p : PacketIn) : State :=
  let fn := p.plot
  let at_ (own : Bool) : Nat × Nat × Nat × Nat := (s.placement fn own p.param).getD (0, 0, 0, 0)
  match type.toNat with
  | 0x20 => let r := at_ false; s.createPlot fn r.1 r.2.1 r.2.2.1 r.2.2.2
  | 0x21 => let r := at_ true; s.resizePlot fn r.1 r.2.1 r.2.2.1 r.2.2.2
  | 0x22 => s.preemptPlot fn
  | 0x23 => let r := at_ false; s.resumePlot fn r.1 r.2.1 r.2.2.1 r.2.2.2
  | 0x25 => s.modPlot fn (fun q => { q with place.channels := p.param.extractLsb' 0 10, place.mib := p.param.extractLsb' 10 32 })
  | 0x26 => s.setBudget fn (p.param.extractLsb' 0 16)
  | 0x27 => s.commonsOp fn p.param
  | _ => s

end Sys2Proof.Machine
end

