-- ==== Sys2Proof/Machine/Flash.lean ====
section
/-! DEFINITION. The configuration flash and the calendar packet (R482 to R485, R492, R494 to R497, R501 to R505): headers, configuration blocks, the checks and effects of the FLASH operations, dates. -/

namespace Sys2Proof.Machine

/-! ### The calendar (R502, R503) -/

/-- `leap` of R503. -/
def leap (y : Nat) : Nat := if y % 4 = 0 && (y % 100 != 0 || y % 400 = 0) then 1 else 0

/-- `month_days` of R503. -/
def monthDays (y m : Nat) : Nat := if m = 2 then 28 + leap y else [31, 28, 31, 30, 31, 30, 31, 31, 30, 31, 30, 31].getD (m - 1) 0

/-- `cal_seconds` of R503. -/
def calSeconds (y mo d h mi sec : Nat) : Nat :=
  let years := ((List.range (y - 2000)).map (fun k => 365 + leap (2000 + k))).foldl (· + ·) 0
  let months := ((List.range (mo - 1)).map (fun k => monthDays y (k + 1))).foldl (· + ·) 0
  (years + months + d - 1) * 86400 + h * 3600 + mi * 60 + sec

/-- The refusal of a CALENDAR packet's PARAM (R502, R505). -/
def calendarRefusal (w : Word) : Option Code :=
  let y := fieldOf w 0 9
  let m := fieldOf w 9 4
  let d := fieldOf w 13 5
  if 399 < y || m = 0 || 12 < m || d = 0 || monthDays (2000 + y) m < d then some 0x1005
  else if 23 < fieldOf w 18 5 || 59 < fieldOf w 23 6 || 59 < fieldOf w 29 6 || 999999 < fieldOf w 35 20 then some 0x1006
  else none

/-- The calendar at a CALENDAR packet's bell: its instant and the `n` hc since acceptance (R502, R504). -/
def Battery.setCalendar (b : Battery) (w : Word) (n : Nat) : Battery :=
  let sec := calSeconds (2000 + fieldOf w 0 9) (fieldOf w 9 4) (fieldOf w 13 5) (fieldOf w 18 5) (fieldOf w 23 6) (fieldOf w 29 6)
  ({ b with seconds := BitVec.ofNat 40 sec, usec := w.extractLsb' 35 20, sub := 0, ended := false, valid := true } : Battery).run n

/-! ### Flash content (R483 to R485) -/

/-- Programs bytes from offset `lo`. -/
def Flash.program (f : Flash) (lo : Nat) (bs : List Byte) : Flash :=
  { f with mem := bs.zipIdx.foldl (fun m p => AMap.put 0 m (lo + p.2) p.1) f.mem }

/-- Erases `n` bytes from offset `lo`; an erased byte reads 0 (log entry 28). -/
def Flash.eraseRange (f : Flash) (lo n : Nat) : Flash := { f with mem := f.mem.filter (fun c => c.1 < lo || lo + n ≤ c.1) }

/-- Offset of a boot header copy. -/
def headerOffset (copyB : Bool) : Nat := if copyB then 0x1000 else 0

/-- Offset of a configuration block copy. -/
def configOffset (copyB : Bool) : Nat := if copyB then 0x3000 else 0x2000

/-- GENERATION of a boot header copy when it is valid (R484). -/
def Flash.headerGen (f : Flash) (copyB : Bool) : Option Nat :=
  let h := f.read (headerOffset copyB) 4096
  if fieldBytes h 0 4 == 0x544F4F42 && fieldBytes h 1088 32 == (digestOf (h.take 1088)).toNat then some (fieldBytes h 4 4) else none

/-- The copy in use of two generations: the higher, A on a tie. -/
def newerCopy (a b : Option Nat) : Option Bool :=
  match a, b with
  | none, none => none
  | some _, none => some false
  | none, some _ => some true
  | some x, some y => some (decide (x < y))

/-- Catalogue entry `k` of a header (R484). -/
def headerEntry (h : List Byte) (k : Nat) : CatEntry :=
  let a := 64 + 64 * k
  { state := BitVec.ofNat 8 (fieldBytes h a 1), offset := BitVec.ofNat 32 (fieldBytes h (a + 4) 4), length := BitVec.ofNat 32 (fieldBytes h (a + 8) 4)
    secVersion := BitVec.ofNat 32 (fieldBytes h (a + 12) 4), image := BitVec.ofNat 256 (fieldBytes h (a + 16) 32) }

/-- The 64 bytes of a catalogue entry; an entry that is not valid is written empty (R496). -/
def CatEntry.bytes (e : CatEntry) : List Byte :=
  if e.state == 1 then bytesOfNat 4 1 ++ bytesOfNat 4 e.offset.toNat ++ bytesOfNat 4 e.length.toNat ++ bytesOfNat 4 e.secVersion.toNat ++ bytesOfNat 32 e.image.toNat ++ bytesOfNat 16 0
  else bytesOfNat 64 0

/-- A boot header over a catalogue (R484). -/
def headerBytes (gen : Nat) (cat : AMap CatEntry) : List Byte :=
  let body := bytesOfNat 4 0x544F4F42 ++ bytesOfNat 4 gen ++ bytesOfNat 56 0 ++ (List.range 16).flatMap (fun k => (AMap.get {} cat k).bytes)
  body ++ bytesOfNat 32 (digestOf body).toNat ++ bytesOfNat 2976 0

/-- Writes the catalogue into the unused header copy with GENERATION + 1 (R494). -/
def Flash.writeCatalogue (f : Flash) (inB : Bool) (cat : AMap CatEntry) : Flash :=
  { f.program (headerOffset (!inB)) (headerBytes (f.generation.toNat + 1) cat) with catalogue := cat, generation := f.generation + 1 }

/-- Whether a configuration block is valid (R485). -/
def configOk (b : List Byte) : Bool :=
  let signer := sliceBytes b 3808 96
  b.length == 4096 && fieldBytes b 0 4 == 0x47464E43 && fieldBytes b 8 1 < 32 && fieldBytes b 10 1 < 16 && fieldBytes b 11 1 < 2 && zeroBytes b 12 64 && zeroBytes b 576 3808 && zeroBytes b 4000 4096 &&
    (List.range 16).all (fun k => zeroBytes b (64 + 32 * k + 11) (64 + 32 * k + 12) && zeroBytes b (64 + 32 * k + 22) (64 + 32 * k + 32)) &&
    keyDigest signer == Config.signerDigest && Config.ecdsaVerify (natOfBytes signer) (fieldBytes b 3904 96) (digestOf (b.take 3904)).toNat

/-- The valid START entries of a configuration block, in order (R485). -/
def configStarts (b : List Byte) : List StartEntry :=
  (List.range 16).filterMap (fun k =>
    let a := 64 + 32 * k
    if fieldBytes b a 1 = 0 then none
    else some { fn := BitVec.ofNat 8 (fieldBytes b (a + 1) 1), create := BitVec.ofNat 64 (fieldBytes b (a + 2) 8), slot := BitVec.ofNat 4 (fieldBytes b (a + 10) 1)
                quota := BitVec.ofNat 64 (fieldBytes b (a + 12) 8), budget := BitVec.ofNat 16 (fieldBytes b (a + 20) 2) })

/-! ### Catalogue (R492) -/

/-- Whether a plot in states 2 to 6 holds the image of a slot (R492). -/
def State.slotLoaded (s : State) (slot : Nat) : Bool :=
  let e := AMap.get {} s.hub.flash.catalogue slot
  e.state == 1 && s.plots.any (fun p => (p.2.place.state.toNat ≥ 2 || p.2.place.hadImage) && p.2.place.image.isSome && p.2.place.imageDigest == e.image)

/-- A catalogue entry with the verdict of its container and the verified body (R492). -/
def CatEntry.verify (e : CatEntry) (k : Keys) (f : Flash) : CatEntry :=
  let c := f.read e.offset.toNat e.length.toNat
  let v := containerVerdict k c
  { e with verdict := v.1, body := v.2, secVersion := BitVec.ofNat 32 (fieldBytes c 8 4), image := BitVec.ofNat 256 (fieldBytes c 64 32) }

/-! ### FLASH operations (R494, R495, R497) -/

/-- The operation of a FLASH packet. -/
def flashOpOf (w : Word) : Nat := fieldOf w 4 4

/-- Whether a LENGTH obeys the table of R494. -/
def flashLengthOk (op len : Nat) : Bool :=
  match op with
  | 1 => len % 64 == 0 && 64 ≤ len && len ≤ 4194304
  | 4 => len == 4096
  | 6 => len == 40
  | _ => len == 0

/-- The lowest free range of `n` bytes in the image area, aligned to 64 KiB (R483, R494). -/
def Flash.freeRange (f : Flash) (n : Nat) : Option Nat :=
  let used := (f.catalogue.filter (fun e => e.2.state != 0)).map (fun e => (e.2.offset.toNat, e.2.offset.toNat + e.2.length.toNat))
  let starts := sortBy (fun a b => a ≤ b) (0x20000 :: used.map (fun u => ceilDiv u.2 65536 * 65536))
  starts.find? (fun o => o + n ≤ Config.flashBytes && used.all (fun u => o + n ≤ u.1 || u.2 ≤ o))

/-- Checks of R495 at check 7. -/
def State.flashRefusal (s : State) (p : PacketIn) : Option Code :=
  let f := s.hub.flash
  let slot := fieldOf p.param 0 4
  let arg := fieldOf p.param 8 32
  let e := AMap.get {} f.catalogue slot
  match flashOpOf p.param with
  | 0 => if s.slotLoaded slot then some 0x1008 else if arg < 1536 || 536871424 < arg || (f.freeRange arg).isNone then some 0x100B else none
  | 1 => if s.slotLoaded slot || e.state != 2 then some 0x1008 else if e.length.toNat < arg + p.length.toNat then some 0x1002 else none
  | 2 => if e.state != 2 then some 0x1008 else none
  | 3 => if s.slotLoaded slot then some 0x1008 else none
  | 4 => if configOk p.payload then none else some 0x5001
  | 5 => if arg ≤ s.hub.keys.minSecurity.toNat || 64 < arg then some 0x5004
         else if s.plots.any (fun q => q.2.place.image.isSome && (AMap.get {} f.catalogue (q.2.place.image.getD 0).toNat).secVersion.toNat < arg) then some 0x1008 else none
  | 6 => match s.hub.keys.source 0 with
         | none => some 0x5002
         | some k => if (Config.kwUnwrap k p.payload).isNone then some 0x5001 else none
  | _ => none

/-- Verdicts that a change of keys or of the minimum touches are formed again (R495, R497). -/
def Hub.reverify (h : Hub) : Hub :=
  { h with flash.catalogue := h.flash.catalogue.map (fun e => if e.2.state == 1 then (e.1, e.2.verify h.keys h.flash) else e) }

/-- The effect of a FLASH operation (R494, R497), or the refusal that its end brings. -/
def State.flashRun (s : State) (p : PacketIn) : Except Code State :=
  let f := s.hub.flash
  let slot := fieldOf p.param 0 4
  let arg := fieldOf p.param 8 32
  let e := AMap.get {} f.catalogue slot
  let put (g : Flash) : Except Code State := .ok (s.modHub (fun h => { h with flash := g }))
  match flashOpOf p.param with
  | 0 =>
    match f.freeRange arg with
    | none => .error 0x100B
    | some o => put { f.eraseRange o (ceilDiv arg 65536 * 65536) with catalogue := AMap.set f.catalogue slot { state := 2, offset := BitVec.ofNat 32 o, length := BitVec.ofNat 32 arg } }
  | 1 => put (f.program (e.offset.toNat + arg) p.payload)
  | 2 =>
    let v := e.verify s.hub.keys f
    if v.verdict != 0 then .error v.verdict
    else .ok (s.modHub (fun h => { h with boot.headerB := !h.boot.headerB, flash := f.writeCatalogue h.boot.headerB (AMap.set f.catalogue slot { v with state := 1 }) }))
  | 3 => .ok (s.modHub (fun h => { h with boot.headerB := !h.boot.headerB, flash := f.writeCatalogue h.boot.headerB (AMap.erase f.catalogue slot) }))
  | 4 =>
    let gen := f.configGen.toNat + 1
    put { f.program (configOffset (!f.configB)) (p.payload.take 4 ++ bytesOfNat 4 gen ++ p.payload.drop 8) with configGen := BitVec.ofNat 32 gen, configB := !f.configB }
  | 5 => .ok (s.modHub (fun h => ({ h with keys.minSecurity := BitVec.ofNat 7 arg } : Hub).reverify))
  | 6 => .ok (s.modHub (fun h => ({ h with keys.batteryKey := (h.keys.source 0).bind (fun k => Config.kwUnwrap k p.payload) } : Hub).reverify))
  | _ => .ok s

end Sys2Proof.Machine
end

