-- ==== Sys2Proof/Machine/Packets.lean ====
section
/-! DEFINITION. Host packets (R414 to R433): reading from the submission ring, the checks of R421, staging, device packets, and what a bell does with the packets that are due (R425 to R430). -/

namespace Sys2Proof.Machine

/-! ### Device packets and vectors (R431, R434) -/

/-- The plot-level change of a raised vector 2, when ERR_EN lets it (R434). -/
def Plot.vector2 (p : Plot) : Plot := if p.host.errEn then { p with counts.vector2 := p.counts.vector2 + 1 } else p

/-- A COMPLETION of a packet (R431) joins the submitting function's backlog; QUIET posts none on success (R417). -/
def State.complete (s : State) (st : Staged) (bell : BitVec 48) (code : Code) : State :=
  if code == 0 && st.p.flags.getLsbD 2 then s
  else
    ({ s with hub.seq := s.hub.seq + 1 } : State).modPlot st.p.fn (fun q => { q with packets.completions := q.packets.completions ++
      [{ type := 0x81, flags := 0, plot := st.p.plot, tag := st.p.tag, bell := bell, param := BitVec.ofNat 64 (code.toNat + 2 ^ 16 * st.type.toNat + 2 ^ 32 * st.unit.toNat), payload := [], irq := st.p.flags.getLsbD 1, seq := s.hub.seq }] })

/-- A refusal (R421, R434): PLT.HOSTERR, the COMPLETION, vector 2. -/
def State.refuse (s : State) (st : Staged) (code : Code) : State :=
  let s := s.modPlot st.p.fn (fun q => (({ q with host.errCode := code, host.errType := st.type, host.errRefused := satAdd q.host.errRefused 1, host.errUnit := st.unit } : Plot).vector2))
  s.complete st 0 code

/-- The packets of a plot that have not taken effect are refused with PLOT_BUSY (R430, R454). -/
def State.refuseStaged (s : State) (fn : Fn) : State :=
  let l := (s.plot fn).packets.staged
  l.foldl (fun s st => s.refuse st 0x1008) (s.modPlot fn (fun p => { p with packets.staged := [] }))

/-! ### Plot space (R313, R427, R428) -/

/-- Units of a plot's space. -/
def State.spaceUnits (s : State) (fn : Fn) : Nat := s.boundCount fn * shareUnits

/-- One 64-byte unit of a payload. -/
def unitOf (bs : List Byte) (k : Nat) : BitVec 512 := BitVec.ofNat 512 (fieldBytes bs (64 * k) 64)

/-- A STATE or REQUEST copy (R427). -/
def State.copyIn (s : State) (fn : Fn) (first : Nat) (bs : List Byte) : State :=
  (List.range (bs.length / 64)).foldl (fun (s : State) k =>
    match s.spaceUnit fn (first + k) with
    | some (ch, u) => s.setChannel ch ((s.channel ch).write u (unitOf bs k) 0)
    | none => s) s

/-- Reads units of plot space: the state with channel counts and repairs, data with bruise bits, and the units found uncorrectable (R331, R428). -/
def State.readUnits (s : State) (fn : Fn) (first n : Nat) : State × List (BitVec 512 × BitVec 8) × List (BitVec 9 × Nat) :=
  (List.range n).foldl (fun (a : State × List (BitVec 512 × BitVec 8) × List (BitVec 9 × Nat)) k =>
    match a.1.spaceUnit fn (first + k) with
    | some (ch, u) =>
      let r := (a.1.channel ch).readUnit u
      (a.1.setChannel ch r.1, a.2.1 ++ [(r.2.1, r.2.2.1)], if r.2.2.2 then a.2.2 ++ [((a.1.channel ch).ordinal, first + k)] else a.2.2)
    | none => a) (s, [], [])

/-- A FETCH reads its units (R428, R430): RESULT and BRUISEMAP join the backlog; uncorrectable units are reported. Answers the payload. -/
def State.fetchNow (s : State) (st : Staged) (bell : BitVec 48) (stopped : Bool) : State × List Byte :=
  let fn := st.p.plot
  let r := s.readUnits fn (fieldOf st.p.param 0 34) (fieldOf st.p.param 34 20 + 1)
  let data := r.2.1.flatMap (fun u => bytesOfNat 64 u.1.toNat)
  let bruised := r.2.1.any (fun u => u.2 != 0)
  let pkt (type : BitVec 8) (payload : List Byte) : DevPacket :=
    { type := type, flags := BitVec.ofNat 8 (8 * b2n stopped + 16 * b2n bruised), plot := fn, tag := st.p.tag, bell := bell, param := st.p.param, payload := payload, irq := st.p.flags.getLsbD 1, seq := s.hub.seq }
  let out := pkt 0x82 data :: (if bruised then [{ pkt 0x83 (r.2.1.map (·.2)) with irq := false, flags := 0 }] else [])
  let s := ({ r.1 with hub.seq := r.1.hub.seq + 1 } : State).modPlot st.p.fn (fun q => { q with packets.results := q.packets.results ++ out })
  (r.2.2.foldl (fun (s : State) u =>
    (s.plotReport fn 0x3005 false (ordinalWord u.1) (BitVec.ofNat 64 u.2) 0).modPlot fn (fun q =>
      if q.run.isOpen then
        { q with run.events := q.run.events ++ [{ code := 0x3005, bell := q.bell.bell, attempt := q.bell.attempt, kind := 1, site := 0, offset := 0xFFFFFFFF, d0 := 0xFFFFFFFF ||| ordinalWord u.1, d1 := BitVec.ofNat 64 u.2 }] }
      else q)) s, data)

/-! ### Packet types (R419, R420) -/

/-- Stage of a packet type at its bell (R426); NOP is taken with the management packets (log entry 29). -/
def typeStage (type : BitVec 8) : Nat :=
  match type.toNat with
  | 4 => 1 | 7 => 2 | 8 => 2 | 9 => 4 | 6 => 5 | 2 => 6 | 3 => 6 | 5 => 7
  | _ => 3

/-- Whether a type is a management packet. -/
def isMgmt (type : BitVec 8) : Bool := 0x20 ≤ type.toNat

/-- Whether a type is a work packet (R419). -/
def isWork (type : BitVec 8) : Bool := 2 ≤ type.toNat && type.toNat ≤ 5

/-- Whether the PARAM bits that a type leaves unassigned are 0, and the operations it names exist (R419, R420, R465, R494, R502, R525). -/
def paramOk (type : BitVec 8) (w : Word) : Bool :=
  let zero (lo : Nat) : Bool := fieldOf w lo (64 - lo) == 0
  let size : Bool := zero 27 && 1 ≤ fieldOf w 0 7 && fieldOf w 0 7 ≤ 64 && 1 ≤ fieldOf w 7 7 && fieldOf w 7 7 ≤ 64 && (!bitOf w 26 || fieldOf w 14 12 == 0)
  match type.toNat with
  | 1 => w == 0
  | 2 => zero 34
  | 3 => zero 34
  | 4 => zero 54
  | 5 => zero 62
  | 6 => true
  | 7 => w == 0
  | 8 => w == 0
  | 9 => zero 4
  | 0x20 => size
  | 0x21 => size
  | 0x22 => w == 0
  | 0x23 => size
  | 0x24 => w == 0
  | 0x25 => zero 42 && fieldOf w 0 10 ≤ 512
  | 0x26 => zero 16
  | 0x27 => zero 35 && fieldOf w 32 2 != 3 && (bitOf w 34 || fieldOf w 0 12 + fieldOf w 12 12 ≤ 4095)
  | 0x28 => zero 54 && fieldOf w 8 4 == 0 && fieldOf w 0 8 != 255 && (!bitOf w 53 || fieldOf w 0 53 == 0)
  | 0x29 => zero 55
  | 0x2A => zero 40 && flashOpOf w ≤ 6
  | _ => false

/-- Check 1 of R421. -/
def headerOk (type : BitVec 8) (p : PacketIn) : Bool :=
  let next := p.flags.getLsbD 0
  (!isMgmt type || p.fn == 0) && p.byte3 == 0 && fieldOf p.flags 3 5 == 0 && fieldOf p.bell 48 16 == 0 && (!next || p.bell == 0) && (!isMgmt type || next) && paramOk type p.param &&
    (type != 6 || (p.payload.drop 2).all (fun b => b == 0))

/-- Whether the module itself is a packet's target (R495). -/
def isModuleType (type : BitVec 8) : Bool := type == 0x29 || type == 0x2A

/-- Check 2 of R421, with R465, R495 and R527. -/
def State.plotOk (s : State) (type : BitVec 8) (p : PacketIn) : Bool :=
  let q := s.plot p.plot
  if isModuleType type then p.plot == 0
  else
    (p.plot == p.fn || p.fn == 0) && (type == 0x20 || q.place.state != 0) && (type != 0x27 || fieldOf p.param 24 8 == p.plot.toNat) &&
      !(q.group.joined && q.group.root != s.system.module && (typeStage type == 2 || typeStage type == 4 || typeStage type == 5 || (0x21 ≤ type.toNat && type.toNat ≤ 0x24)))

/-- Check 3 of R421. -/
def State.lengthOk (s : State) (type : BitVec 8) (p : PacketIn) : Bool :=
  let len := p.length.toNat
  let range (n : Nat) : Bool := fieldOf p.param 0 34 + n ≤ s.spaceUnits p.plot
  match type.toNat with
  | 2 => len % 64 == 0 && 64 ≤ len && len ≤ 4194304 && range (len / 64)
  | 3 => len % 64 == 0 && 64 ≤ len && len ≤ 4194304 && range (len / 64)
  | 4 => len == 0 && range (fieldOf p.param 34 20 + 1)
  | 6 => len == 8
  | 0x28 => if bitOf p.param 53 then len == 0 else len == ceilDiv (2 * fieldOf p.param 24 13) 64 * 64
  | 0x2A => flashLengthOk (flashOpOf p.param) len
  | _ => len == 0

/-! ### The plot as it will stand (R423) -/

/-- The number of the next bell of a plot: one above the running step's, two while that step's bell has rung and waits for a lock-step partner, or the number of its next empty bell (R55, R400, R443). -/
def Plot.nextBell (p : Plot) : Nat := if p.place.state == 3 then p.bell.bell.toNat + (if p.step.rung then 2 else 1) else p.bell.bell.toNat

/-- The bell at which a packet for the next bell takes effect: the one that has rung and still waits when the packet came before it, or changes the plot (R80, R400). -/
def Plot.nextFor (p : Plot) (mgmt : Bool) (acceptedAt : Nat) : Nat :=
  if p.step.rung && (mgmt || acceptedAt < p.step.rungAt) then p.bell.bell.toNat + 1 else p.nextBell

/-- The place of a staged packet in the order of effects: image loads before it, bell, stage. -/
def Plot.order (p : Plot) (st : Staged) : List Nat :=
  if st.p.flags.getLsbD 0 then [p.place.loads, p.nextFor (isMgmt st.type) st.acceptedAt, typeStage st.type] else [st.epoch, st.target.toNat, typeStage st.type]

/-- The effect of one packet accepted earlier, as far as checks 5 to 7 see it (R423). -/
def State.foresee (s : State) (st : Staged) : State :=
  let fn := st.p.plot
  match st.type.toNat with
  | 6 => s.modPlot fn (fun p => { p with place.state := 3 })
  | 7 => s.modPlot fn (fun p => { p with place.state := 2 })
  | 9 =>
    let e := AMap.get {} s.hub.flash.catalogue (fieldOf st.p.param 0 4)
    let p := s.plot fn
    match dimFor e.body p.place.rows.toNat p.place.cols.toNat p.place.originY.toNat p.place.originX.toNat with
    | some d => s.loadBody fn (st.p.param.extractLsb' 0 4) e.body d
    | none => s
  | 0x22 => (s.preemptPlot fn).modPlot fn (fun p => { p with place.state := 6 })
  | 0x23 => (s.mgmtApply st.type st.p).modPlot fn (fun p => { p with place.state := if p.place.hadImage || p.place.state == 2 then 2 else 1 })
  | 0x24 => s.removePlot fn
  | 0x28 => s
  | 0x29 => s
  | 0x2A => match s.flashRun st.p with | .ok t => t | .error _ => s
  | _ => s.mgmtApply st.type st.p

/-- The state that a plot comes to once a save or a restore under way has ended (R450, R451). -/
def Plot.settled (p : Plot) : BitVec 3 := if p.moving.saving then 6 else if p.moving.restoring then (if p.place.hadImage then 2 else 1) else p.place.state

/-- The module as it will stand when a packet of `stage` of a plot takes effect (R423): queued flash operations, then packets for idle bells, then the plot's own packets that come first. -/
def State.foreseen (s : State) (type : BitVec 8) (p : PacketIn) (stage epoch target : Nat) : State :=
  let q := s.plot p.plot
  let mine := (q.packets.staged.filter (fun st => keyLe (q.order st) [epoch, target, stage]))
  let mine := sortBy (fun a b => keyLe (q.order a) (q.order b)) mine
  let ops : List Staged := s.hub.flash.ops.map (fun o => { type := 0x2A, p := o.p, unit := o.unit, acceptedAt := 0, target := 0, epoch := 0 })
  let idle := s.hub.idleStaged.filter (fun st => st.p.plot == p.plot || isModuleType type)
  (ops ++ idle ++ mine).foldl State.foresee (s.modPlot p.plot (fun q => { q with place.state := q.settled }))

/-! ### Checks 5 to 8 (R421, R425, R441) -/

/-- Check 5. -/
def State.imageOk (s : State) (type : BitVec 8) (p : PacketIn) : Bool :=
  if isMgmt type then true
  else if type == 9 then (AMap.get {} s.hub.flash.catalogue (fieldOf p.param 0 4)).state == 1
  else (s.plot p.plot).place.image.isSome

/-- Check 7. -/
def State.check7 (s : State) (type : BitVec 8) (p : PacketIn) : Option Code :=
  if type == 9 then
    let e := AMap.get {} s.hub.flash.catalogue (fieldOf p.param 0 4)
    let q := (s.plot p.plot).place
    if e.verdict != 0 then some e.verdict else s.loadRefusal p.plot e.body q.rows.toNat q.cols.toNat q.originY.toNat q.originX.toNat
  else if type == 0x29 then calendarRefusal p.param
  else if type == 0x2A then s.flashRefusal p
  else s.mgmtRefusal type p

/-- Whether an explicit target bell has rung (R423). -/
def Plot.rung (p : Plot) (epoch target : Nat) : Bool := epoch ≤ p.place.loads && target < p.nextBell

/-- The epoch of an explicit target: after a pending image load when the present numbering has passed it (R443). -/
def Plot.epochFor (p : Plot) (target : Nat) : Nat :=
  if target < p.nextBell && p.packets.staged.any (fun st => st.type == 9) then p.place.loads + 1 else p.place.loads

/-- The refusal of a packet, if any (R421). -/
def State.checkPacket (s : State) (type : BitVec 8) (p : PacketIn) : Option Code :=
  if !headerOk type p then some 0x1001
  else if !s.plotOk type p then some 0x1003
  else if !s.lengthOk type p then some 0x1002
  else if digestOf p.payload != p.digest then some 0x1009
  else
    let q := s.plot p.plot
    let next := p.flags.getLsbD 0
    let target := fieldOf p.bell 0 48
    let epoch := if next then q.place.loads else q.epochFor target
    let at0 := if next then q.nextFor (isMgmt type) s.hub.time else target
    let f := s.foreseen type p (typeStage type) epoch at0
    let after := if isWork type then s.foreseen type p 9 epoch at0 else f
    let st := (f.plot p.plot).stateNow
    if !f.imageOk type p then some 0x1007
    else if isWork type && !((after.plot p.plot).place.state == 3 || (type == 4 && q.place.state == 5)) then some 0x1008
    else if !isWork type && type != 1 && !isModuleType type && !typeAllowed type st then some 0x1008
    else
      match f.check7 type p with
      | some c => some c
      | none => if !next && !(type == 4 && q.place.state == 5) && q.rung epoch target then some 0x1011 else none

/-! ### Acceptance (R423, R424, R442) -/

/-- The staged payload of a plot's channel `o`, in units (R424). -/
def Plot.stagedUnits (p : Plot) (o : Nat) : Nat :=
  ((p.packets.staged.filter (fun st => st.type == 2 || st.type == 3)).map (fun st =>
    let first := fieldOf st.p.param 0 34
    ((List.range (st.p.length.toNat / 64)).filter (fun k => (first + k) / shareUnits == o)).length)).foldl (· + ·) 0

/-- Whether a packet would break a limit of R424 or R433, so that reading pauses. -/
def State.mustPause (s : State) (type : BitVec 8) (p : PacketIn) : Bool :=
  let q := s.plot p.plot
  4096 ≤ (s.plot p.fn).packets.completions.length || 4096 ≤ q.packets.staged.length ||
    ((type == 2 || type == 3) && (List.range (s.boundCount p.plot)).any (fun o =>
      65536 < (({ q with packets.staged := q.packets.staged ++ [{ type := type, p := p, unit := 0, acceptedAt := 0, target := 0, epoch := 0 }] } : Plot).stagedUnits o)))

/-- The open record of a plot closes at a bell or between steps when it holds a step (R355). -/
def State.closeRun (s : State) (fn : Fn) (close : Nat) : State :=
  let p := s.plot fn
  if p.run.isOpen && p.run.blocks != [] then (s.closeRecord fn p.run.blocks close p.bell.bell (s.bellStamp fn)).modPlot fn (fun p => { p with run.blocks := [] }) else s

/-- A plot ends its run (R336). -/
def State.endRun (s : State) (fn : Fn) (close : Nat) : State := (s.closeRun fn close).modPlot fn (fun p => { p with run := p.run.ended })

/-- A plot that is to be pre-empted or reset ends its run with CLOSE 4; a refused record stops it first where REQUIRE_SIGNED says so (R355, R364, R454). -/
def State.quitRun (s : State) (fn : Fn) : State :=
  let t := s.closeRun fn 4
  let u := t.modPlot fn (fun p => { p with run := p.run.ended })
  if t.recordRefused s fn then u.modPlot fn (fun p => ({ p with place.state := 5, bell.stopped := true, bell.held := false, faults.stopCode := 0x5005, step := p.step.fresh } : Plot).vector2) else u

/-- PLOT_RESET takes effect (R454); after an FLR its reports go to function 0 (R437). -/
def State.resetPlot (s : State) (fn : Fn) : State :=
  let flr := (s.plot fn).moving.flr
  let s := (s.quitRun fn).refuseStaged fn
  let q := (s.plot fn).faults.queue
  let s := if flr && fn != 0 then (s.modPlot fn (fun p => { p with faults.queue := [] })).modPlot 0 (fun p => { p with faults := q.foldl FaultState.enqueue p.faults }) else s
  s.removePlot fn

/-- One management packet takes effect at bell number `b`, its checks 3, 5 and 7 made again; the code of its COMPLETION, none while a join waits (R423, R426). -/
def State.takeMgmt (s : State) (st : Staged) : State × Option Code :=
  let fn := st.p.plot
  if st.type == 0x23 && ((s.plot fn).moving.saving || (s.plot fn).moving.restoring) then (s, some 0x1008)
  else if !isModuleType st.type && st.type != 1 && !typeAllowed st.type (s.plot fn).stateNow then (s, some 0x1008)
  else
    match s.check7 st.type st.p with
    | some c => (s, some c)
    | none =>
      match st.type.toNat with
      | 1 => (s, some 0)
      | 0x22 => ((s.quitRun fn).preemptPlot fn, some 0)
      | 0x24 => (s.resetPlot fn, some 0)
      | 0x28 => if bitOf st.p.param 53 then (s.leavePlot fn, some 0) else (s.joinPlot fn st, none)
      | 0x29 => (s.modHub (fun h => { h with battery := h.battery.setCalendar st.p.param (h.time - st.acceptedAt) }), some 0)
      | 0x2A => (s.modHub (fun h => { h with flash.ops := h.flash.ops ++ [{ op := BitVec.ofNat 4 (flashOpOf st.p.param), p := st.p, unit := st.unit, bell := h.idleBell }] }), none)
      | _ => (s.mgmtApply st.type st.p, some 0)

/-- LOAD_IMAGE at stage 4 (R493): the container is read and authenticated again. -/
def State.takeLoad (s : State) (st : Staged) : State × Option Code :=
  let fn := st.p.plot
  match s.check7 st.type st.p with
  | some c => (s, some c)
  | none =>
    let slot : BitVec 4 := st.p.param.extractLsb' 0 4
    let e := AMap.get {} s.hub.flash.catalogue slot.toNat
    match openContainer s.hub.keys (s.hub.flash.read e.offset.toNat e.length.toNat) with
    | .error c =>
      let cs := (s.plot fn).cores
      let s := ((s.leaveCores cs).releaseChannels fn).joinCores fn cs
      (s.modPlot fn (fun p => { p with place.state := 1, place.image := none, place.foot := 0, place.imageBody := [] }), some c)
    | .ok body =>
      let p := (s.plot fn).place
      match dimFor body p.rows.toNat p.cols.toNat p.originY.toNat p.originX.toNat with
      | none => (s, some 0x100B)
      | some d => (s.loadBody fn slot body d, some 0)

/-! ### Start-up plots (R476, R479, R485) -/

/-- A packet of a START entry is taken as its function would send it, with the same checks (R485): the state, or the refusal code. -/
def State.takeStart (s : State) (type : BitVec 8) (fn : Fn) (param : Word) : Except Code State :=
  let p : PacketIn := { fn := 0, flags := 1, plot := fn, byte3 := 0, length := 0, tag := 0, bell := 0, param := param, digest := digestOf [], payload := [] }
  let st : Staged := { type := type, p := p, unit := 0, acceptedAt := s.hub.time, target := 0, epoch := 0 }
  if !headerOk type p then .error 0x1001
  else if !s.plotOk type p then .error 0x1003
  else if !s.imageOk type p then .error 0x1007
  else if !typeAllowed type (s.plot fn).stateNow then .error 0x1008
  else
    let r := if type == 9 then s.takeLoad st else s.takeMgmt st
    match r.2 with
    | some c => if c == 0 then .ok r.1 else .error c
    | none => .ok r.1

/-- The four packets of a START entry in order: what stands, and the first refusal (R476, R485). -/
def State.startPlot (s : State) (e : StartEntry) : State × Option Code :=
  let run (a : State × Option Code) (type : BitVec 8) (param : Word) : State × Option Code :=
    match a.2 with
    | some _ => a
    | none => match a.1.takeStart type e.fn param with | .ok t => (t, none) | .error c => (a.1, some c)
  run (run (run (run (s, none) 0x20 e.create) 0x25 e.quota) 0x26 (e.budget.setWidth 64)) 0x09 (e.slot.setWidth 64)

/-- Phase 6, and its repetition after a reset of the host link (R476, R479): the start-up plots in order; a failure is logged. HUB.BOOTSTAT counts those of phase 6. -/
def State.loadStarts (s : State) (count : Bool) : State :=
  let tally (s : State) (good : Bool) : State :=
    s.modHub (fun h => if !count then h else if good then { h with boot.plotsLoaded := h.boot.plotsLoaded + 1 } else { h with boot.plotsFailed := h.boot.plotsFailed + 1 })
  s.hub.flash.start.foldl (fun (s : State) e =>
    let r := s.startPlot e
    match r.2 with
    | none => tally r.1 true
    | some c => (tally r.1 false).logReport c 0 0 0) s

/-- COMPLETION or refusal of a packet that was taken at bell `b`. -/
def State.settle (s : State) (st : Staged) (b : BitVec 48) (code : Option Code) : State :=
  match code with
  | none => s
  | some c => if c == 0 then s.complete st b 0 else s.refuse st c

/-- The packets that a group takes on the function of its domain root module (R527). -/
def isGroupType (type : BitVec 8) : Bool := [0x06, 0x07, 0x08, 0x09, 0x21, 0x22, 0x23, 0x24].contains type.toNat

/-- The domain root module carries a group packet to the members in CONTROL words (R527). The spec gives no packing: one word stands for them, its content a free value (log entry 40). -/
def State.carryPacket (s : State) (st : Staged) : State :=
  let p := s.plot st.p.plot
  if !p.group.joined || !isGroupType st.type then s
  else (s.groupSend p.group.groupId (bellWord 6 p.group.groupId p.bell.bell.toNat (Config.freeWord s.hub.seq).toNat)).modHub (fun h => { h with seq := h.seq + 1 })

/-- An accepted packet is staged, or acts at once: a FETCH of a stopped plot (R430), a management packet of a held plot (R80, R442). -/
def State.acceptPacket (s : State) (st : Staged) : State :=
  let q := s.plot st.p.plot
  if st.type == 4 && q.place.state == 5 then (s.fetchNow st q.bell.bell true).1
  else if isModuleType st.type || (isMgmt st.type && (q.place.state == 0 || q.place.state == 5 || q.place.state == 6 || q.moving.saving)) then s.modHub (fun h => { h with idleStaged := h.idleStaged ++ [st] })
  else if isMgmt st.type && q.stateNow == 4 && !q.step.rung then
    let r := s.takeMgmt st
    r.1.settle st q.bell.bell r.2
  else s.modPlot st.p.plot (fun p => { p with packets.staged := p.packets.staged ++ [st] })

/-- Whether a function's submission ring is being read (R415, R422, R433, R438, R473). -/
def State.reading (s : State) (fn : Fn) : Bool :=
  let q := s.plot fn
  q.sq.enable && !q.sq.halted && s.hub.pins.pcieUp && 4 ≤ s.hub.boot.phase.toNat && !q.counts.readPaused

/-- Units of a packet (R418). -/
def packetUnits (p : PacketIn) : Nat := 1 + ceilDiv p.length.toNat 64

/-- The device reads the packet at SQHEAD (R418 to R424): it waits for the packet's units, pauses, halts on framing, refuses or accepts. -/
def State.readPacket (s : State) (type : BitVec 8) (p0 : PacketIn) : State :=
  let q := s.plot p0.fn
  let avail := (q.sq.tail - q.sq.head).toNat
  let p : PacketIn := { p0 with payload := sliceBytes p0.payload 0 p0.length.toNat }
  let st : Staged := { type := type, p := p, unit := q.sq.head, acceptedAt := s.hub.time, target := p.bell.setWidth 48, epoch := (s.plot p.plot).epochFor (fieldOf p.bell 0 48) }
  if !s.reading p.fn || avail = 0 then s
  else if 2 ^ q.sq.logsize.toNat - 1 < packetUnits p0 - 1 then
    (s.refuse st 0x1002).modPlot p.fn (fun q => ({ q with sq.halted := true, sq.cause := 1 } : Plot).vector2)
  else if avail < packetUnits p0 then s
  else if s.mustPause type p then s.modPlot p.fn (fun q => { q with counts.readPaused := true })
  else
    let s := s.modPlot p.fn (fun q => { q with sq.head := q.sq.head + BitVec.ofNat 32 (packetUnits p0) })
    match s.checkPacket type p with
    | some c => s.refuse st c
    | none => (s.carryPacket st).acceptPacket st

/-- NOP (R419). -/
def execNop (p : PacketIn) (s : State) : Host.Outcome State Fault Refusal := .next (s.readPacket 0x01 p)
/-- STATE (R419, R427). -/
def execState (p : PacketIn) (s : State) : Host.Outcome State Fault Refusal := .next (s.readPacket 0x02 p)
/-- REQUEST (R419, R427). -/
def execRequest (p : PacketIn) (s : State) : Host.Outcome State Fault Refusal := .next (s.readPacket 0x03 p)
/-- FETCH (R419, R428). -/
def execFetch (p : PacketIn) (s : State) : Host.Outcome State Fault Refusal := .next (s.readPacket 0x04 p)
/-- STEPARG (R321, R419). -/
def execSteparg (p : PacketIn) (s : State) : Host.Outcome State Fault Refusal := .next (s.readPacket 0x05 p)
/-- RUN_START (R336, R419). -/
def execRunStart (p : PacketIn) (s : State) : Host.Outcome State Fault Refusal := .next (s.readPacket 0x06 p)
/-- RUN_END (R336, R419). -/
def execRunEnd (p : PacketIn) (s : State) : Host.Outcome State Fault Refusal := .next (s.readPacket 0x07 p)
/-- RECORD_CLOSE (R355, R419). -/
def execRecordClose (p : PacketIn) (s : State) : Host.Outcome State Fault Refusal := .next (s.readPacket 0x08 p)
/-- LOAD_IMAGE (R419, R493). -/
def execLoadImage (p : PacketIn) (s : State) : Host.Outcome State Fault Refusal := .next (s.readPacket 0x09 p)
/-- PLOT_CREATE (R420, R444). -/
def execPlotCreate (p : PacketIn) (s : State) : Host.Outcome State Fault Refusal := .next (s.readPacket 0x20 p)
/-- PLOT_RESIZE (R420, R447). -/
def execPlotResize (p : PacketIn) (s : State) : Host.Outcome State Fault Refusal := .next (s.readPacket 0x21 p)
/-- PLOT_PREEMPT (R420, R450). -/
def execPlotPreempt (p : PacketIn) (s : State) : Host.Outcome State Fault Refusal := .next (s.readPacket 0x22 p)
/-- PLOT_RESUME (R420, R451). -/
def execPlotResume (p : PacketIn) (s : State) : Host.Outcome State Fault Refusal := .next (s.readPacket 0x23 p)
/-- PLOT_RESET (R420, R454). -/
def execPlotReset (p : PacketIn) (s : State) : Host.Outcome State Fault Refusal := .next (s.readPacket 0x24 p)
/-- QUOTA (R420, R457). -/
def execQuota (p : PacketIn) (s : State) : Host.Outcome State Fault Refusal := .next (s.readPacket 0x25 p)
/-- BUDGET (R420, R460). -/
def execBudget (p : PacketIn) (s : State) : Host.Outcome State Fault Refusal := .next (s.readPacket 0x26 p)

/-- A packet of a row that its PARAM names beside its TYPE: the row's own bits are set in the PARAM that the ring holds (log entry 30). -/
def withParam (p : PacketIn) (lo len v : Nat) : PacketIn :=
  { p with param := (p.param &&& ~~~(BitVec.ofNat 64 ((2 ^ len - 1) * 2 ^ lo))) ||| BitVec.ofNat 64 (v * 2 ^ lo) }

/-- COMMONS operation 0 (R465). -/
def execCommonsAssign (p : PacketIn) (s : State) : Host.Outcome State Fault Refusal := .next (s.readPacket 0x27 (withParam p 32 2 0))
/-- COMMONS operation 1 (R465). -/
def execCommonsGrant (p : PacketIn) (s : State) : Host.Outcome State Fault Refusal := .next (s.readPacket 0x27 (withParam p 32 2 1))
/-- COMMONS operation 2 (R465). -/
def execCommonsRevoke (p : PacketIn) (s : State) : Host.Outcome State Fault Refusal := .next (s.readPacket 0x27 (withParam p 32 2 2))
/-- PLOT_JOIN (R525, R526). -/
def execPlotJoin (p : PacketIn) (s : State) : Host.Outcome State Fault Refusal := .next (s.readPacket 0x28 (withParam p 53 1 0))
/-- PLOT_JOIN with LEAVE (R525). -/
def execPlotLeave (p : PacketIn) (s : State) : Host.Outcome State Fault Refusal := .next (s.readPacket 0x28 (withParam p 53 1 1))
/-- CALENDAR (R502). -/
def execCalendar (p : PacketIn) (s : State) : Host.Outcome State Fault Refusal := .next (s.readPacket 0x29 p)
/-- FLASH BEGIN (R494). -/
def execFlashBegin (p : PacketIn) (s : State) : Host.Outcome State Fault Refusal := .next (s.readPacket 0x2A (withParam p 4 4 0))
/-- FLASH WRITE (R494). -/
def execFlashWrite (p : PacketIn) (s : State) : Host.Outcome State Fault Refusal := .next (s.readPacket 0x2A (withParam p 4 4 1))
/-- FLASH COMMIT (R494). -/
def execFlashCommit (p : PacketIn) (s : State) : Host.Outcome State Fault Refusal := .next (s.readPacket 0x2A (withParam p 4 4 2))
/-- FLASH DELETE (R494). -/
def execFlashDelete (p : PacketIn) (s : State) : Host.Outcome State Fault Refusal := .next (s.readPacket 0x2A (withParam p 4 4 3))
/-- FLASH CONFIG (R494). -/
def execFlashConfig (p : PacketIn) (s : State) : Host.Outcome State Fault Refusal := .next (s.readPacket 0x2A (withParam p 4 4 4))
/-- FLASH RAISE (R494). -/
def execFlashRaise (p : PacketIn) (s : State) : Host.Outcome State Fault Refusal := .next (s.readPacket 0x2A (withParam p 4 4 5))
/-- FLASH KEYLOAD (R497). -/
def execFlashKeyload (p : PacketIn) (s : State) : Host.Outcome State Fault Refusal := .next (s.readPacket 0x2A (withParam p 4 4 6))

/-- FLASH_OP_DONE (R495): the oldest queued operation ends with its COMPLETION; the checks of its turn are made again. -/
def execFlashOpDone (s : State) : Host.Outcome State Fault Refusal :=
  match s.hub.flash.ops with
  | [] => .next s
  | o :: rest =>
    let st : Staged := { type := 0x2A, p := o.p, unit := o.unit, acceptedAt := 0, target := 0, epoch := 0 }
    let s := s.modHub (fun h => { h with flash.ops := rest })
    match s.flashRefusal o.p with
    | some c => .next (s.refuse st c)
    | none =>
      match s.flashRun o.p with
      | .ok t => .next (t.complete st o.bell 0)
      | .error c => .next (s.refuse st c)

end Sys2Proof.Machine
end

