-- ==== Sys2Proof/Machine/Groups.lean ====
section
/-! DEFINITION. Plot groups across modules as this module sees them (R516, R519 to R524): bell words sent toward the root and down the branches, arrivals of a subtree, the epoch that the root fixes, edges at the root. -/

namespace Sys2Proof.Machine

/-- Every plot of the module, in ascending order. -/
def State.plotNumbers (s : State) : List Fn := s.plots.map (fun p => BitVec.ofNat 8 p.1)

/-! ### Sending (R510, R520, R524) -/

/-- The ports of this module's children that are up. -/
def State.childPorts (s : State) : List PortId := ((List.range 16).map (BitVec.ofNat 4)).filter (fun p => (s.port p).isUp && (s.port p).role == 2)

/-- A word for the whole system goes to every child (R516). -/
def State.sendAll (s : State) (w : Word) : State := s.childPorts.foldl (fun (s : State) p => s.sendWord p w) s

/-! ### Bell words (R519) -/

/-- KIND of a bell word. -/
def wordKind (w : Word) : Nat := fieldOf w 0 4
/-- GROUP of a bell word. -/
def wordGroup (w : Word) : BitVec 8 := w.extractLsb' 4 8
/-- BELL of a bell word. -/
def wordBell (w : Word) : Nat := fieldOf w 12 12
/-- VALUE of a bell word. -/
def wordValue (w : Word) : Nat := fieldOf w 24 40

/-- The full system time nearest `now` with the given low 40 bits (R519). -/
def nearestTime (now low : Nat) : Nat :=
  let t := now / 2 ^ 40 * 2 ^ 40 + low
  if t + 2 ^ 39 < now then t + 2 ^ 40 else if now + 2 ^ 39 < t && 2 ^ 40 ≤ t then t - 2 ^ 40 else t

/-! ### Arrivals and the epoch (R520, R523) -/

/-- This module's plot in a group, joined or confirmed. -/
def State.groupPlot (s : State) (g : BitVec 8) : Option Fn :=
  s.plotNumbers.find? (fun fn => let k := (s.plot fn).group; (k.joined || k.confirmed) && k.groupId == g)

/-- The number of the group bell that this module's member rings next. -/
def Plot.groupBell (p : Plot) : Nat := p.nextBell

/-- Whether this module's own member of a group has arrived; a member in which no step runs has. -/
def State.selfArrived (s : State) (g : BitVec 8) : Bool :=
  match s.groupPlot g with
  | none => true
  | some fn => let p := s.plot fn; p.step.phase == .arrived || p.place.state == 1 || p.place.state == 2

/-- Whether every member in this module's subtree has arrived at bell `b` (R520). -/
def State.subtreeArrived (s : State) (g : BitVec 8) (b : Nat) : Bool :=
  s.selfArrived g && (s.branchesOf g).all (fun p => s.system.arrivedWords.contains (g, BitVec.ofNat 12 b, p))

/-- The group's margin in hc (R520): the largest down delay to a member plus 8. The delays beyond this module's own links are constants of the cabling (log entry 41). -/
def State.groupMargin (s : State) (g : BitVec 8) : Nat :=
  let down (p : PortId) : Nat := ceilDiv (s.port p).delay.toNat 8 + Config.farDelay g (s.port p).neighbour
  ((s.branchesOf g).map down).foldl max 0 + 8

/-- What the root keeps of a group. -/
def State.domain (s : State) (g : BitVec 8) : GroupDomain := AMap.get {} s.system.domains g.toNat

/-- Changes what the root keeps of a group. -/
def State.setDomain (s : State) (g : BitVec 8) (d : GroupDomain) : State := { s with system := { s.system with domains := AMap.put {} s.system.domains g.toNat d } }

/-- The root fixes the epoch of a group bell and sends RING down every branch that holds a member (R520); the edge that it held is used up (R60). -/
def State.fixEpoch (s : State) (g : BitVec 8) (b : Nat) : State :=
  let m := s.groupMargin g
  let e := s.system.stime.toNat + m
  let s := s.sendDown g (bellWord 3 g b e)
  let d := s.domain g
  let s := s.setDomain g { d with arrived := none, epochs := d.epochs + 1, lastEpoch := some (s.hub.time + m) }
  let s : State := { s with system := { s.system with arrivedWords := s.system.arrivedWords.filter (fun a => !(a.1 == g && a.2.1.toNat == b % 4096)), edges := s.system.edges.filter (fun x => x.1 != g) } }
  match s.groupPlot g with
  | none => s
  | some fn => s.modPlot fn (fun p => { p with step.epoch := some e })

/-- The moment from which a bell may ring: 2 hc after the last arrival, and 2,000 hc after the last bell (R52, R57). -/
def bellMoment (lastArrival : Nat) (lastBell : Option Nat) : Nat := max (lastArrival + 2) (match lastBell with | some b => b + 2000 | none => 0)

/-- The moment from which a domain's bell may ring. -/
def StepState.moment (p : StepState) : Nat := bellMoment p.lastArrival (if p.everRung then some p.lastBell else none)

/-- Frame mode of a PLT.BELLCTL value (R62). -/
def frameMode (ctl : Word) : Bool := fieldOf ctl 0 2 == 1

/-- WINDOW of a PLT.BELLCTL value in hc (R62). -/
def windowHc (ctl : Word) : Nat := 1000 * fieldOf ctl 16 12

/-- Frame mode of a plot. -/
def BellState.frame (b : BellState) : Bool := frameMode b.ctlUse

/-- WINDOW in hc. -/
def BellState.window (b : BellState) : Nat := windowHc b.ctlUse

/-- Whether a bell may ring at time `t` other than at the end of a window (R61). -/
def ringsAt (ctl : Word) (moment : Nat) (latch : Option Nat) (t : Nat) : Bool :=
  moment ≤ t && (!frameMode ctl || (match latch with | some e => e ≤ moment + windowHc ctl | none => false))

/-- Whether the hold window of a bell has ended without an edge at time `t` (R61). -/
def windowOver (ctl : Word) (moment : Nat) (latch : Option Nat) (t : Nat) : Bool :=
  frameMode ctl && moment + windowHc ctl ≤ t && (match latch with | some e => moment + windowHc ctl < e | none => true)

/-- Whether a plot's bell may ring at time `t` other than at the end of a window (R61). -/
def Plot.mayRing (p : Plot) (t : Nat) : Bool := ringsAt p.bell.ctlUse p.step.moment p.bell.latch t

/-- Whether a plot's hold window has ended without an edge (R61). -/
def Plot.windowOver (p : Plot) (t : Nat) : Bool := Sys2Proof.Machine.windowOver p.bell.ctlUse p.step.moment p.bell.latch t

/-- What the ringing of a bell in frame mode counts and records (R61, R63, R64, R361): SYNC_LATE with the end of its window, or FRAME_SLIP with its edge for one latched no later than the last arrival. The latch is emptied. -/
def Plot.ringEvents (p : Plot) (late : Bool) (now : Nat) (lateStamp : Word) : Plot × List EventEntry :=
  let e (code : Code) (stamp : Word) : EventEntry := { code := code, bell := p.bell.bell + 1, attempt := 0, kind := 0, site := 0, offset := 0xFFFFFFFF, d0 := stamp, d1 := 0 }
  let q : Plot := { p with bell.latch := none }
  if !p.bell.frame then (p, [])
  else if late then ({ q with bell.late := satAdd p.bell.late 1, bell.lastLate := some now }, [e 0x4005 lateStamp])
  else if (p.bell.latch.getD 0) ≤ p.step.lastArrival then ({ q with bell.slip := satAdd p.bell.slip 1 }, [e 0x0001 p.bell.latchStamp])
  else (q, [])

/-- HUB.STIME as a timestamp (R523). -/
def State.systemStamp (s : State) : Word := s.system.stime.setWidth 64

/-- The domain root's member of a group where it is in this module (R523). -/
def State.rootPlot (s : State) (g : BitVec 8) : Option Fn := (s.groupPlot g).filter (fun fn => (s.plot fn).group.root == s.system.module)

/-- Whether this module's member of a group runs no step, so that the group's bell is an empty one (R443). -/
def State.emptyGroup (s : State) (g : BitVec 8) : Bool :=
  match s.groupPlot g with
  | some fn => (s.plot fn).place.state == 1 || (s.plot fn).place.state == 2
  | none => false

/-- The PLT.BELLCTL that the root applies to a group's bell (R523): that of the domain root's member, in another module a free value of each bell (log entry 42). An empty bell awaits no edge (R443). -/
def State.groupCtl (s : State) (g : BitVec 8) : Word :=
  if s.emptyGroup g then 0
  else
    match s.rootPlot g with
    | some fn => (s.plot fn).bell.ctlUse
    | none => Config.farBellCtl g (s.domain g).epochs

/-- The moment from which the root could fix a group's epoch, once every member has arrived (R523). -/
def State.groupMoment (s : State) (g : BitVec 8) : Option Nat :=
  match s.groupPlot g with
  | some fn => if (s.plot fn).step.epoch.isSome then none else some (s.plot fn).step.moment
  | none => (s.domain g).arrived.map (fun a => bellMoment a (s.domain g).lastEpoch)

/-- The edge that the root holds for a group (R523): in the latch of the domain root's member, or as it came in an EDGE word. -/
def State.groupLatch (s : State) (g : BitVec 8) : Option Nat :=
  match s.rootPlot g with
  | some fn => (s.plot fn).bell.latch
  | none => (s.system.edges.find? (fun e => e.1 == g)).map (·.2)

/-- At the root, with every member arrived, the epoch is fixed once R61 lets the bell ring, or at the end of its window (R520, R523). What the domain root's member counts is counted here when it is the root's own. -/
def State.tryEpoch (s : State) (g : BitVec 8) (b : Nat) : State :=
  match s.groupMoment g with
  | none => s
  | some m =>
    let late := windowOver (s.groupCtl g) m (s.groupLatch g) s.hub.time
    if !late && !ringsAt (s.groupCtl g) m (s.groupLatch g) s.hub.time then s
    else
      match s.rootPlot g with
      | some fn =>
        let p := s.plot fn
        let q := if s.emptyGroup g then (p, []) else p.ringEvents late s.hub.time s.systemStamp
        (s.setPlot fn { q.1 with bell.latch := p.bell.latch, step.ringEvents := q.2 }).fixEpoch g b
      | none => s.fixEpoch g b

/-- An arrival of a group bell is registered or comes in: with the subtree complete, ARRIVE goes toward the root, or the root applies the bell mode (R520). -/
def State.afterArrival (s : State) (g : BitVec 8) (b : Nat) : State :=
  if !s.subtreeArrived g b then s
  else if s.system.root then
    let s := match s.groupPlot g with
      | some fn => s.modPlot fn (fun p => { p with step.lastArrival := s.hub.time })
      | none => s.setDomain g { s.domain g with arrived := some s.hub.time, bell := b }
    s.tryEpoch g b
  else s.sendWord 0 (bellWord 1 g b 0)

/-- An edge of a group reaches the root (R64, R523): it fills the group's latch, with its system time `t`, unless that is full. -/
def State.groupEdge (s : State) (g : BitVec 8) (b t : Nat) : State :=
  if (s.groupLatch g).isSome then s
  else
    let s := match s.rootPlot g with
      | some fn => s.modPlot fn (fun p => { p with bell.latch := some s.hub.time, bell.latchStamp := BitVec.ofNat 64 t })
      | none => { s with system := { s.system with edges := s.system.edges ++ [(g, s.hub.time)] } }
    if s.subtreeArrived g b then s.tryEpoch g b else s

/-- What a member's own bell logic counts and records when the group's bell rings (R60, R63, R523): at the root what it judged when it fixed the epoch; in a domain root module below it, SYNC_LATE when no edge was accepted, at a time that it is not told, and FRAME_SLIP as the root found (log entry 42); elsewhere nothing. The latch is emptied. -/
def Plot.epochEvents (p : Plot) (root here : Bool) (now : Nat) (free : Word) : Plot × List EventEntry :=
  let q : Plot := { p with step.epoch := none, bell.latch := if p.bell.frame then none else p.bell.latch }
  let e (code : Code) (stamp : Word) : EventEntry := { code := code, bell := p.bell.bell + 1, attempt := 0, kind := 0, site := 0, offset := 0xFFFFFFFF, d0 := stamp, d1 := 0 }
  if root then (q, p.step.ringEvents)
  else if !here || !p.bell.frame then (q, [])
  else if p.bell.latch.isNone then ({ q with bell.late := satAdd p.bell.late 1, bell.lastLate := some now }, [e 0x4005 free])
  else if Config.farSlip p.group.groupId p.bell.rungs then ({ q with bell.slip := satAdd p.bell.slip 1 }, [e 0x0001 p.bell.latchStamp])
  else (q, [])

/-- The groups in which the root holds no member: those that wait for their bell get their epoch when it is due (R523). -/
def State.tryDomains (s : State) : State :=
  if !s.system.root then s
  else s.system.domains.foldl (fun (s : State) d => let g : BitVec 8 := BitVec.ofNat 8 d.1; if (s.groupPlot g).isNone then s.tryEpoch g d.2.bell else s) s

end Sys2Proof.Machine
end

