-- ==== Sys2Proof/Machine/Ceilings.lean ====
section
/-! DEFINITION. The ceilings of the field oscillators and VSET (R42, R65, R69, R539, R540, R555). -/

namespace Sys2Proof.Machine

/-- The eight fields. -/
def allFields : List FieldId := (List.range 8).map (BitVec.ofNat 3)

/-- The plots with cores in a field. -/
def State.plotsIn (s : State) (f : FieldId) : List Fn := s.plotNumbers.filter (fun fn => (s.plot fn).fieldList.contains f.toNat)

/-- Whether an attempt runs that a fault found now belongs to: its bell has not rung (R43). -/
def StepState.attempting (t : StepState) : Bool := t.phase == .running || (t.phase == .arrived && !t.rung)

/-- Whether a plot is inside a step, its bell and a lock-step wait included. -/
def StepState.inside (t : StepState) : Bool := t.phase != .idle && t.phase != .held

/-- Whether a plot with cores in the field is inside a step, so that a change of the field's ceiling waits (R42). -/
def State.stepsIn (s : State) (f : FieldId) : Bool := (s.plotsIn f).any (fun fn => (s.plot fn).step.inside)

/-- The limits whose cuts lower the ceiling at once (R69, R539, R555). -/
def Field.urgent (f : Field) : Nat := min f.droopCeil.toNat (min f.stackCeil.toNat f.thermCeil.toNat)

/-- The lowest of a field's limits: those, the reeve's, and that of R540. -/
def Field.limit (f : Field) : Nat := min f.urgent (min f.reeveCeil.toNat f.powerCeil.toNat)

/-- The point of the fused table of R539 for a ceiling: 1,100 MHz + 100 MHz * k, rounded up. -/
def ceilPoint (mhz : Nat) : Nat := ceilDiv (mhz - 1100) 100

/-- VSET follows the highest ceiling of any field, a ceiling that is to rise included (R539). -/
def State.driveVset (s : State) : State :=
  let to_ (m : AMap (BitVec 11)) (f : FieldId) : Nat := (AMap.get 0 m f.toNat).toNat
  let top := (allFields.map (fun f => max (s.field f).ceiling.toNat (max (to_ s.hub.power.pendingRise f) (to_ s.hub.power.settledRise f)))).foldl max 1100
  s.modHub (fun h => { h with power.vset := Config.vsetCode (ceilPoint top) })

/-- A field's limits have changed (R42, R539): a cut of R69 or R555 lowers the ceiling at once; another fall waits while a plot of the field is inside a step; a rise waits for VSET. -/
def State.setCeiling (s : State) (f : FieldId) : State :=
  let k := s.field f
  let t := k.limit
  let now := min k.ceiling.toNat (if s.stepsIn f then k.urgent else t)
  let s := s.setField f { k with ceiling := BitVec.ofNat 11 now }
  (s.modHub (fun h =>
    if t ≤ now then { h with power.pendingRise := AMap.erase h.power.pendingRise f.toNat, power.settledRise := AMap.erase h.power.settledRise f.toNat }
    else if t ≤ (AMap.get 0 h.power.settledRise f.toNat).toNat then h
    else { h with power.pendingRise := AMap.put 0 h.power.pendingRise f.toNat (BitVec.ofNat 11 t) })).driveVset

/-- A field's waiting changes take effect: a settled rise, then every limit. -/
def State.takeCeiling (s : State) (f : FieldId) : State :=
  let k := s.field f
  let c := min (max k.ceiling.toNat (AMap.get 0 s.hub.power.settledRise f.toNat).toNat) k.limit
  ((s.setField f { k with ceiling := BitVec.ofNat 11 c }).modHub (fun h => { h with power.settledRise := AMap.erase h.power.settledRise f.toNat })).driveVset

/-- At a bell, restart or stop of a plot the waiting ceilings of its fields take effect; the first plot of a field to reach one lets them (R42, log entry 113). -/
def State.takeCeilings (s : State) (fn : Fn) : State :=
  (s.plot fn).fieldList.foldl (fun (s : State) f =>
    let i : FieldId := BitVec.ofNat 3 f
    if (s.field i).ceiling.toNat = (s.field i).limit then s else s.takeCeiling i) s

/-- VSET_SETTLED (R42, R539): the ceilings that wait for VSET rise, in a field with a plot inside a step at that plot's next bell or restart. -/
def execVsetSettled (s : State) : Host.Outcome State Fault Refusal :=
  let s := s.modHub (fun h => { h with power.settledRise := h.power.pendingRise.foldl (fun m r => AMap.set m r.1 r.2) h.power.settledRise, power.pendingRise := [] })
  .next (allFields.foldl (fun (s : State) f => if (AMap.find s.hub.power.settledRise f.toNat).isNone || s.stepsIn f then s else s.takeCeiling f) s)

end Sys2Proof.Machine
end

