-- ==== Sys2Proof/Machine/Bells.lean ====
section
/-! DEFINITION. The bell of a domain (R42 to R44, R48 to R64): commit, abandon, stop, the packets of a bell, holds, release; and the commands of bells, edges and step limits. -/

namespace Sys2Proof.Machine

/-! ### The cores at a bell (R205, R211, R268, R345, R383 to R385) -/

/-- The offset-0 state of a core's step (R209, R402). -/
def CoreState.beginStep (c : CoreState) : CoreState :=
  { c with
    step := { main := { next := c.work.entry.mainNext.toNat }, fill := { next := c.work.entry.fillNext.toNat, stopped := !c.work.entry.fillEn } }
    traffic := {}
    totals := {} }

/-- Drains still on their way go back to the front of their queues (R281, log entry 24). -/
def CoreState.returnDrains (c : CoreState) : CoreState :=
  { c with work.queues := c.traffic.drains.foldr (fun d m => AMap.put [] m d.ring.toNat ({ e := d.e, unit := d.unit } :: AMap.get [] m d.ring.toNat)) c.work.queues, traffic.drains := [] }

/-- A core commits (R205, R211, R345, R383): bell-time changes of its own, then its bell image. WCHECK keeps the attempt's fold until the next release. -/
def CoreState.commitStep (c : CoreState) : CoreState :=
  let c := c.returnDrains
  let c := if (c.readS 23).getLsbD 63 then c else (c.setDseq 0 0).setDseq 1 0
  let c := if (c.readS 31).getLsbD 63 then c else c.setDseq 2 0
  let w := { c.work with
    entry.mainNext := c.traffic.snextMain.getD c.work.entry.mainNext
    entry.fillNext := c.traffic.snextFill.getD c.work.entry.fillNext
    own := c.traffic.sown.foldl (fun m o => AMap.put 0 m o.1 o.2) c.work.own }
  { c with work := w, image := w, step := {}, traffic := {}, totals := { wcheck := c.totals.wcheck } }

/-- A core goes back to its bell image (R383, R385). Counters that no rule restores keep what they have. -/
def CoreState.restoreStep (c : CoreState) : CoreState :=
  { c with work := c.image, step := {}, traffic := {}, totals := { wcheck := c.totals.wcheck } }

/-- A channel at a committing bell: the journal is empty, firing counts start again (R316, R327). -/
def Channel.commitStep (k : Channel) : Channel := { k with journal := [], fired := [], failedFirings := [], stalledInStep := false, stalled := false }

/-- A journal entry is written back (R328); one that cannot be read is restored with every bruise bit set (R333). -/
def Channel.restoreUnit (k : Channel) (j : JournalEntry) : Channel :=
  let bad := j.damage == .uncorrectable
  let w := k.write j.unit j.data (if bad then 0xFF else j.bruise)
  { w with damage := AMap.put .sound w.damage j.unit (if bad then .sound else j.damage) }

/-- A channel restores its journal, newest entry first, and drops what is in flight (R328). -/
def Channel.restoreStep (k : Channel) : Channel :=
  { (k.journal.reverse.foldl Channel.restoreUnit k).commitStep with reads := [], writes := [] }

/-- The units of a journal that cannot be read (R333). -/
def Channel.badJournal (k : Channel) : List Nat := (k.journal.filter (fun j => j.damage == .uncorrectable)).map (·.unit)

/-- Changes every core of a plot. -/
def State.mapCores (s : State) (fn : Fn) (f : CoreState → CoreState) : State := (s.plot fn).cores.foldl (fun (s : State) c => s.modCore c f) s

/-- Changes every channel of a plot. -/
def State.mapChannels (s : State) (fn : Fn) (f : Channel → Channel) : State :=
  { s with channels := s.channels.map (fun c => if c.2.owner == some fn then (c.1, f c.2) else c) }

/-- The mesh holds nothing more of a plot's step (R281, R303). -/
def State.clearMesh (s : State) (fn : Fn) : State :=
  let cs := (s.plot fn).cores
  { s with mesh := { s.mesh with flits := s.mesh.flits.filter (fun f => f.2.fn != fn), uses := s.mesh.uses.filter (fun u => !cs.contains u.router), broken := s.mesh.broken.filter (fun b => !cs.any (fun c => c.toNat == b.1)) }
           system := { s.system with gateUse := s.system.gateUse.filter (fun g => !cs.any (fun c => c.toNat == g.1)) } }

/-! ### Arrival (R54, R303, R329) -/

/-- Whether a posted message of a core is still on its way: in the mesh, or on its way to the granary of its receiver (R54, R59, R267). -/
def State.postedOut (s : State) (c : CoreId) : Bool :=
  s.mesh.flits.any (fun f => f.2.src == c && (match f.2.kind with | .posted _ _ => true | .active _ => true | _ => false)) ||
    s.cores.any (fun k => k.2.traffic.spillWait.any (fun w => w.sender == c)) ||
    s.channels.any (fun k => k.2.writes.any (fun w => w.spill && w.sender == c))

/-- Whether a core meets the conditions of R54. -/
def State.mayArrive (s : State) (cid : CoreId) : Bool :=
  let c := s.core cid
  c.step.main.stopped && c.step.fill.stopped && c.step.haltAt.isNone && c.step.events.isEmpty && c.traffic.sendQueue.isEmpty && c.traffic.outbox.isEmpty && !s.postedOut cid &&
    !(s.plot (c.owner.getD 0)).commons.requests.any (fun r => r.core == cid && !r.accepted)

/-- CORE_ARRIVES (R54, R461). -/
def execCoreArrives (cid : CoreId) (s : State) : Host.Outcome State Fault Refusal :=
  coreCommand s cid (fun _ c => if s.mayArrive cid && !c.totals.arrived then { c with totals.arrived := true, totals.arriveFc := c.step.offset } else c)

/-- Whether nothing of a plot's step is still to land (R303, R319, R329). -/
def State.quiet (s : State) (fn : Fn) : Bool :=
  !s.mesh.flits.any (fun f => f.2.fn == fn) && !s.channels.any (fun c => c.2.owner == some fn && (!c.2.reads.isEmpty || !c.2.writes.isEmpty)) &&
    (s.plot fn).cores.all (fun c => (s.core c).step.events.isEmpty && (s.core c).traffic.spillWait.isEmpty && (s.core c).traffic.held.isEmpty)

/-- Whether only buffered flits are left, and no RECV firing remains to release them (R303). -/
def State.strandedFlits (s : State) (fn : Fn) : List (Nat × Flit) :=
  s.mesh.flits.filter (fun f => f.2.fn == fn && f.2.inBuffer &&
    !((s.core f.2.router).tables.trains.any (fun t => t.2.kind == 4 && t.2.port.toNat == f.2.inPort.toNat && (t.2.link1 == f.2.link1 || f.2.inPort.toNat % 2 == 0) &&
      AMap.get 0 (s.core f.2.router).traffic.slotFired t.1 ≤ t.2.reps)))

/-- SCHED_STRANDED for each stranded flit of a plot that waits at its bell. -/
def State.noteStranded (s : State) (fn : Fn) : State :=
  (s.strandedFlits fn).foldl (fun (s : State) f =>
    (s.modCore f.2.router (fun c => c.report { code := 0x201F, fill := false, offset := c.step.offset, site := f.2.site, slot := 7, d0 := 0, d1 := 0, d2 := 0 })).dropFlit f.1) s

/-! ### Holds (R55, R63, R77, R365, R433, R556) -/

/-- Whether any hold is on. -/
def Holds.any (h : Holds) : Bool := h.reference || h.recordPlace || h.completion || h.thermal || h.partner

/-- CAUSE of the holds on (R63): the lowest number. -/
def Holds.cause (h : Holds) : Nat := if h.reference then 1 else if h.recordPlace then 2 else if h.completion then 3 else if h.thermal then 4 else 0

/-- Bytes of RESULT and BRUISEMAP packets that a plot's backlog holds. -/
def Plot.resultBytes (p : Plot) : Nat := (p.packets.results.map (fun d => 64 * (1 + ceilDiv d.payload.length 64))).foldl (· + ·) 0

/-- Whether the RESULT backlog is above its capacity (R433). -/
def State.backlogFull (s : State) (fn : Fn) : Bool := min (3145728 * s.boundCount fn) 67108864 < (s.plot fn).resultBytes

/-- Whether a bell falls within 10 µs after the loss of SYSREF and is the domain's first since it: the step that it opens runs (R80). `last` is the domain's bell before. -/
def State.justLost (s : State) (last : Option Nat) : Bool :=
  s.hub.time ≤ s.hub.refs.lostAt + 10000 && (match last with | some b => b ≤ s.hub.refs.lostAt | none => true)

/-- The holds that a bell of a plot finds. -/
def State.holdsAt (s : State) (fn : Fn) (last : Option Nat) : Holds :=
  { reference := s.hub.refs.holdover && !s.justLost last, recordPlace := (s.plot fn).run.owesPlace && 8 < s.hub.records.length, completion := s.backlogFull fn
    thermal := (s.plot fn).fieldList.any (fun f => (AMap.get {} s.fieldHold f).held) }

/-! ### Release (R43, R57, R58) -/

/-- Stage 8: the step is released; each field starts at its STEP_RELEASE. -/
def State.openStep (s : State) (fn : Fn) : State :=
  let s := (s.mapCores fn CoreState.beginStep).mapChannels fn (fun k => { k with fired := [], failedFirings := [], stalledInStep := false })
  s.modPlot fn (fun p => { p with rounds := [], bell.held := false, step := { p.step with phase := .running, released := 0, fieldsIn := 0, holds := {}, epoch := none, windowFrom := none, rung := false, ringEvents := [], partner := none } })

/-- What the reeve changes at a bell or restart takes effect: repairs and ceilings (R31, R37, R42). -/
def State.reeveChanges (s : State) (fn : Fn) : State := (s.takeRemaps (some fn)).takeCeilings fn

/-- One management packet of a plot that has stopped takes effect, with its completion (R44). -/
def State.takeLate (s : State) (st : Staged) : State :=
  let r := s.takeMgmt st
  r.1.settle st (s.plot st.p.plot).bell.bell r.2

/-- A plot stops: state 5, its run over, vector 2; then the management packets listed take effect, and so do those accepted since the first abandoned attempt of its step (R44); the other staged packets are refused (R430, log entry 117). The record has been closed before. -/
def State.stopNow (s : State) (fn : Fn) (code : Code) (also : List Staged := []) : State :=
  let since := (s.plot fn).step.retriedAt
  let s := s.modPlot fn (fun p => ({ p with
    place.state := 5
    bell.stopped := true
    bell.held := false
    faults.stopCode := code
    run := p.run.ended
    step := p.step.fresh } : Plot).vector2)
  let s := s.reeveChanges fn
  let late := (s.plot fn).packets.staged.filter (fun st => isMgmt st.type && (match since with | some t => t ≤ st.acceptedAt | none => false))
  let s := s.modPlot fn (fun p => { p with packets.staged := p.packets.staged.filter (fun st => !late.contains st) })
  ((also ++ late).foldl State.takeLate s).refuseStaged fn

/-- A HALT or STOP word of a joined plot to the other members (R524). -/
def State.groupWord (s : State) (fn : Fn) (kind : Nat) : State :=
  let p := s.plot fn
  if p.group.joined then s.groupSend p.group.groupId (bellWord kind p.group.groupId p.bell.bell.toNat 0) else s

/-- A run that stops between steps closes its record with the step that the bell would have opened: a block with no outputs that holds the step's inputs, its events and the stop's entry (R354, R355, R361, log entry 119). -/
def State.closeBetween (s : State) (fn : Fn) (stop : List EventEntry) : State :=
  let p := s.plot fn
  if p.run.isOpen then s.addBlock fn (s.stepBlock fn [] (p.run.events ++ stop)) [3] p.bell.bell else s

/-- A stop at the bell at which the plot stands, after a committed step or at a held bell (R77, R374): the open record closes with CLOSE 3. -/
def State.stopHere (s : State) (fn : Fn) (code : Code) (d0 d1 d2 : Word) : State :=
  let r := s.hubReport fn code true d0 d1 d2
  (((s.queueReport fn r).closeBetween fn [r.stopEvent]).stopNow fn code).groupWord fn 5

/-- A stop of a plot in which no attempt runs: at once, or at the bell that has rung and waits for a lock-step partner (R43, R374). -/
def State.stopBetween (s : State) (fn : Fn) (code : Code) (d0 d1 d2 : Word) : State :=
  if (s.plot fn).step.rung then s.modPlot fn (fun p => { p with step.stopAtBell := some { code := code, d0 := d0, d1 := d1, d2 := d2 } })
  else s.stopHere fn code d0 d1 d2

/-- Both plots of a lock-step pair stop between steps (R401, R403). -/
def State.divergeHere (s : State) (fn : Fn) : State :=
  (s.stopHere fn 0x3007 0 0 (s.hub.faults.partner.setWidth 64)).modHub (fun h => { h with faults.diverged := true })

/-- At a run's first bell the partner's exchange is judged once it is at hand (R400, R403). -/
def State.meetPartner (s : State) (fn : Fn) : State :=
  let p := s.plot fn
  if !p.step.holds.partner then s
  else if (s.port s.hub.faults.lockPort).state != 4 then s.stopHere fn 0x3006 (BitVec.ofNat 64 (2 ^ 63 + s.hub.faults.lockPort.toNat)) (s.hub.faults.partner.setWidth 64) 0
  else
    match p.step.partner with
    | some (.runStart image rows cols seed plotkey) =>
      if image == p.place.imageDigest && rows == p.place.rows && cols == p.place.cols && seed == p.run.seed && plotkey == p.run.plotkey then
        s.setPlot fn { p with step.holds.partner := false, step.partner := none }
      else s.divergeHere fn
    | some (.stopped _) => s.divergeHere fn
    | _ => s

/-- Stage 8, or a hold or a stop instead of it (R63, R77, R80). `last` is the domain's bell before this one. -/
def State.openOrHold (s : State) (fn : Fn) (last : Option Nat) : State :=
  let s := s.meetPartner fn
  let p := s.plot fn
  if p.place.state != 3 then s
  else match p.step.stopAtBell with
  | some r => s.stopHere fn r.code r.d0 r.d1 r.d2
  | none =>
  let h : Holds := { s.holdsAt fn last with partner := p.step.holds.partner }
  if !h.any then s.openStep fn
  else
    s.setPlot fn { p with
      bell := { p.bell with held := true, heldCount := if h.cause = 0 then p.bell.heldCount else satAdd p.bell.heldCount 1, cause := if h.cause = 0 then p.bell.cause else BitVec.ofNat 4 h.cause }
      run.stepHeld := h.reference
      step := { p.step with phase := .held, rung := false, holds := h, heldFrom := s.hub.time, heldStamp := s.stamp } }

/-- A held plot whose holds have all ended is released, after what the reeve still changes (R404). -/
def State.releaseHeld (s : State) (fn : Fn) : State :=
  let p := s.plot fn
  if p.step.phase == .held && !p.step.holds.any then (s.reeveChanges fn).openStep fn else s

/-- The event entry of a hold for loss of reference, with its start and length (R77, R361). -/
def State.holdEvent (s : State) (fn : Fn) : EventEntry :=
  let p := s.plot fn
  { code := 0x4001, bell := p.bell.bell, attempt := 0, kind := 0, site := 0, offset := 0xFFFFFFFF, d0 := p.step.heldStamp, d1 := BitVec.ofNat 64 (s.hub.time - p.step.heldFrom) }

/-- A hold for loss of reference ends and is recorded: REF_LOSS is reported (R77). -/
def State.noteRefHold (s : State) (fn : Fn) : State :=
  let e := s.holdEvent fn
  (s.modPlot fn (fun p => { p with step := { p.step with holds.reference := false, windowFrom := none }, run.events := p.run.events ++ [e] })).plotReport fn 0x4001 false 0 0 0

/-- A hold for loss of reference ends, and the plot is released when no other hold stands (R77). -/
def State.endRefHold (s : State) (fn : Fn) : State := (s.noteRefHold fn).releaseHeld fn

/-- The record and completion holds that no longer stand end (R365, R433). -/
def State.easeHolds (s : State) : State :=
  s.plotNumbers.foldl (fun (s : State) fn =>
    let p := s.plot fn
    if p.step.phase != .held then s
    else
      let h := p.step.holds
      let owes := p.run.owesPlace && 8 < s.hub.records.length
      (s.setPlot fn { p with run.owesPlace := owes, step.holds := { h with recordPlace := h.recordPlace && owes, completion := h.completion && s.backlogFull fn } }).releaseHeld fn) s

/-! ### Abandoning an attempt (R374, R385, R404) -/

/-- DEEP_UE of a journal entry that cannot be read, in the reeve's log (R333). -/
def State.noteJournals (s : State) (fn : Fn) : State :=
  (s.channels.filter (fun c => c.2.owner == some fn)).foldl (fun (s : State) c => c.2.badJournal.foldl (fun (s : State) u => s.logReport 0x3005 (ordinalWord c.2.ordinal) (BitVec.ofNat 64 (c.2.ordinal.toNat * shareUnits + u)) 0) s) s

/-- Everything of the attempt is discarded and the opening bell's state restored (R281, R303, R328, R383, R404). -/
def State.restorePlot (s : State) (fn : Fn) : State :=
  let s := (s.clearMesh fn).noteJournals fn
  let s := ((s.readImages fn).mapCores fn CoreState.restoreStep).mapChannels fn Channel.restoreStep
  s.modPlot fn (fun p => { p with rounds := [], commons.requests := [], sbase := p.sbaseImage, faults.attemptReports := [] })

/-- The count of an abandoned step whose attempt found BELL_OVERRUN (R63). -/
def BellState.countOverrun (b : BellState) (rs : List Report) : BellState :=
  if rs.any (fun r => r.code == 0x4002) then { b with overrun := satAdd b.overrun 1 } else b

/-- An abandoned attempt that stops the plot (R354, R374): a block with no outputs, CLOSE 3, the opening bell's number. -/
def State.abandonStop (s : State) (fn : Fn) (rs : List Report) (k : Nat) : State :=
  let p := s.plot fn
  let r := rs.getD k { code := 0x3001, bell := p.bell.bell, attempt := p.bell.attempt, function := fn, hostTag := p.run.hostTag, time := s.stamp }
  let limit := 3 ≤ p.bell.attempt.toNat && r.cls != .program && r.cls != .system
  let extra : List Report := if limit then [{ r with code := 0x3009, core := 0xFFFFFFFF, offset := 0xFFFFFFFF, site := 0, d0 := 0, d1 := 0, d2 := 0, stop := true, primary := true, fill := false }] else []
  let code := if limit then 0x3009 else r.code
  let s := s.queueReports fn (flagReports (.stop (if limit then rs.length else k)) rs ++ extra)
  let evs := p.run.events ++ p.step.heldEvents ++ s.attemptEvents fn ++ [(extra.getD 0 r).stopEvent]
  let s := s.restorePlot fn
  let evs := evs ++ ((s.plot fn).run.events.drop p.run.events.length)
  let s := s.modPlot fn (fun p => { p with bell := { p.bell.countOverrun rs with attempt := satAdd p.bell.attempt 1 } })
  let s := if p.run.isOpen then s.addBlock fn (s.stepBlock fn [] evs) [3] p.bell.bell else s
  s.stopNow fn code

/-- An abandoned attempt that is to be retried (R385): reports and events are kept, the state restored, and the plot waits for RETRY_RELEASE. -/
def State.abandonRetry (s : State) (fn : Fn) (rs : List Report) (k : Nat) : State :=
  let evs := s.attemptEvents fn
  let s := s.queueReports fn (flagReports (.retry k) rs)
  let s := (s.modPlot fn (fun p => { p with run.events := p.run.events ++ evs })).restorePlot fn
  s.modPlot fn (fun p => { p with
    bell := p.bell.countOverrun rs
    step := { p.step with phase := .abandoned, overruns := p.step.overruns + b2n (rs.any (fun r => r.code == 0x4002)), retried := true, undecided := rs.length ≤ k, fieldsIn := 0, released := 0, epoch := none
                          retriedAt := some (p.step.retriedAt.getD s.hub.time) } })

/-- Whether a residue check event of a matrix operation waits for its column test (R131, R132). -/
def State.testDue (s : State) (fn : Fn) : Bool :=
  (s.plot fn).cores.any (fun c => match (s.core c).checkPending with | some k => !k.1 | none => false)

/-- Judges the reports of a plot's attempt: nothing where none abandons it. A check event in a matrix operation abandons it too (R132). -/
def State.judge (s : State) (fn : Fn) : State :=
  let rs := s.attemptReports fn
  match verdictOf rs (s.plot fn).bell.attempt.toNat with
  | .commit => if !s.testDue fn then s else if 3 ≤ (s.plot fn).bell.attempt.toNat then (s.abandonStop fn rs rs.length).groupWord fn 5 else (s.abandonRetry fn rs rs.length).groupWord fn 4
  | .retry k => (s.abandonRetry fn rs k).groupWord fn 4
  | .stop k => (s.abandonStop fn rs k).groupWord fn 5

/-! ### Committing (R43, R51, R157, R274 to R277, R321, R461) -/

/-- The totals of R157 over a plot's cores. -/
def State.stepTotals (s : State) (fn : Fn) : ArithTot :=
  (s.plot fn).cores.foldl (fun (t : ArithTot) c =>
    let k := (s.core c).totals
    { overflow := satAdd t.overflow k.overflow, underflow := satAdd t.underflow k.underflow, bruise := satAdd t.bruise k.bruise, sumSat := t.sumSat || k.sumSat }) {}

/-- COMMONS_DROP (R276, R361). -/
def State.commonsDrop (s : State) (fn : Fn) (r : CommonsReq) : State :=
  let d0 : Word := if r.put then BitVec.ofNat 64 (2 ^ 15 + fieldOf r.target 0 8) else r.target.setWidth 64
  (s.plotReport fn 0x0003 false 0 0 0).modPlot fn (fun p => { p with
    commons.dropped := satAdd p.commons.dropped 1
    run.events := p.run.events ++ [{ code := 0x0003, bell := p.bell.bell, attempt := p.bell.attempt, kind := 3, site := 0, offset := 0xFFFFFFFF, d0 := d0, d1 := (coreDest r.core).setWidth 64 }] })

/-- One commons request takes effect or is dropped (R276, R280). -/
def State.commonsCommit (s : State) (fn : Fn) (r : CommonsReq) : State :=
  if r.put then
    let m := AMap.get {} s.commons.mail (fieldOf r.target 0 8)
    if m.assigned && !m.full then { s with commons.mail := AMap.put {} s.commons.mail (fieldOf r.target 0 8) { m with word := r.value, full := true } }
    else
      let s := if m.full then s.modPlot (r.target.setWidth 8) (fun p => { p with commons.refused := satAdd p.commons.refused 1 }) else s
      s.commonsDrop fn r
  else
    let v := (AMap.get 0 s.commons.tally r.target.toNat).toNat + r.value.toNat
    if s.commons.tallyOrphan r.target.toNat || 2 ^ 32 ≤ v then s.commonsDrop fn r
    else { s with commons.tally := AMap.put 0 s.commons.tally r.target.toNat (BitVec.ofNat 32 v) }

/-- The plot's requests of the step, by core row and column, then in issue order (R274). -/
def State.commonsRun (s : State) (fn : Fn) : State :=
  let rs := sortBy (fun a b => a.core.toNat ≤ b.core.toNat) (s.plot fn).commons.requests
  (rs.foldl (fun s r => s.commonsCommit fn r) s).modPlot fn (fun p => { p with commons.requests := [] })

/-- The mailbox word that CTAKE took becomes an input item and the mailbox is emptied in every core's view too, before the step's own puts (R277, R351, log entry 31). -/
def State.takeMailbox (s : State) (fn : Fn) : State :=
  if (s.plot fn).cores.any (fun c => (s.core c).totals.ctaken) then
    let s := s.mapCores fn (fun c => { c with viewMail := none })
    let m := AMap.get {} s.commons.mail fn.toNat
    let item : Item := { tag := 0, kind := 1, type := 0, length := 8, digest := digestOf (bytesOfNat 8 m.word.toNat) }
    { s with commons.mail := AMap.put {} s.commons.mail fn.toNat { m with word := 0, full := false } }.modPlot fn (fun p => { p with run.inputs := p.run.inputs ++ [item] })
  else s

/-- LENT of a committed step in mW (R461). -/
def State.lentOf (s : State) (fn : Fn) : Nat :=
  let p := s.plot fn
  let d := (p.cores.map (fun c => (s.core c).totals.dozeFc)).foldl (· + ·) 0
  let m := (p.cores.map (fun c => (s.core c).totals.arriveFc)).foldl max 1
  167 * d * p.clock.pass.toNat / (64 * m)

/-- CAP_BELLS counts a bell down; at 0 the cap is lifted (R73). -/
def PlotClock.countBell (k : PlotClock) : PlotClock :=
  if k.capBells.toNat ≤ 1 then { k with capBells := 0, capFields := 0, capPass := 0 } else { k with capBells := k.capBells - 1 }

/-- Every core and channel commits; counts and pass counts of the bell follow (R73, R321, R381, R461). What happened while the bell waited for a lock-step partner belongs to the next step (R43). -/
def State.commitPlot (s : State) (fn : Fn) : State :=
  let lent := s.lentOf fn
  let s := ((s.clearMesh fn).mapCores fn CoreState.commitStep).mapChannels fn Channel.commitStep
  let s := s.modPlot fn (fun p =>
    let sb := p.sbase.map (fun b => (b.1, { b.2 with base := b.2.base + b.2.adv.signExtend 34 }))
    { p with
      rounds := []
      sbase := sb
      sbaseImage := sb
      faults := { p.faults with retried := if p.bell.attempt == 0 then p.faults.retried else satAdd p.faults.retried 1, attemptReports := [] }
      clock := { (if p.step.overruns = 0 then p.clock.countBell else p.clock) with lent := lent }
      bell := { p.bell with bell := p.bell.bell + 1, attempt := 0, held := false }
      run := { p.run with inputs := [], outputs := [], events := p.step.heldEvents, stepHeld := false }
      step := { p.step with overruns := 0, retried := false, retriedAt := none, heldEvents := [] } })
  s.setPass fn

/-! ### The packets of a bell (R423, R426) -/

/-- The packets of a plot that are due at bell `b`, in acceptance order: those accepted before it rang, and changes to the plot accepted while it waits for a lock-step partner (R80, R423). -/
def State.duePackets (s : State) (fn : Fn) (b : Nat) : List Staged :=
  let p := s.plot fn
  let rang := if p.step.rung then p.step.rungAt else s.hub.time
  p.packets.staged.filter (fun st => if st.p.flags.getLsbD 0 then st.acceptedAt < (if isMgmt st.type then s.hub.time else rang) else st.epoch ≤ p.place.loads && st.target.toNat ≤ b)

/-- What has become of the packets taken at a bell: the state and each packet's outcome. -/
abbrev BellRun := State × List (Staged × Option Code)

/-- One packet of work, run or image type at its bell, checks 3 and 5 and the stopped or absent plot judged again. -/
def takeOne (act : State → Staged → State × Option Code) (r : BellRun) (st : Staged) : BellRun :=
  let s := r.1
  let q := s.plot st.p.plot
  let bad : Option Code :=
    if isMgmt st.type || st.type == 1 then none
    else if q.place.state == 0 || q.place.state == 5 || q.place.state == 6 then some 0x1008
    else if !s.lengthOk st.type st.p then some 0x1002
    else if !s.imageOk st.type st.p then some 0x1007
    else none
  match bad with
  | some c => (s, r.2 ++ [(st, some c)])
  | none => let a := act s st; (a.1, r.2 ++ [(st, a.2)])

/-- The packets of one stage in acceptance order. -/
def stageRun (due : List Staged) (stage : Nat) (act : State → Staged → State × Option Code) (r : BellRun) : BellRun :=
  (due.filter (fun st => typeStage st.type == stage)).foldl (takeOne act) r

/-- RUN_START at stage 5 (R336, R400): a paired module waits for the partner's exchange. -/
def State.takeRunStart (s : State) (st : Staged) : State × Option Code :=
  let fn := st.p.plot
  if (s.plot fn).place.state != 2 then (s, some 0x1008)
  else
    (s.modPlot fn (fun p => { p with
      place.state := 3
      run := { isOpen := true, seed := st.p.param, plotkey := BitVec.ofNat 16 (fieldBytes st.p.payload 0 2), openTime := s.bellStamp fn, hostTag := p.run.hostTag }
      step := { p.step with everRung := true, overruns := 0, holds.partner := s.hub.faults.lockEnable }
      bell.attempt := 0 }), some 0)

/-- An input item of a work packet (R351). -/
def Staged.item (st : Staged) : Item := { tag := st.p.tag, kind := 0, type := st.type, length := st.p.length, digest := st.p.digest }

/-- Stages 3 to 7 of a bell (R426), after stages 1 and 2. -/
def laterStages (due : List Staged) (r : BellRun) : BellRun :=
  let r := stageRun due 3 State.takeMgmt r
  let r := stageRun due 4 State.takeLoad r
  let r := stageRun due 5 State.takeRunStart r
  let r := stageRun due 6 (fun s st => (s.copyIn st.p.plot (fieldOf st.p.param 0 34) st.p.payload, some 0)) r
  stageRun due 7 (fun s st =>
    let b : StreamBase := { base := st.p.param.extractLsb' 0 34, adv := st.p.param.extractLsb' 34 24 }
    (s.modPlot st.p.plot (fun p => { p with sbase := AMap.put {} p.sbase (fieldOf st.p.param 58 4) b, sbaseImage := AMap.put {} p.sbaseImage (fieldOf st.p.param 58 4) b }), some 0)) r

/-- The outcomes of a bell's packets become completions and refusals in acceptance order (R432); the work packets that took effect are the next step's input items and set its host tag (R351, R377). -/
def State.settleBell (due : List Staged) (fn : Fn) (b : BitVec 48) (r : BellRun) : State :=
  let s := due.foldl (fun (s : State) st =>
    match r.2.find? (fun o => o.1 == st) with
    | some o => s.settle st b o.2
    | none => s) r.1
  let work := due.filter (fun st => isWork st.type && r.2.any (fun o => o.1 == st && (o.2 == none || o.2 == some 0)))
  s.modPlot fn (fun p => { p with run.inputs := p.run.inputs ++ work.map Staged.item, run.hostTag := (work.getLast?.map (fun st => st.p.tag)).getD p.run.hostTag })

/-- Stage 1: FETCH reads in TAG order; the outputs of the committed step (R426, R428, R432). -/
def fetchStage (due : List Staged) (b : BitVec 48) (r : BellRun) : BellRun × List Item :=
  let fs := sortBy (fun (a c : Staged) => a.p.tag.toNat ≤ c.p.tag.toNat) (due.filter (fun st => st.type == 4))
  fs.foldl (fun (a : BellRun × List Item) st =>
    let r := takeOne (fun s st => ((s.fetchNow st b false).1, none)) a.1 st
    if r.2.any (fun o => o.1 == st && o.2 == none) then
      let data := (a.1.1.fetchNow st b false).2
      (r, a.2 ++ [{ tag := st.p.tag, kind := 2, type := 0x82, length := BitVec.ofNat 32 data.length, digest := digestOf data }])
    else (r, a.2)) (r, [])

/-- BELLCTL takes effect; a change from frame to free mode empties the latch (R62, R64). -/
def BellState.applyCtl (b : BellState) : BellState :=
  { b with ctlUse := b.ctl, latch := if fieldOf b.ctlUse 0 2 == 1 && fieldOf b.ctl 0 2 == 0 then none else b.latch }

/-- Removes packets from a plot's staging area. -/
def State.unstage (s : State) (fn : Fn) (due : List Staged) : State := s.modPlot fn (fun p => { p with packets.staged := p.packets.staged.filter (fun st => !due.contains st) })

/-- The time at which the plot's bell rang that takes effect now. -/
def State.rangAt (s : State) (fn : Fn) : Nat := if (s.plot fn).step.rung then (s.plot fn).step.rungAt else s.hub.time

/-- A bell of the domain has rung (R52, R388). -/
def State.countBell (s : State) (fn : Fn) : State :=
  let t := s.rangAt fn
  s.modPlot fn (fun p => { p with step.lastBell := t, step.everRung := true, bell.rungs := p.bell.rungs + 1 })

/-- After the packets of a bell: what the reeve changes, then the step is opened or held when a run is open, its opening state being the cores' state now (R158, R385); otherwise the number moves on past the bell, except where a load has set it to 0 (R443, log entry 32). A load and a RUN_START at one bell open step 0 at it, whose closing bell is 1 (DESIGN CHOICE, log entry 109). -/
def State.afterBell (s : State) (fn : Fn) (loads : Nat) : State :=
  let p := s.plot fn
  let last := if p.step.everRung then some p.step.lastBell else none
  let s := (s.countBell fn).reeveChanges fn
  if p.place.state == 3 then (s.mapCores fn (fun c => { c with image := c.work })).openOrHold fn last
  else if p.place.state == 1 || p.place.state == 2 then
    s.modPlot fn (fun p => { p with step := { p.step with phase := .idle, rung := false }, bell.bell := if p.place.loads == loads then p.bell.bell + 1 else p.bell.bell })
  else s

/-- The last bell number of a domain (R53). -/
def lastBellNumber : BitVec 48 := 0xFFFFFFFFFFFF

/-- The stop of a domain at its last bell (R53): STEP_LIMIT with the number of that bell. -/
def State.limitReport (s : State) (fn : Fn) : Report := { s.hubReport fn 0x200B true 0 0 0 with bell := lastBellNumber }

/-- The bell commits a plot's step (R43, R426): totals, outputs, the step block and the records that close with it, the images, then the packets. At the last bell, or with a refused record under REQUIRE_SIGNED, the plot stops after its step; a pre-emption or reset that closed the record then still takes effect, and the other packets are refused (R53, R364, R430, log entry 117). -/
def State.commitBell (s : State) (fn : Fn) (extra : List EventEntry) : State :=
  let rs := s.attemptReports fn
  let evs := s.attemptEvents fn
  let s := (s.queueReports fn rs).modPlot fn (fun p => { p with tot := s.stepTotals fn })
  let s := s.takeMailbox fn
  let s := s.commonsRun fn
  let p := s.plot fn
  let b : BitVec 48 := p.bell.bell + 1
  let due := s.duePackets fn b.toNat
  let s := s.unstage fn due
  let f := fetchStage due b (s, [])
  let r := f.1
  let ends := stageRun due 2 (fun s _ => (s, some 0)) r
  let took (type : BitVec 8) : Bool := ends.2.any (fun o => o.1.type == type && o.2 == some 0)
  let away := due.any (fun st => st.type == 0x22 && (ends.1.check7 st.type st.p).isNone) || due.any (fun st => st.type == 0x24)
  let last := b == lastBellNumber
  let conds : List Nat := (if took 7 then [1] else []) ++ (if took 8 then [2] else []) ++ (if away then [4] else []) ++ (if last then [6] else [])
  let s := ends.1
  let limit := s.limitReport fn
  let closed := s.addBlock fn (s.stepBlock fn f.2 ((s.plot fn).run.events ++ evs ++ (if last then [limit.stopEvent] else []))) conds b
  let refused := closed.recordRefused s fn
  let s := closed.commitPlot fn
  let s := extra.foldl (fun (s : State) e => s.plotReport fn e.code false 0 0 0) (s.modPlot fn (fun p => { p with bell := p.bell.applyCtl, run.events := extra ++ p.run.events }))
  let loads := (s.plot fn).place.loads
  let s := if took 7 then s.modPlot fn (fun p => { p with run := { p.run.ended with hostTag := p.run.hostTag }, place.state := 2 }) else s
  if last || refused then
    let s := State.settleBell due fn b (s, ends.2)
    let rest := due.filter (fun st => !ends.2.any (fun o => o.1 == st))
    let s := ((if last then s.queueReport fn limit else s).countBell fn).modPlot fn (fun p => { p with packets.staged := rest.filter (fun st => !(away && isMgmt st.type)) ++ p.packets.staged })
    s.stopNow fn (if last then 0x200B else 0x5005) (if away then rest.filter (fun st => isMgmt st.type) else [])
  else
    let r := laterStages due (s, ends.2)
    (State.settleBell due fn b r).afterBell fn loads

/-! ### When a bell rings (R52, R57, R61, R400) -/

/-- The digest that a paired module exchanges for the step that the bell would commit (R353, R400). -/
def State.ownDigest (s : State) (fn : Fn) : BitVec 256 :=
  let t := (s.modPlot fn (fun p => { p with tot := s.stepTotals fn })).takeMailbox fn
  let p := t.plot fn
  let b := p.bell.bell + 1
  let outs := (fetchStage (t.duePackets fn b.toNat) b (t, [])).2
  (t.stepBlock fn outs []).stepDigest

/-- Whether a plot with commons requests may commit now: no plot of a greater number has committed requests in the same hub cycle (R274, R280). -/
def State.commonsTurn (s : State) (fn : Fn) : Bool :=
  (s.plot fn).commons.requests == [] || (match s.hub.commonsAt with | some (t, f) => t != s.hub.time || f.toNat ≤ fn.toNat | none => true)

/-- The commit of a plot's requests is noted for the order of R274. -/
def State.noteCommons (s : State) (fn : Fn) : State :=
  if (s.plot fn).commons.requests == [] then s else s.modHub (fun h => { h with commonsAt := some (h.time, fn) })

/-- Both modules' digests are at hand: the step commits, or both plots stop with LOCKSTEP_DIVERGE (R401, R403). -/
def State.compare (s : State) (fn : Fn) : State :=
  let p := s.plot fn
  let diverge (s : State) (d0 d1 : Word) : State :=
    let s := s.modPlot fn (fun p => p.hubReport fn 0x3007 s.stamp d0 d1 (s.hub.faults.partner.setWidth 64))
    (s.judge fn).modHub (fun h => { h with faults.diverged := true })
  match p.step.partner with
  | some (.digest b d) =>
    if b != p.bell.bell + 1 then s
    else if d == s.ownDigest fn then (s.noteCommons fn).commitBell fn p.step.ringEvents
    else diverge s ((s.ownDigest fn).extractLsb' 0 64) (d.extractLsb' 0 64)
  | some (.stopped _) => diverge s 0 0
  | _ => s

/-- LINK_DOWN of the lock-step port stops a paired plot at its bell (R403, R534). -/
def State.lockDown (s : State) (fn : Fn) : State :=
  (s.modPlot fn (fun p => p.hubReport fn 0x3006 s.stamp (BitVec.ofNat 64 (2 ^ 63 + s.hub.faults.lockPort.toNat)) (s.hub.faults.partner.setWidth 64) 0)).judge fn

/-- The bell of a plot rings (R43, R61, R400): reports that abandon the attempt are judged first; a paired plot waits for its partner with HELD set. `note` gives what the ringing itself counts and records. A commit out of the order of R274 does not happen. -/
def State.ringWith (s : State) (fn : Fn) (note : Plot → Plot × List EventEntry) : State :=
  let s := s.noteStranded fn
  let p := s.plot fn
  if verdictOf (s.attemptReports fn) p.bell.attempt.toNat != .commit || s.testDue fn then s.judge fn
  else if !s.quiet fn || !s.commonsTurn fn then s
  else
    let q := note p
    let t := s.setPlot fn q.1
    if !s.hub.faults.lockEnable then (t.noteCommons fn).commitBell fn q.2
    else if (s.port s.hub.faults.lockPort).state != 4 then t.lockDown fn
    else (t.modPlot fn (fun p => { p with bell.held := true, step := { p.step with rung := true, rungAt := t.hub.time, ringEvents := q.2, heldFrom := t.hub.time, heldStamp := t.stamp } })).compare fn

/-- The bell of a single-module plot rings. -/
def State.ring (s : State) (fn : Fn) (late : Bool) : State := s.ringWith fn (fun p => p.ringEvents late s.hub.time s.stamp)

/-- BELL_RINGS (R43, R52, R57, R61): the domain's bell, when its conditions hold; for a plot group the root fixes the epoch, of its own domains that hold no member too (R520, R523). -/
def execBellRings (fn : Fn) (dh : Nat) (s : State) : Host.Outcome State Fault Refusal :=
  let s := (s.advance dh).tryDomains
  let p := s.plot fn
  if p.step.phase != .arrived || p.step.rung then .next s
  else if p.group.joined then .next (if s.system.root && s.subtreeArrived p.group.groupId p.groupBell then s.tryEpoch p.group.groupId p.groupBell else s)
  else .next (if p.mayRing s.hub.time then s.ring fn false else s)

/-- SYNC_LATE (R61): the hold window has ended without an edge, and the bell rings. A plot that R77 holds until the next edge after relock is released at the end of its hold window with SYNC_LATE reported, recorded and counted in LATE, although no bell rings (DESIGN CHOICE, log entry 111). -/
def execSyncLate (fn : Fn) (dh : Nat) (s : State) : Host.Outcome State Fault Refusal :=
  let s := (s.advance dh).tryDomains
  let p := s.plot fn
  if p.step.phase == .arrived && !p.step.rung then
    if p.group.joined then .next (if s.system.root && s.subtreeArrived p.group.groupId p.groupBell then s.tryEpoch p.group.groupId p.groupBell else s)
    else .next (if p.windowOver s.hub.time then s.ring fn true else s)
  else
    match p.step.windowFrom with
    | some w =>
      if p.step.phase == .held && w + p.bell.window ≤ s.hub.time then
        let e : EventEntry := { code := 0x4005, bell := p.bell.bell, attempt := 0, kind := 0, site := 0, offset := 0xFFFFFFFF, d0 := s.stamp, d1 := 0 }
        let q : Plot := { p with bell := { p.bell with late := satAdd p.bell.late 1, lastLate := some s.hub.time, latch := none }, run.events := p.run.events ++ [e] }
        .next (((s.setPlot fn q).plotReport fn 0x4005 false 0 0 0).endRefHold fn)
      else .next s
    | none => .next s

/-- FIELD_ARRIVAL_REGISTERED (R54, R57): every participant core of the plot in the field has arrived; with the last field the plot waits for its bell. -/
def execFieldArrivalRegistered (fn : Fn) (field : FieldId) (dh : Nat) (s : State) : Host.Outcome State Fault Refusal :=
  let s := s.advance dh
  let p := s.plot fn
  let cs := p.cores.filter (fun c => fieldOfCore c == field)
  if p.step.phase == .running && cs != [] && cs.all (fun c => (s.core c).totals.arrived) then
    let inn := p.step.fieldsIn ||| BitVec.ofNat 8 (2 ^ field.toNat)
    if inn == p.fieldMask then
      let s := s.setPlot fn { p with step := { p.step with fieldsIn := inn, phase := .arrived, lastArrival := s.hub.time } }
      .next (if p.group.joined then s.afterArrival p.group.groupId p.groupBell else s)
    else .next (s.setPlot fn { p with step.fieldsIn := inn })
  else .next s

/-- BELL_INTERVAL_ELAPSED (R52): 2,000 hc have passed since the domain's last bell; a waiting bell in free mode rings. -/
def execBellIntervalElapsed (fn : Fn) (dh : Nat) (s : State) : Host.Outcome State Fault Refusal := execBellRings fn dh s

/-- Whether a plot's bell logic takes an edge (R60, R64): the gaps, the latch and the hold. -/
def Plot.takesEdge (p : Plot) (t : Nat) : Bool :=
  let gap := 1000 * fieldOf p.bell.ctlUse 32 12
  let clear (o : Option Nat) : Bool := match o with | some e => e + gap ≤ t | none => true
  clear p.bell.lastEdge && clear p.bell.lastLate && p.bell.latch.isNone && (!p.step.holds.reference || p.step.windowFrom.isSome)

/-- An edge of its polarity reaches a plot's bell logic (R60, R64, R77, R523): one that a held plot awaits after relock releases it; an edge of a group fills the latch here too, so that a second is not accepted, and goes to the root. -/
def State.plotEdge (s : State) (fn : Fn) : State :=
  let p := s.plot fn
  let t := s.hub.time
  if !p.bell.frame then s
  else if !p.takesEdge t then s.setPlot fn { p with bell.rejected := satAdd p.bell.rejected 1 }
  else if p.step.windowFrom.isSome then
    (s.setPlot fn { p with bell := { p.bell with lastEdge := some t, latch := none } }).endRefHold fn
  else if p.group.joined then
    if s.system.root then (s.setPlot fn { p with bell.lastEdge := some t }).groupEdge p.group.groupId p.groupBell s.system.stime.toNat
    else (s.setPlot fn { p with bell := { p.bell with lastEdge := some t, latch := some t, latchStamp := s.systemStamp } }).sendWord 0 (bellWord 2 p.group.groupId p.groupBell s.system.stime.toNat)
  else s.setPlot fn { p with bell := { p.bell with lastEdge := some t, latch := some t, latchStamp := s.stamp } }

/-- BELL_IN_EDGE (R60, R523): an edge reaches every domain of this module in frame mode with its polarity; of a group only at its domain root module. -/
def execBellInEdge (falling : Bool) (dh : Nat) (s : State) : Host.Outcome State Fault Refusal :=
  let s := s.advance dh
  .next (s.plotNumbers.foldl (fun (s : State) fn =>
    let p := s.plot fn
    if bitOf p.bell.ctlUse 2 == falling && (!p.group.joined || p.group.root == s.system.module) then s.plotEdge fn else s) s)

/-- STEP_RELEASE (R57): the release reaches a field of the domain; its cores start offset 0. -/
def execStepRelease (fn : Fn) (field : FieldId) (s : State) : Host.Outcome State Fault Refusal :=
  .next (s.modPlot fn (fun p =>
    if p.step.phase == .running && p.fieldList.contains field.toNat then { p with step.released := p.step.released ||| BitVec.ofNat 8 (2 ^ field.toNat) } else p))

/-- STEP_LIMIT (R59): a core has reached the end of offset 0xFF_FFFF without arriving; the first such core reports, and the domain stops in the state of the opening bell. -/
def execStepLimit (fn : Fn) (s : State) : Host.Outcome State Fault Refusal :=
  let late := (s.plot fn).cores.filter (fun c => !(s.core c).totals.arrived)
  if (s.plot fn).step.phase != .running then .next s
  else
    match late.find? (fun c => 0xFFFFFF ≤ (s.core c).step.offset) with
    | none => .next s
    | some c =>
      let s := s.modCore c (fun k => k.report { code := 0x200B, fill := false, offset := 0xFFFFFF, site := BitVec.ofNat 10 (fieldOf k.step.main.header 0 10), slot := 7, d0 := BitVec.ofNat 64 late.length, d1 := 0, d2 := 0 })
      .next (s.judge fn)

/-- What the reeve changes at a bell of the idle domain: repairs of its own, and those of plots that stand stopped and ring none (R31, R37, R404). -/
def State.idleChanges (s : State) : State :=
  (s.plotNumbers.filter (fun fn => (s.plot fn).place.state == 5)).foldl State.reeveChanges (s.takeRemaps none)

/-- An idle bell: what the reeve changes, then the management packets that are due, in acceptance order (R442, R473, R495). -/
def State.takeIdle (s : State) : State :=
  let s := s.idleChanges
  let due := s.hub.idleStaged.filter (fun st => st.acceptedAt < s.hub.time)
  let s := s.modHub (fun h => { h with idleStaged := h.idleStaged.filter (fun st => !due.contains st) })
  due.foldl (fun (s : State) st => let r := s.takeMgmt st; r.1.settle st s.hub.idleBell r.2) s

/-- IDLE_BELL (R50, R442, R479): the idle domain's next grid point; after a reset of the host link the start-up plots come back at one. -/
def execIdleBell (dh : Nat) (s : State) : Host.Outcome State Fault Refusal :=
  let s := s.advance dh
  if !s.hub.boot.bellZero || s.hub.time < s.hub.boot.zeroAt + 2000 * (s.hub.idleBell.toNat + 1) then .next s
  else
    let s := (s.modHub (fun h => { h with idleBell := h.idleBell + 1 })).takeIdle
    .next (if s.hub.boot.reload && s.hub.flash.start.all (fun e => (s.plot e.fn).place.state == 0) then ({ s with hub.boot.reload := false } : State).loadStarts false else s)

/-- The bell of a plot in which no step runs (R73, R426, R443); at the last bell number the plot stops there, and what has not taken effect by stage 2 is refused (R53, R430). -/
def State.emptyBell (s : State) (fn : Fn) : State :=
  let p := s.plot fn
  let b := p.bell.bell
  let due := s.duePackets fn b.toNat
  let s := ((s.unstage fn due).modPlot fn (fun p => { p with bell := { p.bell.applyCtl with latch := none }, clock := p.clock.countBell })).setPass fn
  let f := fetchStage due b (s, [])
  let r := stageRun due 2 (fun s _ => (s, some 0x1008)) f.1
  if b == lastBellNumber then
    let s := (State.settleBell due fn b r).countBell fn
    let rest := due.filter (fun st => !r.2.any (fun o => o.1 == st))
    ((s.modPlot fn (fun p => { p with packets.staged := rest ++ p.packets.staged })).queueReport fn (s.limitReport fn)).stopNow fn 0x200B
  else
    let r := laterStages due r
    (State.settleBell due fn b r).afterBell fn p.place.loads

/-- Whether a plot in which no step runs may ring its bell now (R52, R443). -/
def State.mayEmptyRing (s : State) (fn : Fn) : Bool :=
  let p := s.plot fn
  s.hub.boot.bellZero && (p.place.state == 1 || p.place.state == 2) && !p.moving.saving && !p.moving.restoring && !(p.step.everRung && s.hub.time < p.step.lastBell + 2000)

/-- EMPTY_BELL (R443): a plot in state 1 or 2 rings for the packets that await the bell; a member of a group arrives instead (R520, R527). -/
def execEmptyBell (fn : Fn) (dh : Nat) (s : State) : Host.Outcome State Fault Refusal :=
  let s := s.advance dh
  let p := s.plot fn
  let due := s.duePackets fn p.bell.bell.toNat
  if !s.mayEmptyRing fn then .next s
  else if p.group.joined then .next (if due != [] || s.system.control.any (fun c => c.1 == p.group.groupId) then s.afterArrival p.group.groupId p.groupBell else s)
  else .next (if due == [] then s else s.emptyBell fn)

end Sys2Proof.Machine
end

