-- ==== Sys2Proof/Machine/Clocks.lean ====
section
/-! DEFINITION. Droop of the field oscillators (R65, R69), and the references of the hub clock and of the host link (R75 to R80). -/

namespace Sys2Proof.Machine

/-! ### Droop (R65, R67, R69) -/

/-- DROOP_TRIP (R65, R67): the field's detector trips; the slowdown is counted. -/
def execDroopTrip (field : FieldId) (s : State) : Host.Outcome State Fault Refusal :=
  let f := s.field field
  .next (if f.tripped then s else s.setField field { f with tripped := true, droops := satAdd f.droops 1 })

/-- DROOP_RECOVERY (R65): the oscillator returns to its ceiling. -/
def execDroopRecovery (field : FieldId) (s : State) : Host.Outcome State Fault Refusal :=
  .next (s.setField field { s.field field with tripped := false })

/-- DROOP_FLOOR (R69, R361, R380): every plot with cores in the field abandons its running step; the ceiling falls by 100 MHz for 1,024 idle bells. Where no step runs in the field, the report goes to the reeve's log. -/
def execDroopFloor (field : FieldId) (s : State) : Host.Outcome State Fault Refusal :=
  let f := s.field field
  if !f.tripped then .next s
  else
    let s := (s.setField field { f with floors := satAdd f.floors 1, droopCeil := BitVec.ofNat 11 (max 1100 (f.ceiling.toNat - 100)), restoreBells := s.hub.idleBell.toNat + 1024 }).setCeiling field
    let hit := (s.plotsIn field).filter (fun fn => (s.plot fn).step.attempting)
    if hit == [] then .next (s.logReport 0x4004 0 0 0)
    else .next (hit.foldl (fun (s : State) fn =>
      s.modPlot fn (fun p =>
        let at_ : BitVec 32 := BitVec.ofNat 32 (s.fieldOffset fn field)
        { p with
          faults.attemptReports := p.faults.attemptReports ++ [{ code := 0x4004, attempt := p.bell.attempt, bell := p.bell.bell, offset := at_, function := fn, hostTag := p.run.hostTag, time := s.stamp }]
          run.events := p.run.events ++ [{ code := 0x4004, bell := p.bell.bell, attempt := p.bell.attempt, kind := 0, site := 0, offset := at_, d0 := BitVec.ofNat 64 (2 ^ field.toNat), d1 := 0 }] })) s)

/-- DROOP_CEILING_RESTORE (R69): 1,024 idle bells after the cut, and after each further 1,024, the lowered ceiling rises by 100 MHz. -/
def execDroopCeilingRestore (field : FieldId) (s : State) : Host.Outcome State Fault Refusal :=
  let f := s.field field
  if f.droopCeil = 1600 || s.hub.idleBell.toNat < f.restoreBells then .next s
  else .next ((s.setField field { f with droopCeil := BitVec.ofNat 11 (min 1600 (f.droopCeil.toNat + 100)), restoreBells := f.restoreBells + 1024 }).setCeiling field)

/-! ### References (R76 to R80) -/

/-- REF_LOSS on the management bus (R77, R553) and in the reeve's log. -/
def State.refLoss (s : State) : State :=
  (s.logReport 0x4001 0 0 0).modHub (fun h => { h with i3c.ibi := h.i3c.ibi ++ [0x4001] })

/-- SYSREF_LOSS (R77, R470): holdover begins; in phase 0 the module waits and reports. -/
def execSysrefLoss (dh : Nat) (s : State) : Host.Outcome State Fault Refusal :=
  let s := s.advance dh
  if s.hub.boot.phase = 0 then .next ((s.modHub (fun h => { h with refs.sysrefOk := false })).refLoss)
  else if s.hub.refs.holdover then .next s
  else
    .next ((s.modHub (fun h => { h with refs := { h.refs with sysrefOk := false, holdover := true, sysrefLosses := satAdd h.refs.sysrefLosses 1, lostAt := h.time, faultN := true } })).refLoss)

/-- A held plot at relock (R77): in free mode its hold ends; in frame mode it waits for the next edge, its hold window from now. Of a joined plot only the domain root's member knows the edges and waits (log entry 118). -/
def State.relockPlot (s : State) (fn : Fn) : State :=
  let p := s.plot fn
  if !p.step.holds.reference then s
  else if p.bell.frame && (!p.group.joined || p.group.root == s.system.module) then s.setPlot fn { p with step.windowFrom := some s.hub.time }
  else s.endRefHold fn

/-- SYSREF_RELOCK (R76, R77): holdover ends, and the held domains are released. FAULT_N stays while a loss of PCIE_REFCLK holds it. -/
def execSysrefRelock (dh : Nat) (s : State) : Host.Outcome State Fault Refusal :=
  let s := s.advance dh
  let was := s.hub.refs.holdover
  let s := s.modHub (fun h => { h with refs := { h.refs with sysrefOk := true, holdover := false, faultN := if was then h.refs.pcieLost else h.refs.faultN } })
  .next (if was then s.plotNumbers.foldl State.relockPlot s else s)

/-- Detail word 0 of an optical LINK_DOWN (R535). -/
def opticalD0 (port : Nat) : Word := BitVec.ofNat 64 (2 ^ 63 + port)

/-- A multi-module domain stops at the bell at which it is held, its hold recorded, or at its next bell (R77, R374, R535). -/
def State.stopGroupPlot (s : State) (fn : Fn) (d0 d1 : Word) : State :=
  let p := s.plot fn
  if p.place.state != 3 then s
  else if p.step.phase == .held then (if p.step.holds.reference then s.noteRefHold fn else s).stopHere fn 0x3006 d0 d1 0
  else s.setPlot fn { p with step.stopAtBell := some { code := 0x3006, d0 := d0, d1 := d1 } }

/-- HOLDOVER_EXPIRY (R77): 10 ms after the loss every optical port reports LINK_DOWN, and every multi-module domain stops at its held bell. All ports are down; the stop's own report names port 0 and its neighbour (DESIGN CHOICE, log entry 112). -/
def execHoldoverExpiry (dh : Nat) (s : State) : Host.Outcome State Fault Refusal :=
  let s := s.advance dh
  if !s.hub.refs.holdover || s.hub.time < s.hub.refs.lostAt + 10000000 then .next s
  else
    let s := (List.range 16).foldl (fun (s : State) k =>
      let q := s.port (BitVec.ofNat 4 k)
      (if q.state = 0 then s else s.setPort (BitVec.ofNat 4 k) { q with state := 3 }).logReport 0x3006 (opticalD0 k) (q.neighbour.setWidth 64) 0) s
    .next ((s.plotNumbers.filter (fun fn => (s.plot fn).group.joined)).foldl (fun (s : State) fn => s.stopGroupPlot fn (opticalD0 0) ((s.port 0).neighbour.setWidth 64)) s)

/-- PCIE_REFCLK_LOSS (R78): reported; the host link goes down with it (R438), and steps go on. -/
def execPcieRefclkLoss (dh : Nat) (s : State) : Host.Outcome State Fault Refusal :=
  let s := s.advance dh
  if !s.hub.refs.pcieOk then .next s
  else .next ((s.modHub (fun h => { h with refs := { h.refs with pcieOk := false, pcieLosses := satAdd h.refs.pcieLosses 1, faultN := true, pcieLost := true }, pins.pcieUp := false })).refLoss)

/-- PCIE_REFCLK_RELOCK (R76). -/
def execPcieRefclkRelock (dh : Nat) (s : State) : Host.Outcome State Fault Refusal :=
  .next ((s.advance dh).modHub (fun h => { h with refs := { h.refs with pcieOk := true, faultN := h.refs.holdover, pcieLost := false } }))

end Sys2Proof.Machine
end

