-- ==== Sys2Proof/Machine/Faults.lean ====
section
/-! DEFINITION. Failures of the part and their repair (R30 to R37, R129 to R132, R385 to R394, R398, R400 to R403): abandoning and releasing attempts, lost cores, columns and bridge links, image scrubbing, laser ageing, the lock-step exchange. -/

namespace Sys2Proof.Machine

/-! ### Attempts (R385) -/

/-- STEP_ABANDON (R373, R385, R404): the reports of the running attempt are judged; an attempt that one of them abandons is undone, or the plot stops. -/
def execStepAbandon (fn : Fn) (dh : Nat) (s : State) : Host.Outcome State Fault Refusal :=
  let s := s.advance dh
  .next (if (s.plot fn).step.attempting then s.judge fn else s)

/-- RETRY_RELEASE (R385): the repairs have ended, the attempt number rises by 1, and the retried attempt is released. Faults found meanwhile join the abandoned attempt's reports; a class S fault among them stops the plot. -/
def execRetryRelease (fn : Fn) (dh : Nat) (s : State) : Host.Outcome State Fault Refusal :=
  let s := s.advance dh
  let p := s.plot fn
  if p.step.phase != .abandoned || s.testDue fn then .next s
  else
    let rs := s.attemptReports fn
    match placeOf (fun r => r.cls == .system) rs with
    | some k => .next ((s.abandonStop fn rs k).groupWord fn 5)
    | none =>
      let evs := s.attemptEvents fn
      let s := s.queueReports fn (flagReports (.retry (if p.step.undecided then 0 else rs.length)) rs)
      let s := s.modPlot fn (fun p => { p with faults.attemptReports := [], run.events := p.run.events ++ evs, bell.attempt := satAdd p.bell.attempt 1, step.undecided := false })
      .next ((s.reeveChanges fn).openStep fn)

/-! ### Reports of the part -/

/-- A report of a failure of the part at a core or, with `hubDie`, at the hub die: in the attempt of the core's plot, between its steps, or to the reeve's log (R37, R377, R404). While a bell that has rung waits for a lock-step partner, it belongs to the step that the bell opens (R43). -/
def State.partReport (s : State) (c : CoreId) (owner : Option Fn) (hubDie : Bool) (code : Code) (d0 d1 : Word) (offset : Option Nat) : State :=
  let core : BitVec 32 := if hubDie then 0xFFFFFFFF else coreDest c
  match owner with
  | none =>
    let r : Report := { code := code, core := core, time := s.stamp, d0 := d0, d1 := d1 }
    s.modHub (fun h => { h.sumUp r with faults := (h.sumUp r).faults.enterLog { r with seq := h.seq }, seq := h.seq + 1 })
  | some fn =>
    let p := s.plot fn
    let rung := p.step.rung
    let r : Report := { code := code, attempt := if rung then 0 else p.bell.attempt, core := core, bell := if rung then p.bell.bell + 1 else p.bell.bell, offset := match offset with | some o => BitVec.ofNat 32 o | none => 0xFFFFFFFF
                        function := fn, hostTag := p.run.hostTag, time := s.stamp, d0 := d0, d1 := d1 }
    if offset.isSome then s.setPlot fn { p with faults.attemptReports := p.faults.attemptReports ++ [r] }
    else if rung then (s.setPlot fn { p with step.heldEvents := p.step.heldEvents ++ (r.event).toList }).queueReports fn [r]
    else
      (s.setPlot fn { p with run.events := if p.run.isOpen then p.run.events ++ (r.event).toList else p.run.events }).queueReports fn [r]

/-- The offset for a fault of a core found now: its own when its plot is in an attempt. -/
def State.faultOffset (s : State) (c : CoreId) : Option Nat :=
  match (s.core c).owner with
  | none => none
  | some fn =>
    match (s.plot fn).step.phase with
    | .running => some (s.core c).step.offset
    | .arrived => if (s.plot fn).step.rung then none else some (s.core c).step.offset
    | .abandoned => some (s.core c).step.offset
    | .diagnostic => some (s.core c).step.offset
    | _ => none

/-! ### Cores (R29 to R34, R388 to R390) -/

/-- D0 of CORE_LOST (R378). -/
def State.coreLostD0 (s : State) (c : CoreId) : Word := BitVec.ofNat 64 (rowOf c % 16 + 2 ^ 4 * s.physOf c + 2 ^ 10 * (fieldOfCore c).toNat)

/-- A physical core marked failed in its row (R31, R34): with a spare east of it that is healthy and not enabled, the row takes the spare; without one there is no remap (R37). Answers the row and whether a spare was found. -/
def RowMap.fail (r : RowMap) (f : Nat) : RowMap × Bool :=
  let bad := r.bad ||| BitVec.ofNat 36 (2 ^ f)
  let en := r.enable &&& ~~~(BitVec.ofNat 36 (2 ^ f))
  let live := satAdd r.live 1
  match (List.range 36).find? (fun k => f < k && !bad.getLsbD k && !r.enable.getLsbD k) with
  | some k => ({ r with enable := en ||| BitVec.ofNat 36 (2 ^ k), bad := bad, live := live }, true)
  | none => ({ r with bad := bad, live := live }, false)

/-- The reeve marks a logical core's physical core failed (R31, R37, R388, R390): CORE_LOST and the remap, or SPARES_EXHAUSTED, which stops a plot. -/
def State.failCore (s : State) (c : CoreId) : State :=
  let f := s.physOf c
  let r := s.rowMap c
  if 36 ≤ f || (r.bad.getLsbD f && !r.enable.getLsbD f) then s
  else
    let k := if r.bad.getLsbD f then (r, false) else r.fail f
    let d0 := s.coreLostD0 c
    let off := s.faultOffset c
    let owner := (s.core c).owner
    let s := s.remapRow (fieldOfCore c) (rowOf c % 16) k.1
    if k.2 then s.partReport c owner false 0x3002 d0 (k.1.enable.setWidth 64) off
    else
      match owner, off with
      | some fn, none => if (s.plot fn).place.state == 3 then s.stopBetween fn 0x3003 0 0 0 else s.partReport c owner false 0x3003 0 0 none
      | _, _ => s.partReport c owner false 0x3003 0 0 off

/-- CORE_LOST (R388): a heartbeat missing for 64 hc or a repeated logic check. -/
def execCoreLost (c : CoreId) (_cause : LostCause) (s : State) : Host.Outcome State Fault Refusal :=
  if !s.hasCore c then .fault .noSuchCore else .next (s.failCore c)

/-- POWER_DOMAIN_FAULT (R388). -/
def execPowerDomainFault (c : CoreId) (s : State) : Host.Outcome State Fault Refusal :=
  if !s.hasCore c then .fault .noSuchCore else .next (s.failCore c)

/-- The bell number of a core's domain. -/
def State.bellOf (s : State) (c : CoreId) : BitVec 48 :=
  match (s.core c).owner with
  | some fn => (s.plot fn).bell.bell
  | none => s.hub.idleBell

/-- The bells that a core's domain has rung (R388, log entry 120). -/
def State.bellsOf (s : State) (c : CoreId) : Nat :=
  match (s.core c).owner with
  | some fn => (s.plot fn).bell.rungs
  | none => s.hub.idleBell.toNat

/-- LOGIC_CHECK_EVENT (R388): the first is CORE_LOST with D1 = 0 and marks nothing; one within the previous 1,024 bells of the core's domain marks the core failed. -/
def execLogicCheckEvent (c : CoreId) (s : State) : Host.Outcome State Fault Refusal :=
  if !s.hasCore c then .fault .noSuchCore
  else
    let k := s.physCore c
    let owner := (s.core c).owner
    let now := s.bellsOf c
    let again := match k.lastLogic with | some (o, b) => o == owner && b ≤ now && now ≤ b + 1024 | none => false
    let s := s.setPhysCore c { k with lastLogic := some (owner, now) }
    .next (if again then s.failCore c else s.partReport c owner false 0x3002 (s.coreLostD0 c) 0 (s.faultOffset c))

/-! ### Columns (R129 to R132) -/

/-- The array map that a physical core has, or takes at the next bell or restart. -/
def PhysCore.planned (k : PhysCore) : ArrayMap := k.next.getD k.map

/-- One column that the test found: remapped with COLUMN_LOST from the next bell or restart on, or the core is marked failed. A column that serves nothing is marked failed, and COLENABLE stays. -/
def State.failColumn (s : State) (c : CoreId) (off : Option Nat) (f : Nat) : State :=
  let k := s.physCore c
  let m := k.planned
  let new := if m.colEnable.getLsbD f then m.replace f else some { m with bad := m.bad ||| BitVec.ofNat 34 (2 ^ f), live := BitVec.ofNat 2 (min 3 (m.live.toNat + 1)) }
  match new with
  | none => s.failCore c
  | some n =>
    let now := match (s.core c).owner with | some fn => (s.plot fn).repairsNow | none => false
    (s.setPhysCore c (if now then { k with map := n, next := none } else { k with next := some n })).partReport c (s.core c).owner false 0x3008 (BitVec.ofNat 64 f) (n.colEnable.setWidth 64) off

/-- COLUMN_TEST_DONE (R131, R132): the column test of a core that had a check event has ended with the columns `found`; one that finds none names none. -/
def execColumnTestDone (c : CoreId) (found : BitVec 34) (s : State) : Host.Outcome State Fault Refusal :=
  if !s.hasCore c then .fault .noSuchCore
  else
    match (s.core c).checkPending with
    | none => .next s
    | some k =>
      let off := if k.1 || (s.faultOffset c).isNone then none else some k.2
      let s := s.modCore c (fun k => { k with checkPending := none })
      let cols := (List.range 34).filter (fun i => found.getLsbD i && !(s.physCore c).planned.bad.getLsbD i)
      if cols == [] then .next (s.partReport c (s.core c).owner false 0x3008 0x3F ((s.physCore c).planned.colEnable.setWidth 64) off)
      else .next (cols.foldl (fun (s : State) f => s.failColumn c off f) s)

/-! ### Bridge links (R36, R37) -/

/-- The shared edge on a side of a field: 0 north, 1 east, 2 south, 3 west. -/
def edgeNumber (f : FieldId) (side : BitVec 2) : Option Nat :=
  match side.toNat with
  | 0 => if f.toNat < 2 then none else some (f.toNat - 2)
  | 1 => if f.toNat % 2 = 0 then some (6 + f.toNat / 2) else none
  | 2 => if f.toNat < 6 then some f.toNat else none
  | _ => if f.toNat % 2 = 1 then some (6 + f.toNat / 2) else none

/-- BRIDGE_LINK_FAILURE (R37): the spare replaces the link at the next bell or restart, with LINK_DOWN and a retry in every plot that has a slot on it; without a spare those plots stop with SPARES_EXHAUSTED, which names edge and link as LINK_DOWN does (log entry 115). -/
def execBridgeLinkFailure (field : FieldId) (edge : BitVec 2) (link : BitVec 6) (s : State) : Host.Outcome State Fault Refusal :=
  match edgeNumber field edge with
  | none => .next s
  | some e =>
    let g := AMap.get {} s.edges e
    if 36 ≤ link.toNat || g.bad.getLsbD link.toNat then .next s
    else
      let r := g.fail link.toNat
      let s : State := { s with edges := AMap.put {} s.edges e r.1 }
      let d0 : Word := BitVec.ofNat 64 (field.toNat + 2 ^ 3 * edge.toNat)
      let d1 : Word := link.setWidth 64
      match r.2 with
      | none => .next (s.partReport 0 none true 0x3006 d0 d1 none)
      | some (k, i) =>
        let users := s.linkPlots e k
        let spare := i != 36
        let report (s : State) (owner : Option Fn) (off : Option Nat) : State :=
          if spare then s.partReport 0 owner true 0x3006 d0 d1 off else s.partReport 0 owner true 0x3003 d0 d1 off
        if users == [] then .next (report s none none)
        else
          .next (users.foldl (fun (s : State) fn =>
            let p := s.plot fn
            let inStep := p.step.attempting || p.step.phase == .abandoned
            if !spare && !inStep && p.place.state == 3 then s.stopBetween fn 0x3003 d0 d1 0
            else
              let s := report s (some fn) (if inStep then some (s.fieldOffset fn field) else none)
              if (s.plot fn).repairsNow then s.takeRemaps (some fn) else s) s)

/-! ### Image scrubbing (R392 to R394) -/

/-- IMAGE_SCRUB_PASS (R392, R393): one pass over a block of a core's image state, with what it found; the hub die scrubs object 7. -/
def execImageScrubPass (c : CoreId) (object : BitVec 4) (block : BitVec 12) (mismatch copyBad : Bool) (s : State) : Host.Outcome State Fault Refusal :=
  if !s.hasCore c then .fault .noSuchCore
  else
    let k := s.core c
    let key := 4096 * object.toNat + block.toNat
    let hub := object == 7
    let since := AMap.find k.tables.passesSinceReload key
    if !mismatch then
      .next (s.setCore c { k with tables.cleanBell := AMap.set k.tables.cleanBell key (s.bellOf c)
                                  tables.passesSinceReload := match since with | some n => AMap.set k.tables.passesSinceReload key (n + 1) | none => k.tables.passesSinceReload })
    else
      match since with
      | some n => if n < 3 then .next (s.failCore c) else .next (reload s k key hub)
      | none => .next (reload s k key hub)
where
  /-- SIG_MISMATCH, and the block reloaded from the image copy or, when that is uncorrectable, from the flash. -/
  reload (s : State) (k : CoreState) (key : Nat) (hub : Bool) : State :=
    let off := s.faultOffset c
    let d0 : Word := BitVec.ofNat 64 (object.toNat + 2 ^ 4 * block.toNat)
    let d1 : Word := (AMap.get 0 k.tables.cleanBell key).setWidth 64
    let s := s.setCore c { k with tables.passesSinceReload := AMap.set k.tables.passesSinceReload key 0 }
    let s := s.partReport c k.owner hub 0x3004 d0 d1 off
    if copyBad then s.partReport c k.owner true 0x3005 (BitVec.ofNat 64 (2 ^ 63)) 0 off else s

/-! ### Laser ageing (R398) -/

/-- LASER_AGEING (R398): the second's corrected symbols of a port's lanes are read; each lane above THRESH is reported once. -/
def execLaserAgeing (port : PortId) (s : State) : Host.Outcome State Fault Refusal :=
  .next ((List.range 9).foldl (fun (s : State) k =>
    let p := s.port port
    let lane := AMap.get {} p.lanes k
    let p := { p with lanes := AMap.put {} p.lanes k { lane with corr := BitVec.ofNat 24 (min lane.corrNow (2 ^ 24 - 1)), corrNow := 0 } }
    if p.thresh.toNat < lane.corrNow && !p.overCount.getLsbD k then (s.setPort port { p with overCount := p.overCount ||| BitVec.ofNat 9 (2 ^ k) }).logReport 0x4007 0 0 0
    else s.setPort port p) s)

/-! ### Lock-step (R400 to R403) -/

/-- LOCKSTEP_DIGEST_RECEIVED (R400, R401, R403): the partner's exchange for a plot; a bell or a release that waits for it goes on, or both plots stop. -/
def execLockstepDigestReceived (fn : Fn) (x : LockstepExchange) (s : State) : Host.Outcome State Fault Refusal :=
  if !s.hub.faults.lockEnable || ((s.plot fn).step.rung && !s.commonsTurn fn) then .next s
  else
    let s := s.modPlot fn (fun p => { p with step.partner := some x })
    let p := s.plot fn
    if p.step.rung then .next (s.compare fn)
    else if p.step.phase == .held then
      match x with
      | .stopped _ => .next (s.divergeHere fn)
      | _ =>
        let s := s.meetPartner fn
        .next (s.releaseHeld fn)
    else .next s

/-! ### Ends of clearing, saving and restoring (R445, R450, R451, R456) -/

/-- PREEMPT_SAVE_DONE (R450): the save blocks are written; the cores are cleared and STATE reads 6. -/
def execPreemptSaveDone (fn : Fn) (s : State) : Host.Outcome State Fault Refusal :=
  let p := s.plot fn
  if !p.moving.saving then .next s
  else .next ((s.leaveCores p.cores).modPlot fn (fun p => { p with moving.saving := false, place.state := 6, place.rows := 0, place.cols := 0 }))

/-- RESUME_RESTORE_DONE (R451): every core has its save block back in its working state and its bell image; commons objects are assigned again; STATE reads 2, or 1 for a plot that had no image. -/
def execResumeRestoreDone (fn : Fn) (s : State) : Host.Outcome State Fault Refusal :=
  let p := s.plot fn
  if !p.moving.restoring then .next s
  else
    let cs := p.cores
    let s := p.moving.saved.foldl (fun (s : State) k =>
      match cs[k.rel]? with
      | some c => s.modCore c (fun c => { c with work := k.work, image := k.work })
      | none => s) s
    .next ((s.modPlot fn (fun p => { p with moving := {}, place.state := if p.place.hadImage then 2 else 1 })).reclaim fn)

/-- CORE_CLEAR_DONE (R445): a cleared core joins the idle domain. -/
def execCoreClearDone (c : CoreId) (s : State) : Host.Outcome State Fault Refusal :=
  if !s.hasCore c then .fault .noSuchCore else .next (s.modCore c (fun k => { k with clearing := false }))

/-- CHANNEL_ZERO_DONE (R456): a released channel's share holds zero units with clear bruise bits, and the channel is free. -/
def execChannelZeroDone (ch : ChanId) (s : State) : Host.Outcome State Fault Refusal :=
  channelCommand s ch (fun k => if k.zeroing then s.setChannel ch { k with zeroing := false, mem := [], bruise := [], damage := [] } else s)

end Sys2Proof.Machine
end

