-- ==== Sys2Proof/Machine/Rings.lean ====
section
/-! DEFINITION. The host's side of the rings (R414 to R416, R422, R424, R431 to R438): doorbells, ring control, device packets, interrupts, mailboxes, resets and loss of the host link. -/

namespace Sys2Proof.Machine

/-! ### Ignored writes (R409, R467) -/

/-- A write that a rule ignores: PLT.IGNORED of the function's plot counts it with its window offset. -/
def State.ignoreWrite (s : State) (fn : Fn) (offset : Nat) : State :=
  s.modPlot fn (fun p => { p with counts.ignored := satAdd p.counts.ignored 1, counts.ignoredLast := BitVec.ofNat 16 offset })

/-! ### Ring control and doorbells (R414 to R416) -/

/-- A write of PLT.SQCTL or PLT.CQCTL to a ring; `none` when it is ignored. -/
def Ring.writeCtl (r : Ring) (v : Word) : Option Ring :=
  let size : BitVec 5 := v.extractLsb' 1 5
  let on := bitOf v 0
  if size != r.logsize && (r.enable || size.toNat < 10 || 24 < size.toNat) then none
  else if on && !r.enable then
    if size.toNat < 10 || 24 < size.toNat then none else some { r with enable := true, logsize := size, tail := 0, head := 0, halted := false, cause := 0 }
  else some { r with enable := on, logsize := size }

/-- A write of PLT.SQBASE or PLT.CQBASE; `none` when it is ignored. -/
def Ring.writeBase (r : Ring) (v : Word) : Option Ring :=
  let a : BitVec 52 := v.extractLsb' 12 52
  if r.enable && a != r.base then none else some { r with base := a }

/-- Changes a function's submission or completion ring, or counts the write as ignored. -/
def State.writeRing (s : State) (fn : Fn) (completion : Bool) (offset : Nat) (f : Ring → Option Ring) : State :=
  let p := s.plot fn
  match f (if completion then p.cq else p.sq) with
  | none => s.ignoreWrite fn offset
  | some r => s.setPlot fn (if completion then { p with cq := r } else { p with sq := r, counts.readPaused := p.counts.readPaused && p.sq.enable && r.enable })

/-- A write of a ring's control register. -/
def State.ringCtl (s : State) (fn : Fn) (completion : Bool) (v : Word) : State := s.writeRing fn completion (if completion then 0x28 else 0x08) (fun r => r.writeCtl v)

/-- RING_ENABLE (R415). -/
def execRingEnable (fn : Fn) (completion : Bool) (v : Word) (s : State) : Host.Outcome State Fault Refusal := .next (s.ringCtl fn completion (v ||| 1))

/-- RING_DISABLE (R415). -/
def execRingDisable (fn : Fn) (completion : Bool) (v : Word) (s : State) : Host.Outcome State Fault Refusal := .next (s.ringCtl fn completion (v &&& ~~~1))

/-- TAIL written by the host (R416). -/
def Ring.doorbell (r : Ring) (tail : BitVec 32) : Option Ring :=
  let n := (tail - r.head).toNat
  if n ≤ 2 ^ r.logsize.toNat && (r.tail - r.head).toNat ≤ n then some { r with tail := tail } else none

/-- HEAD written by the host (R416). -/
def Ring.consume (r : Ring) (head : BitVec 32) : Option Ring :=
  if (head - r.head).toNat ≤ (r.tail - r.head).toNat then some { r with head := head } else none

/-- SQTAIL_DOORBELL (R416). -/
def execSqtailDoorbell (fn : Fn) (tail : BitVec 32) (s : State) : Host.Outcome State Fault Refusal := .next (s.writeRing fn false 0x10 (fun r => r.doorbell tail))

/-- CQHEAD_WRITE (R416). -/
def execCqheadWrite (fn : Fn) (head : BitVec 32) (s : State) : Host.Outcome State Fault Refusal := .next (s.writeRing fn true 0x30 (fun r => r.consume head))

/-- SQ_READ_RESUME (R424, R433): reading of a paused submission ring goes on. -/
def execSqReadResume (fn : Fn) (s : State) : Host.Outcome State Fault Refusal := .next (s.modPlot fn (fun p => { p with counts.readPaused := false }))

/-! ### Device packets (R377, R431 to R434) -/

/-- A report's 64 bytes (R377). -/
def Report.bytes (r : Report) : List Byte :=
  bytesOfNat 2 r.code.toNat ++ [BitVec.ofNat 8 (b2n r.fill + 2 * b2n r.retry + 4 * b2n r.stop + 8 * b2n r.primary + 16 * b2n r.log), r.attempt] ++ bytesOfNat 4 r.core.toNat ++ bytesOfNat 8 r.bell.toNat ++
    bytesOfNat 4 r.offset.toNat ++ bytesOfNat 2 r.site.toNat ++ [r.function, 0] ++ bytesOfNat 8 r.hostTag.toNat ++ bytesOfNat 8 r.time.toNat ++ bytesOfNat 8 r.d0.toNat ++ bytesOfNat 8 r.d1.toNat ++ bytesOfNat 8 r.d2.toNat

/-- The REPORT packet of a report (R431). -/
def Report.packet (r : Report) : DevPacket :=
  { type := 0x84, flags := BitVec.ofNat 8 (32 * b2n r.log), plot := r.function, tag := r.hostTag, bell := r.bell, param := r.code.setWidth 64, payload := r.bytes, irq := false, seq := r.seq }

/-- The RECORD packet of a closed record (R431). -/
def RecordPlace.packet (g : Grade) (r : RecordPlace) : DevPacket :=
  { type := 0x85, flags := 0, plot := r.body.function, tag := r.head.counter, bell := ((r.body.blocks.getLast?).map (fun b => b.bell)).getD 0
    param := BitVec.ofNat 64 (r.head.close.toNat + 16 * b2n r.head.unsigned), payload := recordText g r.head r.body ++ recordTrailer r.head r.body, irq := false, seq := r.seq }

/-- Units of a device packet (R418). -/
def DevPacket.units (d : DevPacket) : Nat := 1 + ceilDiv d.payload.length 64

/-- Whether a function's completion ring takes a packet of `n` units now (R415, R416, R438). -/
def State.ringRoom (s : State) (fn : Fn) (n : Nat) : Bool :=
  let r := (s.plot fn).cq
  r.enable && !r.halted && s.hub.pins.pcieUp && (r.tail - r.head).toNat + n ≤ 2 ^ r.logsize.toNat

/-- Vector 0 after `n` units were written (R434). -/
def Plot.signal (p : Plot) (n : Nat) (irq : Bool) : Plot :=
  let u := p.host.unsignalled + n
  if p.host.cqEn && (irq || p.host.batch.toNat ≤ u) then { p with host.unsignalled := 0, counts.vector0 := p.counts.vector0 + 1 } else { p with host.unsignalled := u }

/-- A device packet is written into a completion ring. -/
def Plot.emit (p : Plot) (d : DevPacket) : Plot :=
  ({ p with packets.written := p.packets.written ++ [d], cq.tail := p.cq.tail + BitVec.ofNat 32 d.units } : Plot).signal d.units d.irq

/-- Which part of the backlog a packet waits in (R433). -/
inductive Backlog where
  | result | completion | report | log
  deriving DecidableEq, Repr

/-- The oldest packets of each part of a function's backlog; function 0 also takes the reeve's log (R432). -/
def State.waiting (s : State) (fn : Fn) : List (Backlog × DevPacket) :=
  let p := s.plot fn
  (p.packets.results.head?.map (fun d => (Backlog.result, d))).toList ++ (p.packets.completions.head?.map (fun d => (Backlog.completion, d))).toList ++
    (p.faults.queue.head?.map (fun r => (Backlog.report, r.packet))).toList ++
    (if fn == 0 then (s.hub.faults.log[s.hub.faults.logSent]?.map (fun r => (Backlog.log, r.packet))).toList else [])

/-- The packet that the hub produced first (R432). -/
def oldest : List (Backlog × DevPacket) → Option (Backlog × DevPacket)
  | [] => none
  | x :: l => some (l.foldl (fun m y => if y.2.seq < m.2.seq then y else m) x)

/-- DEVICE_PACKET_WRITE (R416, R432, R433): the oldest packet of a function's backlog is written once the ring has room; a completion hold that no longer stands ends. -/
def execDevicePacketWrite (fn : Fn) (s : State) : Host.Outcome State Fault Refusal :=
  match oldest (s.waiting fn) with
  | none => .next s
  | some (k, d) =>
    if !s.ringRoom fn d.units then .next s
    else
      let s := s.modPlot fn (fun p =>
        let p : Plot :=
          match k with
          | .result => { p with packets.results := p.packets.results.drop 1 }
          | .completion => { p with packets.completions := p.packets.completions.drop 1 }
          | .report => { p with faults.queue := p.faults.queue.drop 1 }
          | .log => p
        p.emit d)
      let s := if k == .log then s.modHub (fun h => { h with faults.logSent := h.faults.logSent + 1 }) else s
      .next s.easeHolds

/-- Whether a closed record stands first among the packets of its ring, which has room for it (R365, R432). -/
def State.deliverable (s : State) (r : RecordPlace) : Bool :=
  s.ringRoom r.fn (r.packet s.grade).units && (s.waiting r.fn).all (fun w => r.seq ≤ w.2.seq)

/-- RECORD_DELIVERY (R365, R431, R432): the oldest closed record that its ring can take next is delivered, and its record place frees. -/
def execRecordDelivery (s : State) : Host.Outcome State Fault Refusal :=
  match placeOf s.deliverable s.hub.records with
  | none => .next s
  | some k =>
    match s.hub.records[k]? with
    | none => .next s
    | some r =>
      let d := r.packet s.grade
      let s := (s.modHub (fun h => { h with records := h.records.eraseIdx k })).modPlot r.fn (fun p => p.emit d)
      .next s.easeHolds

/-- IRQ_HOLDOFF_EXPIRY (R434). -/
def execIrqHoldoffExpiry (fn : Fn) (s : State) : Host.Outcome State Fault Refusal :=
  .next (s.modPlot fn (fun p => if p.host.cqEn && 0 < p.host.unsignalled then { p with host.unsignalled := 0, counts.vector0 := p.counts.vector0 + 1 } else p))

/-- DMA_ERROR (R434, R438): the ring halts with CAUSE 2. -/
def execDmaError (fn : Fn) (completion : Bool) (s : State) : Host.Outcome State Fault Refusal :=
  .next (s.modPlot fn (fun p => (if completion then { p with cq.halted := true, cq.cause := 2 } else { p with sq.halted := true, sq.cause := 2 } : Plot).vector2))

/-! ### The host link (R437, R438, R473, R479) -/

/-- PCIE_LINK_DOWN (R438). -/
def execPcieLinkDown (s : State) : Host.Outcome State Fault Refusal := .next (s.modHub (fun h => { h with pins.pcieUp := false }))

/-- PCIE_LINK_RETRAIN (R438): the link is up again when its reset is released and its reference runs. -/
def execPcieLinkRetrain (s : State) : Host.Outcome State Fault Refusal := .next (s.modHub (fun h => { h with pins.pcieUp := h.pins.perstN && h.refs.pcieOk }))

/-- The PLOT_RESET that an FLR brings about at a plot's next bell (R437). -/
def resetPacket (fn : Fn) (t : Nat) : Staged :=
  { type := 0x24, p := { fn := 0, flags := 5, plot := fn, byte3 := 0, length := 0, tag := 0, bell := 0, param := 0, digest := 0, payload := [] }, unit := 0, acceptedAt := t, target := 0, epoch := 0 }

/-- An FLR of one function (R437): its packets are discarded, the registers of the host interface take their reset values, and its plot is reset at its next bell. -/
def State.flrOne (s : State) (fn : Fn) : State :=
  let p := s.plot fn
  let st := resetPacket fn s.hub.time
  let atIdle := p.place.state == 5 || p.place.state == 6 || p.moving.saving
  let s := s.setPlot fn { p with
    sq := {}, cq := {}, host := {}
    counts.readPaused := false
    packets := { p.packets with staged := if p.place.state == 0 || atIdle then [] else [st], results := [], completions := [] }
    faults.queue := []
    moving.flr := p.place.state != 0 }
  s.modHub (fun h => { h with idleStaged := h.idleStaged.filter (fun k => k.p.plot != fn || isModuleType k.type) ++ (if atIdle then [st] else []) })

/-- Every function (R437, R479). -/
def State.flrAll (s : State) : State := ((List.range 256).map (BitVec.ofNat 8)).foldl State.flrOne s

/-- FLR (R437); of function 0, every function. -/
def execFlr (fn : Fn) (s : State) : Host.Outcome State Fault Refusal := .next (if fn == 0 then s.flrAll else s.flrOne fn)

/-- PERST_N asserted, or a hot reset (R473, R479): the controller is in reset; after bell zero every function is reset, and the start-up plots come back at an idle bell. -/
def execPerstN (s : State) : Host.Outcome State Fault Refusal :=
  let s := s.modHub (fun h => { h with pins.perstN := false, pins.pcieUp := false })
  .next (if s.hub.boot.bellZero then s.flrAll.modHub (fun h => { h with boot.reload := true }) else s)

/-- PERST_N deasserted (R473): the controller leaves reset from phase 1 on. -/
def execPerstNDeassert (s : State) : Host.Outcome State Fault Refusal :=
  .next (s.modHub (fun h => { h with pins.perstN := true, pins.pcieUp := h.refs.pcieOk && h.boot.phase != 0 }))

/-! ### Mailboxes (R435, R436) -/

/-- The reeve answers, or keeps the answer until FROM_FULL is 0 (R435). -/
def Plot.answer (p : Plot) (w : Word) : Plot :=
  if p.host.fromFull then { p with host.answers := p.host.answers ++ [w] }
  else { p with host.mboxFrom := w, host.fromFull := true, counts.vector1 := if p.host.mboxEn then p.counts.vector1 + 1 else p.counts.vector1 }

/-- An answer word (R436). -/
def answerWord (status : Code) (cmd : Nat) (data : Nat) : Word := BitVec.ofNat 64 (status.toNat + 2 ^ 16 * cmd + 2 ^ 24 * (data % 2 ^ 40))

/-- Whether a function's submission ring is IDLE (R414). -/
def Plot.sqIdle (p : Plot) : Bool := p.sq.tail == p.sq.head

/-- Whether nothing of a function waits for its completion ring (R433). -/
def State.backlogEmpty (s : State) (fn : Fn) : Bool := (s.waiting fn).isEmpty && !s.hub.records.any (fun r => r.fn == fn)

/-- DRAIN is answered once the submission ring is IDLE and the backlog empty, and ENABLE is cleared (R436). -/
def State.drainNow (s : State) (fn : Fn) : State :=
  let p := s.plot fn
  if p.host.draining && p.sqIdle && s.backlogEmpty fn then s.setPlot fn (({ p with sq.enable := false, host.draining := false } : Plot).answer (answerWord 0 3 0)) else s

/-- A command word written to PLT.MBOXTO, which the reeve reads and answers (R435, R436). -/
def State.mailCommand (s : State) (fn : Fn) (w : Word) : State :=
  let p := s.plot fn
  if p.host.toFull then s.ignoreWrite fn 0x50
  else
    let p : Plot := { p with host.mboxTo := w }
    match fieldOf w 0 8 with
    | 1 => s.setPlot fn (p.answer (answerWord 0 1 (fieldOf w 8 40)))
    | 2 => s.setPlot fn (p.answer (answerWord 0 2 (p.stateNow + 8 * fieldOf p.bell.bell 0 37)))
    | 3 => (s.setPlot fn { p with host.draining := true }).drainNow fn
    | c => s.setPlot fn (p.answer (answerWord 0x1001 c 0))

/-- PING (R436). -/
def execPing (fn : Fn) (arg : BitVec 56) (s : State) : Host.Outcome State Fault Refusal := .next (s.mailCommand fn (arg ++ (1 : BitVec 8)))
/-- STATUS (R436). -/
def execStatus (fn : Fn) (arg : BitVec 56) (s : State) : Host.Outcome State Fault Refusal := .next (s.mailCommand fn (arg ++ (2 : BitVec 8)))
/-- DRAIN (R436). -/
def execDrain (fn : Fn) (arg : BitVec 56) (s : State) : Host.Outcome State Fault Refusal := .next (s.mailCommand fn (arg ++ (3 : BitVec 8)))
/-- DRAIN_COMPLETE (R436). -/
def execDrainComplete (fn : Fn) (s : State) : Host.Outcome State Fault Refusal := .next (s.drainNow fn)

/-- A host read of PLT.MBOXFROM (R435): the word, which is cleared with FROM_FULL; an answer that waits takes its place. -/
def State.readMbox (s : State) (fn : Fn) : State :=
  let p := s.plot fn
  let s := s.modHub (fun h => { h with hostRead := if p.host.fromFull then p.host.mboxFrom else 0 })
  let q : Plot := { p with host.mboxFrom := 0, host.fromFull := false }
  s.setPlot fn (match p.host.answers with | [] => q | w :: l => ({ q with host.answers := l } : Plot).answer w)

/-- MBOXFROM_READ (R435). -/
def execMboxfromRead (fn : Fn) (s : State) : Host.Outcome State Fault Refusal := .next (s.readMbox fn)

end Sys2Proof.Machine
end

