-- ==== Sys2Proof/Machine/Registers.lean ====
section
/-! DEFINITION. The register maps (R408 to R413 and the maps of every chapter): what each register reads as, what a read clears, what a host write does. -/

namespace Sys2Proof.Machine

/-- A register word from its fields, each a bit position and a value. -/
def pack (l : List (Nat × Nat)) : Word := BitVec.ofNat 64 ((l.map (fun p => p.2 * 2 ^ p.1)).foldl (· + ·) 0)

/-! ### The function window (R410, R446, R455, R458, R462, R466, R467) -/

/-- PLT.SQCTL or PLT.CQCTL (R414). -/
def Ring.ctlWord (r : Ring) (idle : Bool) : Word := pack [(0, b2n r.enable), (1, r.logsize.toNat), (6, b2n r.halted), (7, r.cause.toNat), (9, b2n idle)]

/-- Commons requests accepted in the running step (R279). -/
def Plot.pendingCommons (p : Plot) : Nat := (p.commons.requests.filter (fun r => r.accepted)).length

/-- PLT.PLACE (R446). -/
def Plot.placeWord (p : Plot) : Word :=
  let on := p.place.state != 0 && p.place.state != 6
  pack [(0, if on then p.place.rows.toNat else 0), (7, if on then p.place.cols.toNat else 0), (14, p.place.originY.toNat), (20, p.place.originX.toNat), (26, p.stateNow), (32, if on then p.fieldMask.toNat else 0)]

/-- The registers of the function window at 8-byte offsets below 0x180. -/
def State.lowWord (s : State) (fn : Fn) (off : Nat) : Word :=
  let p := s.plot fn
  match off with
  | 0x00 => pack [(12, p.sq.base.toNat)]
  | 0x08 => p.sq.ctlWord p.sqIdle
  | 0x10 => p.sq.tail.setWidth 64
  | 0x18 => p.sq.head.setWidth 64
  | 0x20 => pack [(12, p.cq.base.toNat)]
  | 0x28 => p.cq.ctlWord (s.backlogEmpty fn)
  | 0x30 => p.cq.head.setWidth 64
  | 0x38 => p.cq.tail.setWidth 64
  | 0x40 => pack [(0, b2n p.host.cqEn), (1, b2n p.host.mboxEn), (2, b2n p.host.errEn), (16, p.host.holdoff.toNat), (32, p.host.batch.toNat)]
  | 0x48 => pack [(0, p.host.errCode.toNat), (16, p.host.errType.toNat), (24, p.host.errRefused.toNat), (32, p.host.errUnit.toNat)]
  | 0x58 => if p.host.fromFull then p.host.mboxFrom else 0
  | 0x60 => pack [(0, b2n p.host.toFull), (1, b2n p.host.fromFull)]
  | 0x100 => pack [(0, (if p.step.rung then p.bell.bell + 1 else p.bell.bell).toNat), (48, p.bell.attempt.toNat), (56, b2n p.bell.held), (57, b2n p.bell.stopped)]
  | 0x108 => p.bell.ctl
  | 0x110 => pack [(0, p.bell.late.toNat), (16, p.bell.slip.toNat), (32, p.bell.rejected.toNat), (40, p.bell.overrun.toNat), (48, p.bell.heldCount.toNat), (56, p.bell.cause.toNat)]
  | 0x118 => pack [(0, p.clock.pass.toNat), (8, p.clock.capFields.toNat), (16, p.clock.capPass.toNat), (24, p.clock.capBells.toNat)]
  | 0x120 => pack [(0, b2n p.regs.bruiseNan)]
  | 0x128 => pack [(0, p.regs.rampDown.toNat), (16, p.regs.rampUp.toNat), (32, p.regs.chaffFloor.toNat)]
  | 0x130 => pack [(0, p.tot.overflow.toNat), (20, p.tot.underflow.toNat), (40, p.tot.bruise.toNat), (60, b2n p.tot.sumSat)]
  | 0x138 => pack [(0, b2n (AMap.get {} s.commons.mail fn.toNat).full), (8, p.commons.dropped.toNat), (16, p.commons.refused.toNat), (24, p.pendingCommons)]
  | 0x140 => pack [(0, p.regs.replayClass.toNat), (2, b2n p.regs.batchInv), (3, b2n p.regs.requireSigned), (16, if p.run.isOpen then p.run.plotkey.toNat else 0), (32, p.regs.steps.toNat), (45, b2n p.run.isOpen)]
  | 0x148 => pack [(0, p.faults.queue.length), (16, p.faults.stopCode.toNat), (32, p.faults.lost.toNat), (48, p.faults.retried.toNat)]
  | _ => 0

/-- The registers of the function window from 0x180 on. -/
def State.highWord (s : State) (fn : Fn) (off : Nat) : Word :=
  let p := s.plot fn
  if off < 0x200 then
    let b := AMap.get {} p.sbase ((off - 0x180) / 8)
    pack [(0, b.base.toNat), (34, b.adv.toNat)]
  else if 0x400 ≤ off && off < 0xA00 then AMap.get 0 p.bar ((off - 0x400) / 8)
  else if 0x1080 ≤ off && off < 0x1100 then AMap.get 0 p.commons.cown ((off - 0x1080) / 8)
  else if 0x1100 ≤ off && off < 0x1180 then AMap.get 0 p.commons.cgrant ((off - 0x1100) / 8)
  else
    match off with
    | 0x1000 => p.placeWord
    | 0x1008 => pack [(0, p.place.channels.toNat), (10, p.place.mib.toNat), (42, s.boundCount fn)]
    | 0x1010 => p.place.foot.setWidth 64
    | 0x1018 => pack [(0, p.clock.budget.toNat), (16, p.clock.floor.toNat), (32, p.clock.passBudget.toNat), (40, min (p.clock.lent / 100) 65535)]
    | 0x1020 => pack [(0, p.counts.ignored.toNat), (16, p.counts.ignoredLast.toNat)]
    | 0x1028 => pack [(0, p.counts.diagEntry.toNat), (16, p.counts.diagSteps.toNat), (25, b2n p.counts.diagBusy)]
    | _ => 0

/-- The function window of function `fn`. -/
def State.functionReg (s : State) (fn : Fn) (off : Nat) : Word := if off < 0x180 then s.lowWord fn off else s.highWord fn off

/-- What a read of a function window clears (R20): the RC fields of PLT.BELLSTAT, HOSTERR, COMMONSTAT, FAULTSTAT, IGNORED and MBOXFROM. -/
def State.clearFunction (s : State) (fn : Fn) (off : Nat) : State :=
  match off with
  | 0x48 => s.modPlot fn (fun p => { p with host.errRefused := 0 })
  | 0x58 => s.readMbox fn
  | 0x110 => s.modPlot fn (fun p => { p with bell := { p.bell with late := 0, slip := 0, rejected := 0, overrun := 0, heldCount := 0 } })
  | 0x138 => s.modPlot fn (fun p => { p with commons.dropped := 0, commons.refused := 0 })
  | 0x148 => s.modPlot fn (fun p => { p with faults.lost := 0, faults.retried := 0 })
  | 0x1020 => s.modPlot fn (fun p => { p with counts.ignored := 0 })
  | _ => s

/-! ### The core windows (R411) -/

/-- The core that a position of a function's core windows names: module coordinates for function 0, plot-relative for the others; `none` where the function's plot holds no core (R411). -/
def State.windowCore (s : State) (fn : Fn) (y x : BitVec 6) : Option CoreId :=
  let p := s.plot fn
  let c := if fn == 0 then coreAt y.toNat x.toNat else coreAt (p.place.originY.toNat + y.toNat) (p.place.originX.toNat + x.toNat)
  if (fn == 0 || (y.toNat < p.place.rows.toNat && x.toNat < p.place.cols.toNat)) && (s.core c).owner == some fn then some c else none

/-- CORE.ARRAYMAP of a logical core (R130), as the reeve has set it (R42). -/
def State.arrayMapWord (s : State) (c : CoreId) : Word :=
  let m := (s.physCore c).planned
  pack [(0, m.colEnable.toNat), (34, min 2 ((List.range 34).filter (fun i => m.bad.getLsbD i)).length), (36, m.live.toNat)]

/-- The first fifteen registers of a core window (R411). -/
def State.coreLow (s : State) (cid : CoreId) (k : Nat) : Word :=
  let c := s.core cid
  let w := c.work
  match k with
  | 0 => c.tables.featPos
  | 1 => c.tables.featPlot
  | 2 => pack [(0, 0x20), (6, 0x10), (11, 0x200), (22, 0x400), (33, 0x2000)]
  | 3 => 2
  | 4 => pack [(0, w.entry.mainNext.toNat), (16, w.entry.fillNext.toNat), (31, b2n w.entry.fillEn)]
  | 5 => pack [(0, w.issue.ssat.toNat), (16, w.issue.wait.toNat), (40, w.issue.fill.toNat)]
  | 6 => pack [(0, w.arith.overflow.toNat), (16, w.arith.underflow.toNat), (32, w.arith.bruise.toNat), (48, b2n w.arith.sumSat), (49, b2n w.arith.narrowSat), (50, b2n w.arith.contribSat)]
  | 7 => pack [(0, w.vec.sat.toNat), (16, w.vec.escape.toNat), (32, b2n w.vec.satSeen)]
  | 8 => pack [(0, c.scr.ce.toNat), (16, c.scr.ue.toNat), (24, c.scr.bruised.toNat), (40, c.scr.escape.toNat), (48, c.scr.scrubBruise.toNat)]
  | 9 => pack [(0, w.sync.doze.toNat), (24, w.sync.landed.toNat), (40, w.sync.held.toNat), (48, w.sync.spilled.toNat)]
  | 10 => pack [(0, c.mesh.linkColl.toNat), (16, c.mesh.wordColl.toNat), (32, c.mesh.postedWait.toNat)]
  | 11 => s.arrayMapWord cid
  | 12 => pack [(0, c.array.chaff.toNat), (24, c.array.cold.toNat), (32, c.array.checks.toNat), (40, c.array.accCe.toNat)]
  | 13 => c.tables.granary
  | 14 => c.totals.wcheck
  | _ => 0

/-- CORE.HANDLEn with its present STREAM field (R205, R230). -/
def CoreState.handleWord (c : CoreState) (n : Nat) : Word :=
  (AMap.get 0 c.tables.handle n &&& ~~~(0xC000000000 : Word)) ||| pack [(38, (AMap.get 0 c.work.own n).toNat)]

/-- A core window (R411). -/
def State.coreReg (s : State) (cid : CoreId) (off : Nat) : Word :=
  let c := s.core cid
  let k := off / 8
  if off % 8 != 0 then 0
  else if off < 0x78 then s.coreLow cid k
  else if 0x80 ≤ off && off < 0x100 then let g := AMap.get {} c.work.groups (k - 16); pack [(0, g.anchor.toNat), (10, b2n g.narrow)]
  else if 0x100 ≤ off && off < 0x140 then AMap.get 0 c.tables.ring (k - 32)
  else if 0x140 ≤ off && off < 0x180 then let p := AMap.get {} c.work.ringPtr (k - 40); pack [(0, p.wr.toNat), (16, p.tk.toNat), (32, p.rd.toNat), (48, p.spill.toNat)]
  else if 0x180 ≤ off && off < 0x200 then AMap.get 0 c.tables.handler (k - 48)
  else if 0x200 ≤ off && off < 0x400 then c.handleWord (k - 64)
  else if 0x400 ≤ off && off < 0xC00 then AMap.get 0 c.tables.desc (k - 128)
  else if 0xC00 ≤ off && off < 0x1400 then let j := k - 384; if j % 4 = 3 then 0 else AMap.get 0 c.tables.xchan (3 * (j / 4) + j % 4)
  else if 0x2000 ≤ off && off < 0x6000 then AMap.get 0 c.tables.slot (k - 1024)
  else 0

/-- What a read through a core window clears (R20, R411). -/
def CoreState.clearReg (c : CoreState) (off : Nat) : CoreState :=
  match off with
  | 0x28 => { c with work.issue := {} }
  | 0x30 => { c with work.arith := {} }
  | 0x38 => { c with work.vec := {} }
  | 0x40 => { c with scr := {} }
  | 0x48 => { c with work.sync := {} }
  | 0x50 => { c with mesh := {} }
  | 0x60 => { c with array := {} }
  | _ => c

/-! ### The module window (R412, R413) -/

/-- HUB.IDENT (R6). -/
def Grade.identWord (g : Grade) : Word := pack [(0, 0x4D32), (16, g.code), (20, 2), (24, 0x41), (32, g.rows), (40, 0x40), (48, g.channels / 32)]

/-- HUB.REFMON (R79). -/
def State.refmonWord (s : State) : Word :=
  let r := s.hub.refs
  pack [(0, b2n r.pcieOk), (1, b2n r.sysrefOk), (2, b2n r.holdover), (3, b2n (s.plots.any (fun p => p.2.step.holds.reference && p.2.bell.held))), (16, r.sysrefLosses.toNat), (32, r.pcieLosses.toNat),
        (48, if r.holdover then min 65535 ((s.hub.time - r.lostAt) / 1000000) else 0)]

/-- DS.STACKSTAT of a stack (R324, R335). -/
def State.stackWord (s : State) (k : Nat) : Word :=
  let t := s.hub.power.stackTemps.getD k 0
  if s.grade.channels ≤ 32 * k then pack [(9, 1)] else pack [(0, min t 255), (8, b2n (85 < t && t ≤ 95))]

/-- HUB.CATALOGUE of a slot (R492). -/
def State.catalogueWord (s : State) (k : Nat) : Word :=
  let e := AMap.get {} s.hub.flash.catalogue k
  pack [(0, e.state.toNat % 4), (16, e.verdict.toNat), (32, e.secVersion.toNat % 128), (39, b2n (s.slotLoaded k))]

/-- HUB.GROUP of a function (R528). -/
def GroupReg.word (g : GroupReg) : Word :=
  if g.joined then pack [(0, g.groupId.toNat), (8, g.root.toNat), (20, g.modules.toNat), (33, g.index.toNat), (45, 1), (46, g.cross.toNat)] else 0

/-- The hub registers of R412 below 0x400. -/
def State.hubReg (s : State) (off : Nat) : Word :=
  let h := s.hub
  if 0x100 ≤ off && off < 0x180 then s.stackWord ((off - 0x100) / 8)
  else if 0x300 ≤ off && off < 0x380 then s.catalogueWord ((off - 0x300) / 8)
  else
    match off with
    | 0x00 => s.grade.identWord
    | 0x08 => s.refmonWord
    | 0x10 => pack [(0, h.faults.sum.toNat), (8, h.faults.mask.toNat)]
    | 0x18 => h.counter.value
    | 0x20 => pack [(0, h.counter.next.toNat), (6, b2n h.counter.warn), (7, b2n h.counter.readOnly), (8, h.counter.retries.toNat)]
    | 0x28 => pack [(0, h.faults.lockPort.toNat), (4, b2n h.faults.lockEnable), (5, b2n h.faults.diverged), (8, h.faults.partner.toNat)]
    | 0x200 => pack [(0, h.boot.phase.toNat), (4, b2n h.boot.failed), (5, b2n h.boot.released), (6, b2n h.boot.line), (7, b2n h.boot.headerB), (8, h.boot.plotsLoaded.toNat), (16, h.boot.plotsFailed.toNat), (24, h.boot.bootMs.toNat)]
    | 0x208 => h.battery.timestamp
    | 0x210 => pack [(0, b2n h.battery.valid), (1, b2n h.battery.lost), (2, b2n h.battery.ended), (3, b2n h.keys.batteryKey.isSome)]
    | 0x220 => pack [(0, h.jtag.level.toNat), (2, h.jtag.fails.toNat), (4, b2n h.jtag.isOpen)]
    | 0x228 => pack [(0, s.system.module.toNat), (12, b2n s.system.root), (13, b2n s.system.standalone), (14, s.system.depth.toNat)]
    | 0x230 => pack [(0, s.system.frac.toNat), (3, s.system.stime.toNat)]
    | 0x238 => pack [(0, h.power.vset.toNat), (7, b2n h.power.ilimit), (8, h.power.icore.toNat), (32, h.power.pmod.toNat)]
    | 0x240 => pack [(0, b2n h.battery.pwrok), (1, b2n h.battery.brownout), (2, h.battery.rail.toNat), (6, b2n h.battery.thermtrip)]
    | 0x248 => pack [(0, h.power.hubTj.toNat), (8, h.power.optTmax.toNat), (16, h.power.optPort.toNat)]
    | _ => 0

/-- The registers of an optical port (R398, R536). -/
def Port.reg (p : Port) (off : Nat) : Word :=
  if 0x40 ≤ off && off < 0x88 then
    let l := AMap.get {} p.lanes ((off - 0x40) / 8)
    pack [(0, l.corr.toNat), (24, l.uncorr.toNat), (40, l.replay.toNat), (56, b2n l.failed)]
  else
    match off with
    | 0x00 => pack [(0, p.thresh.toNat), (24, p.overCount.toNat)]
    | 0x08 => pack [(0, p.state.toNat), (3, p.role.toNat), (5, p.neighbour.toNat), (17, p.nport.toNat), (21, p.failedLane.toNat), (25, b2n p.spareIn), (26, b2n p.skew), (27, p.delay.toNat)]
    | 0x10 => p.stall.setWidth 64
    | _ => 0

/-- Whether a physical row of a field is live in the grade (R3, R34). -/
def State.rowLive (s : State) (f r : Nat) : Bool := 16 * (f / 2) + r < s.grade.rows

/-- The row map of a field's row. -/
def State.fieldRow (s : State) (f r : Nat) : RowMap := AMap.get {} (s.field (BitVec.ofNat 3 f)).rows r

/-- Failed cores of a row, 0 to 4 (R34). -/
def RowMap.failed (r : RowMap) : Nat := min 4 ((List.range 36).filter (fun i => r.bad.getLsbD i)).length

/-- Every live row of the module as its spares remaining (R413). -/
def State.rowSpares (s : State) : List Nat :=
  (List.range 8).flatMap (fun f => ((List.range 16).filter (fun r => s.rowLive f r)).map (fun r => 4 - (s.fieldRow f r).failed))

/-- Spare bridge links left on an edge (R36). -/
def Edge.spares (g : Edge) : Nat := (((List.range 4).map (32 + ·)).filter (fun i => !g.bad.getLsbD i && !(g.serves ++ g.next).any (fun l => l.2 == i))).length

/-- Logical cores in the idle domain (R48, R413); none before bell zero (log entry 45). -/
def State.idleCores (s : State) : Nat := if !s.hub.boot.bellZero then 0 else 64 * s.grade.rows - (s.cores.filter (fun c => c.2.owner.isSome || c.2.clearing)).length

/-- The REEVE. registers (R413). -/
def State.reeveReg (s : State) (off : Nat) : Word :=
  let f := s.hub.faults
  let edges := (List.range 10).map (fun e => (AMap.get {} s.edges e).spares)
  match off with
  | 0x00 => pack [(0, f.log.length), (11, b2n f.logWrapped), (16, f.logLast.toNat), (32, f.logEntered.toNat)]
  | 0x08 => pack [(0, s.hub.idleBell.toNat), (48, s.idleCores)]
  | 0x10 => pack [(0, s.rowSpares.foldl (· + ·) 0), (16, (s.rowSpares.filter (fun n => n == 0)).length), (24, edges.foldl (· + ·) 0), (32, (edges.filter (fun n => n == 0)).length)]
  | 0x18 => pack [(0, 4096 - s.commons.owner.length), (16, 256 - (s.commons.mail.filter (fun m => m.2.assigned)).length)]
  | _ => 0

/-- FLD.ROWMAP of a row (R34). -/
def State.rowWord (s : State) (f r : Nat) : Word :=
  let m := s.fieldRow f r
  if s.rowLive f r then pack [(0, m.enable.toNat), (36, m.failed), (41, min 4 m.live.toNat)] else pack [(40, 1)]

/-- The channel that a field-local number names. -/
def fieldChannel (f c : Nat) : ChanId := BitVec.ofNat 9 (64 * f + c)

/-- The oscillator of a field in MHz (R65, R67): a free value between 1,100 MHz and the ceiling, less than 1% below the ceiling while the droop detector is not tripped (log entry 25). -/
def State.oscillator (s : State) (f : FieldId) : Nat :=
  let k := s.field f
  let low := if k.tripped then 1100 else max 1100 (ceilDiv (99 * k.ceiling.toNat) 100)
  min k.ceiling.toNat (max low (Config.oscillatorMHz f.toNat s.hub.time).toNat)

/-- The registers of a field (R67, R334, R412, R559). -/
def State.fieldReg (s : State) (f off : Nat) : Word :=
  let k := s.field (BitVec.ofNat 3 f)
  if off < 0x80 then s.rowWord f (off / 8)
  else if off == 0x80 then
    pack [(0, if s.hub.time < 1024 then 0 else s.oscillator (BitVec.ofNat 3 f)), (16, k.ceiling.toNat), (32, k.droops.toNat), (48, k.floors.toNat)]
  else if off == 0x88 then pack [(0, k.tj.toNat), (8, k.tjMax.toNat), (16, k.thermCeil.toNat), (27, b2n (AMap.get {} s.fieldHold f).held)]
  else if 0x1000 ≤ off && off < 0x1200 then
    let ch := s.channel (fieldChannel f ((off - 0x1000) / 8))
    pack [(0, if ch.owner.isSome then ch.ordinal.toNat else 0), (9, b2n ch.owner.isSome), (10, (ch.owner.getD 0).toNat), (18, b2n (ch.live && 64 * f + (off - 0x1000) / 8 < s.grade.channels))]
  else if 0x1400 ≤ off && off < 0x1600 then
    let ch := s.channel (fieldChannel f ((off - 0x1400) / 8))
    pack [(0, ch.stat.ce.toNat), (16, ch.stat.ue.toNat), (24, ch.stat.stall.toNat), (40, ch.stat.refresh.toNat), (48, ch.journal.length)]
  else if 0x80000 ≤ off && off < 0xA0000 then
    let j := off - 0x80000
    AMap.get 0 (s.channel (fieldChannel f (j / 0x800))).entry (j % 0x800 / 8)
  else 0

/-- A read-only copy of a function window at an offset of the module window, if it is one (R412). -/
def windowCopy (off : Nat) : Option (Fn × Nat) := if 0x2000000 ≤ off && off < 0x3000000 then some (BitVec.ofNat 8 ((off - 0x2000000) / 0x10000), (off - 0x2000000) % 0x10000) else none

/-- The module window of function 0 (R412). -/
def State.moduleReg (s : State) (off : Nat) : Word :=
  if off % 8 != 0 then 0
  else if off < 0x400 then s.hubReg off
  else if off < 0x460 then Config.idKey ((off - 0x400) / 8)
  else if 0x800 ≤ off && off < 0x1000 then (s.plot (BitVec.ofNat 8 ((off - 0x800) / 8))).group.word
  else if 0x1000 ≤ off && off < 0x5000 then (s.port (BitVec.ofNat 4 ((off - 0x1000) / 0x400))).reg (off % 0x400)
  else if 0x10000 ≤ off && off < 0x20000 then s.reeveReg (off - 0x10000)
  else if 0x100000 ≤ off && off < 0x900000 then s.fieldReg (off / 0x100000 - 1) (off % 0x100000)
  else
    match windowCopy off with
    | some (fn, o) => s.functionReg fn o
    | none => 0

/-- What a read of the module window clears (R20): DS.CHSTAT, OPT.STALL and the copies of function windows. -/
def State.clearModule (s : State) (off : Nat) : State :=
  if 0x1000 ≤ off && off < 0x5000 && off % 0x400 == 0x10 then
    let p : PortId := BitVec.ofNat 4 ((off - 0x1000) / 0x400)
    s.setPort p { s.port p with stall := 0 }
  else if 0x100000 ≤ off && off < 0x900000 && 0x1400 ≤ off % 0x100000 && off % 0x100000 < 0x1600 then
    let ch := fieldChannel (off / 0x100000 - 1) ((off % 0x100000 - 0x1400) / 8)
    s.setChannel ch { s.channel ch with stat := {} }
  else
    match windowCopy off with
    | some (fn, o) => s.clearFunction fn o
    | none => s

/-! ### Reads (R20, R409) -/

/-- What a host read of a register returns. -/
def State.readReg (s : State) (fn : Fn) (addr : RegAddr) : Word :=
  match addr with
  | .function off => s.functionReg fn off.toNat
  | .core y x off => match s.windowCore fn y x with | some c => s.coreReg c off.toNat | none => 0
  | .module off => if fn == 0 then s.moduleReg off.toNat else 0

/-- What a host read of a register clears. -/
def State.clearRead (s : State) (fn : Fn) (addr : RegAddr) : State :=
  match addr with
  | .function off => s.clearFunction fn off.toNat
  | .core y x off => match s.windowCore fn y x with | some c => s.modCore c (fun k => k.clearReg off.toNat) | none => s
  | .module off => if fn == 0 then s.clearModule off.toNat else s

/-- READ_CLEAR (R20): a host read of a register with its clearing of RC fields. -/
def execReadClear (fn : Fn) (addr : RegAddr) (s : State) : Host.Outcome State Fault Refusal :=
  let v := s.readReg fn addr
  .next ((s.clearRead fn addr).modHub (fun h => { h with hostRead := v }))

/-! ### Writes (R21, R62, R135, R349, R382, R409, R434, R455) -/

/-- The value that an access writes over a register that holds `old`: a 32-bit access changes its half (R409). -/
def mergeAccess (z : AccessSize) (old v : Word) : Option Word :=
  match z with
  | .whole => some v
  | .low => some ((old &&& 0xFFFFFFFF00000000) ||| (v &&& 0xFFFFFFFF))
  | .high => some ((old &&& 0xFFFFFFFF) ||| ((v &&& 0xFFFFFFFF) <<< 32))
  | .other => none

/-- A write of PLT.BELLCTL (R62): held in the register at once; out of range, ignored. -/
def State.writeBellctl (s : State) (fn : Fn) (v : Word) : State :=
  let old := (s.plot fn).bell.ctl
  let changed (lo len top : Nat) : Bool := fieldOf v lo len != fieldOf old lo len && top < fieldOf v lo len
  if changed 0 2 1 || changed 16 12 4000 || changed 32 12 4000 then s.ignoreWrite fn 0x108
  else s.modPlot fn (fun p => { p with bell.ctl := v &&& 0x00000FFF0FFF0007 })

/-- BELLCTL_WRITE (R62). -/
def execBellctlWrite (fn : Fn) (v : Word) (s : State) : Host.Outcome State Fault Refusal := .next (s.writeBellctl fn v)

/-- The register of an RWL field (its window offset), the field's lowest bit and its width (R99, R135, R349). -/
def rwlBits : RwlField → Nat × Nat × Nat
  | .bruiseNan => (0x120, 0, 1)
  | .rampDown => (0x128, 0, 10)
  | .rampUp => (0x128, 16, 8)
  | .floor => (0x128, 32, 6)
  | .requireSigned => (0x140, 3, 1)
  | .steps => (0x140, 32, 13)

/-- The value of an RWL field. -/
def PlotRegs.rwl (r : PlotRegs) : RwlField → Nat
  | .bruiseNan => b2n r.bruiseNan
  | .rampDown => r.rampDown.toNat
  | .rampUp => r.rampUp.toNat
  | .floor => r.chaffFloor.toNat
  | .requireSigned => b2n r.requireSigned
  | .steps => r.steps.toNat

/-- The stated range of an RWL field (R99, R135, R349). -/
def rwlRange : RwlField → Nat × Nat
  | .bruiseNan => (0, 1)
  | .rampDown => (64, 1023)
  | .rampUp => (16, 255)
  | .floor => (0, 32)
  | .requireSigned => (0, 1)
  | .steps => (1, 4096)

/-- Whether a value lies in the range of an RWL field. -/
def rwlIn (f : RwlField) (n : Nat) : Bool := (rwlRange f).1 ≤ n && n ≤ (rwlRange f).2

/-- Whether a write may give an RWL field a value: one in its range, or the one it holds, which is not judged (R409); of STEPS a value out of range is ignored in any case (R349). -/
def PlotRegs.rwlOk (r : PlotRegs) (f : RwlField) (n : Nat) : Bool := rwlIn f n || (f != .steps && n == r.rwl f)

/-- An RWL field set by the host, which marks it as written (R21). -/
def PlotRegs.setRwl (r : PlotRegs) (f : RwlField) (n : Nat) : PlotRegs :=
  match f with
  | .bruiseNan => { r with bruiseNan := n == 1, wroteNan := true }
  | .rampDown => { r with rampDown := BitVec.ofNat 10 n, wroteRampDown := true }
  | .rampUp => { r with rampUp := BitVec.ofNat 8 n, wroteRampUp := true }
  | .floor => { r with chaffFloor := BitVec.ofNat 6 n, wroteFloor := true }
  | .requireSigned => { r with requireSigned := n == 1, wroteSigned := true }
  | .steps => { r with steps := BitVec.ofNat 13 n, wroteSteps := true }

/-- A host write that gives RWL fields of one register the values listed (R21, R409): ignored as a whole once an image is loaded, or when a value is out of range. Each field that it gives a value in range counts as written by the host, a value that it repeats included. -/
def State.writeRwl (s : State) (fn : Fn) (offset : Nat) (l : List (RwlField × Nat)) : State :=
  let p := s.plot fn
  if p.place.image.isSome || l.any (fun x => !p.regs.rwlOk x.1 x.2) then s.ignoreWrite fn offset
  else s.setPlot fn { p with regs := l.foldl (fun r x => if rwlIn x.1 x.2 then r.setRwl x.1 x.2 else r) p.regs }

/-- Whether an access writes the bits of a register from `lo` up (R409). -/
def accessCovers (z : AccessSize) (lo : Nat) : Bool :=
  match z with
  | .whole => true
  | .low => lo < 32
  | .high => 32 ≤ lo
  | .other => false

/-- A host write of a register with RWL fields: it writes every field in the half or halves that it accesses (R21, R409). -/
def State.writeRwlRegister (s : State) (fn : Fn) (offset : Nat) (fields : List RwlField) (z : AccessSize) (w : Word) : State :=
  match (fields.filter (fun f => accessCovers z (rwlBits f).2.1)).map (fun f => (f, fieldOf w (rwlBits f).2.1 (rwlBits f).2.2)) with
  | [] => s
  | l => s.writeRwl fn offset l

/-- RWL_FIELD_WRITE (R21): a write to one named field. -/
def execRwlFieldWrite (fn : Fn) (field : RwlField) (v : Word) (s : State) : Host.Outcome State Fault Refusal := .next (s.writeRwl fn (rwlBits field).1 [(field, v.toNat)])

/-- The cores of a plot start a diagnostic step at an entry address, the fill stream idle (R455). -/
def State.beginDiag (s : State) (fn : Fn) : State :=
  let e := (s.plot fn).counts.diagEntry.toNat
  let s := s.mapCores fn (fun c => let k := c.beginStep; { k with step.main.next := e, step.fill.stopped := true })
  s.modPlot fn (fun p => { p with step := { p.step with phase := .diagnostic, released := p.fieldMask } })

/-- A write of PLT.DIAG (R455). -/
def State.writeDiag (s : State) (fn : Fn) (v : Word) : State :=
  let p := s.plot fn
  let steps := fieldOf v 16 8
  let go := bitOf v 24
  if (steps != p.counts.diagSteps.toNat && steps = 0) || (go && (p.place.state != 5 || p.counts.diagBusy || steps = 0)) then s.ignoreWrite fn 0x1028
  else
    let s := s.setPlot fn { p with counts.diagEntry := v.extractLsb' 0 13, counts.diagSteps := BitVec.ofNat 8 steps }
    if go then (s.modPlot fn (fun p => { p with counts.diagBusy := true, counts.diagLeft := steps })).beginDiag fn else s

/-- DIAG_GO (R455): a write of PLT.DIAG with GO set. -/
def execDiagGo (fn : Fn) (v : Word) (s : State) : Host.Outcome State Fault Refusal := .next (s.writeDiag fn (v ||| 0x1000000))

/-- DIAG_STEP (R455): the diagnostic step ends at the arrival of every core or at a class P or class S fault, is undone, and the next one starts unless a fault cancels it. -/
def execDiagStep (fn : Fn) (fault : Option DiagFault) (s : State) : Host.Outcome State Fault Refusal :=
  let p := s.plot fn
  if !p.counts.diagBusy then .next s
  else
    let given : List Report := match fault with
      | some f => [{ code := f.code, core := coreDest f.core, attempt := p.bell.attempt, bell := p.bell.bell, offset := f.offset.setWidth 32, site := f.site, function := fn, hostTag := p.run.hostTag, time := s.stamp }]
      | none => []
    let rs := s.attemptReports fn ++ given
    let bad := rs.any (fun r => r.cls == .program || r.cls == .system)
    if !bad && !p.cores.all (fun c => (s.core c).totals.arrived) then .next s
    else
    let s := (s.queueReports fn rs).restorePlot fn
    let left := if bad then 0 else p.counts.diagLeft - 1
    let s := s.modPlot fn (fun p => { p with counts.diagLeft := left, counts.diagBusy := left != 0, step := p.step.fresh })
    .next (if left = 0 then s else s.beginDiag fn)

/-- A write of HUB.FAULTSUM (R382): ones clear, and MASK is written. -/
def State.writeFaultsum (s : State) (v : Word) : State :=
  s.modHub (fun h => { h with faults.sum := h.faults.sum &&& ~~~(v.extractLsb' 0 5), faults.mask := v.extractLsb' 8 5 })

/-- FAULTSUM_CLEAR (R382). -/
def execFaultsumClear (v : Word) (s : State) : Host.Outcome State Fault Refusal := .next (s.writeFaultsum v)

/-- A write of PLT.IRQCTL (R434). -/
def State.writeIrqctl (s : State) (fn : Fn) (v : Word) : State :=
  let p := s.plot fn
  let batch := fieldOf v 32 16
  if batch = 0 && p.host.batch != 0 then s.ignoreWrite fn 0x40
  else s.setPlot fn { p with host.cqEn := bitOf v 0, host.mboxEn := bitOf v 1, host.errEn := bitOf v 2, host.holdoff := v.extractLsb' 16 16, host.batch := BitVec.ofNat 16 batch }

/-- A host write in the function window; a register that takes no write is left as it is (R20, R409, R410). -/
def State.writeFunction (s : State) (fn : Fn) (off : Nat) (z : AccessSize) (v : Word) : State :=
  let old : Word := match off with
    | 0x50 => (s.plot fn).host.mboxTo
    | _ => s.functionReg fn off
  match mergeAccess z old v with
  | none => s
  | some w =>
    match off with
    | 0x00 => s.writeRing fn false 0x00 (fun r => r.writeBase w)
    | 0x08 => s.ringCtl fn false w
    | 0x10 => s.writeRing fn false 0x10 (fun r => r.doorbell (w.setWidth 32))
    | 0x20 => s.writeRing fn true 0x20 (fun r => r.writeBase w)
    | 0x28 => s.ringCtl fn true w
    | 0x30 => s.writeRing fn true 0x30 (fun r => r.consume (w.setWidth 32))
    | 0x40 => s.writeIrqctl fn w
    | 0x50 => s.mailCommand fn w
    | 0x108 => s.writeBellctl fn w
    | 0x120 => s.writeRwlRegister fn 0x120 [.bruiseNan] z w
    | 0x128 => s.writeRwlRegister fn 0x128 [.rampDown, .rampUp, .floor] z w
    | 0x140 => s.writeRwlRegister fn 0x140 [.requireSigned, .steps] z w
    | 0x1028 => s.writeDiag fn w
    | _ => s

/-- REGISTER_WRITE (R409, R412): a host write of a register. -/
def execRegisterWrite (fn : Fn) (addr : RegAddr) (size : AccessSize) (v : Word) (s : State) : Host.Outcome State Fault Refusal :=
  match addr with
  | .function off => .next (s.writeFunction fn off.toNat size v)
  | .core _ _ _ => .next s
  | .module off =>
    if fn == 0 && off == 0x10 then
      match mergeAccess size (pack [(8, s.hub.faults.mask.toNat)]) v with
      | some w => .next (s.writeFaultsum w)
      | none => .next s
    else .next s

end Sys2Proof.Machine
end

