-- ==== Sys2Proof/Machine/Startup.lean ====
section
/-! DEFINITION. Start-up and resets (R470 to R479, R483 to R485, R492): the phases, LOADED_N, bell zero, loss of power, the battery domain (R501, R541, R544, R546, R558). -/

namespace Sys2Proof.Machine

/-! ### Loss of power (R479, R544, R546, R558) -/

/-- What a fall of PWR_OK leaves (R479): the fuses with the counter and the identity key, the flash, the battery domain, which begins a new second of its own oscillator (log entry 124), and the levels that the board drives; every other field at reset. -/
def State.powerLost (s : State) : State :=
  let h := s.hub
  { State.reset with
    grade := s.grade
    hub :=
      { pins := { h.pins with pcieUp := false }
        keys := { h.keys with withheld := false }
        flash := { mem := h.flash.mem }
        counter := { h.counter with warnedNow := false }
        battery := { h.battery with sub := 0 }
        boot := {} }
    pending := s.pending }

/-- PWR_OK_FALL (R479, R544, R546, R558): the fall ends the hold of a rail trip or of a thermal trip, whose cause stays; otherwise it is the cause itself. -/
def execPwrOkFall (s : State) : Host.Outcome State Fault Refusal :=
  if !s.hub.pins.pwrOk then .next s
  else
    let latched := s.hub.pins.powerLatched
    .next (s.powerLost.modHub (fun h =>
      { h with
        pins := { h.pins with pwrOk := false, powerLatched := false, thermtripN := true }
        battery := if latched then { h.battery with lost := false } else { h.battery with lost := false, pwrok := true, brownout := false, rail := 0xF, thermtrip := false } }))

/-- PWR_OK_RISE (R470, R537): a cold start begins at phase 0, and the strap TREE_ROOT_N is sampled. -/
def execPwrOkRise (s : State) : Host.Outcome State Fault Refusal :=
  if s.hub.pins.pwrOk then .next s
  else .next { s.modHub (fun h => { h with pins.pwrOk := true, battery.sub := 0 }) with system.root := !s.hub.pins.treeRootN }

/-- The module acts as on a fall of PWR_OK, holds FAULT_N low and ignores PWR_OK until it falls (R544). -/
def State.tripped (s : State) (b : Battery → Battery) : State :=
  s.powerLost.modHub (fun h => { h with pins.powerLatched := true, battery := b h.battery })

/-- RAIL_TRIP (R544, R546): a rail of R538 is past its trip limit. -/
def execRailTrip (rail : BitVec 4) (s : State) : Host.Outcome State Fault Refusal :=
  if !s.hub.pins.pwrOk || s.hub.pins.powerLatched || 9 < rail.toNat then .next s
  else .next (s.tripped (fun b => { b with pwrok := false, brownout := true, rail := rail, thermtrip := false }))

/-- THERMTRIP (R546, R558): THERMTRIP_N is asserted until PWR_OK falls. The sensor changes nothing. -/
def execThermtrip (_sensor : Nat) (s : State) : Host.Outcome State Fault Refusal :=
  if !s.hub.pins.pwrOk || s.hub.pins.powerLatched then .next s
  else .next ((s.tripped (fun b => { b with pwrok := false, brownout := false, rail := 0xF, thermtrip := true })).modHub (fun h => { h with pins.thermtripN := false }))

/-! ### The battery domain (R501, R541, R546) -/

/-- The battery domain lost: the calendar restarts, its key is zeroised, HUB.PWRCAUSE reads 0. -/
def Hub.loseBattery (h : Hub) : Hub := { h with battery := { lost := true }, keys.batteryKey := none }

/-- VBAT_LOSS (R501, R541): the domain is lost without VIO. -/
def execVbatLoss (s : State) : Host.Outcome State Fault Refusal := .next (s.modHub (fun h => ({ h with pins.vbat := false } : Hub).loseBattery))

/-- VBAT_APPLIED (R501, R504): the domain starts running in its lost state. -/
def execVbatApplied (s : State) : Host.Outcome State Fault Refusal :=
  .next (if s.hub.pins.vbat then s else s.modHub (fun h => ({ h with pins.vbat := true } : Hub).loseBattery))

/-- CALENDAR_END (R501, R505): with the hub cycles given, or nanoseconds without power, the calendar reaches its last instant and stops. -/
def execCalendarEnd (dh : Nat) (s : State) : Host.Outcome State Fault Refusal := .next (s.advance dh)

/-! ### Phases 0 to 3 (R470, R471, R484, R485, R492) -/

/-- Whether start-up runs in phase `k`. -/
def State.inPhase (s : State) (k : Nat) : Bool := s.hub.pins.pwrOk && !s.hub.pins.powerLatched && !s.hub.boot.failed && s.hub.boot.phase.toNat == k

/-- RESET_PHASE_DONE (R470, R473, R539): the PLL is locked, the reeve drives VSET, and a controller whose PERST_N is deasserted leaves reset. -/
def execResetPhaseDone (s : State) : Host.Outcome State Fault Refusal :=
  if !s.inPhase 0 then .next s
  else .next ((s.modHub (fun h => { h with boot.phase := 1, refs.sysrefOk := true, pins.pcieUp := h.pins.perstN && h.refs.pcieOk })).driveVset)

/-- HUB_TEST_DONE (R470, R471): a failure halts the module in phase 1 and reports no code. -/
def execHubTestDone (pass : Bool) (s : State) : Host.Outcome State Fault Refusal :=
  if !s.inPhase 1 then .next s
  else .next (s.modHub (fun h => if pass then { h with boot.phase := 2 } else { h with boot.failed := true }))

/-- KEYS_DONE (R470, R498, R500): JTAG is locked. -/
def execKeysDone (s : State) : Host.Outcome State Fault Refusal :=
  if !s.inPhase 2 then .next s else .next (s.modHub (fun h => { h with boot.phase := 3, jtag.isOpen := false }))

/-- The boot header in use and its catalogue, every valid entry with its verdict; a pending slot is empty (R484, R492, R496). -/
def State.readHeader (s : State) : State :=
  let f := s.hub.flash
  match newerCopy (f.headerGen false) (f.headerGen true) with
  | none => (s.modHub (fun h => { h with flash := { h.flash with catalogue := [], generation := 0 }, boot.headerB := false })).logReport 0x5001 0 0 0
  | some b =>
    let raw := f.read (headerOffset b) 4096
    let cat : AMap CatEntry := (List.range 16).foldl (fun m k => let e := headerEntry raw k; if e.state == 1 then AMap.set m k (e.verify s.hub.keys f) else m) []
    s.modHub (fun h => { h with flash := { h.flash with catalogue := cat, generation := BitVec.ofNat 32 ((f.headerGen b).getD 0) }, boot.headerB := b })

/-- GENERATION of a configuration copy when it is valid (R485). -/
def Flash.configGenOf (f : Flash) (b : Bool) : Option Nat := let raw := f.read (configOffset b) 4096; if configOk raw then some (fieldBytes raw 4 4) else none

/-- The configuration block in use (R399, R485): lock-step, LOADED_POLICY and the start-up plots; without one, none of them. -/
def State.readConfig (s : State) : State :=
  let f := s.hub.flash
  match newerCopy (f.configGenOf false) (f.configGenOf true) with
  | none =>
    (s.modHub (fun h => { h with faults := { h.faults with lockPort := 0, lockEnable := false, partner := 0 }, flash := { h.flash with start := [], loadedPolicy := false, configGen := 0, configB := false } })).logReport 0x5001 0 0 0
  | some b =>
    let raw := f.read (configOffset b) 4096
    s.modHub (fun h => { h with
      faults := { h.faults with lockPort := BitVec.ofNat 4 (fieldBytes raw 8 1), lockEnable := 16 ≤ fieldBytes raw 8 1 % 32, partner := BitVec.ofNat 12 (fieldBytes raw 9 2) }
      flash := { h.flash with start := configStarts raw, loadedPolicy := fieldBytes raw 11 1 == 1, configGen := BitVec.ofNat 32 (fieldBytes raw 4 4), configB := b } })

/-- FLASH_PHASE_DONE (R470, R484, R485, R492). -/
def execFlashPhaseDone (s : State) : Host.Outcome State Fault Refusal :=
  if !s.inPhase 3 then .next s else .next (s.readHeader.readConfig.modHub (fun h => { h with boot.phase := 4 }))

/-! ### Phase 4 (R478) -/

/-- A physical core that failed its test: marked failed; an enabled one is replaced, or its row keeps its healthy cores. -/
def State.testCore (s : State) (f : FieldId) (row col : Nat) : State :=
  let k := s.field f
  let r := AMap.get {} k.rows row
  if 36 ≤ col || r.bad.getLsbD col then s
  else
    let y := r.fail col
    let x : RowMap × Bool := if r.enable.getLsbD col then (if y.2 then y else ({ y.1 with enable := r.enable &&& ~~~(BitVec.ofNat 36 (2 ^ col)) }, false)) else ({ r with bad := r.bad ||| BitVec.ofNat 36 (2 ^ col), live := satAdd r.live 1 }, true)
    let s := s.setField f { k with rows := AMap.put {} k.rows row x.1 }
    if x.2 then s.logReport 0x3002 (BitVec.ofNat 64 (row + 2 ^ 4 * col + 2 ^ 10 * f.toNat)) (x.1.enable.setWidth 64) 0 else s.logReport 0x3003 0 0 0

/-- An array column that failed its test (R129): remapped; a third one marks the core failed. -/
def State.testColumn (s : State) (c : CoreId) (col : Nat) : State :=
  let k := s.physCore c
  if 34 ≤ col || k.map.bad.getLsbD col then s
  else if k.map.colEnable.getLsbD col then
    match k.map.replace col with
    | none => s.testCore (fieldOfCore c) (rowOf c % 16) (s.physOf c)
    | some m => (s.setPhysCore c { k with map := m }).logReport 0x3008 (BitVec.ofNat 64 col) (m.colEnable.setWidth 64) 0
  else (s.setPhysCore c { k with map.bad := k.map.bad ||| BitVec.ofNat 34 (2 ^ col), map.live := satAdd k.map.live 1 }).logReport 0x3008 (BitVec.ofNat 64 col) (k.map.colEnable.setWidth 64) 0

/-- Field and side that name a shared edge in a report (R378): south of fields 0 to 5, east of the west field of a field row. -/
def edgeName (e : Nat) : Word := if e < 6 then BitVec.ofNat 64 (e + 2 ^ 3 * 2) else BitVec.ofNat 64 (2 * (e - 6) + 2 ^ 3 * 1)

/-- A bridge link that failed its test: replaced at once where a spare is left (R478). -/
def State.testBridge (s : State) (e link : Nat) : State :=
  let g := AMap.get {} s.edges e
  if 10 ≤ e || 36 ≤ link || g.bad.getLsbD link then s
  else ({ s with edges := AMap.put {} s.edges e ((g.fail link).1.take (fun _ => true)) } : State).logReport 0x3006 (edgeName e) (BitVec.ofNat 64 link) 0

/-- A deep-store channel that failed its test: it is never bound. -/
def State.testChannel (s : State) (ch : ChanId) : State :=
  if !s.hasChannel ch then s else (s.setChannel ch { s.channel ch with live := false }).logReport 0x3005 (ordinalWord 0) 0 0

/-- One finding of the self-test. -/
def State.testFinding (s : State) : TestFinding → State
  | .core f row col => s.testCore f row.toNat col.toNat
  | .column c col => if s.hasCore c then s.testColumn c col.toNat else s
  | .bridge e link => s.testBridge e link.toNat
  | .channel ch => s.testChannel ch

/-- LIVE counts from 0, and deep store is cleared (R470, R478). -/
def State.beginTest (s : State) : State :=
  { s with
    fields := s.fields.map (fun f => (f.1, { f.2 with rows := f.2.rows.map (fun r => (r.1, { r.2 with live := 0 })), arrays := f.2.arrays.map (fun a => (a.1, { a.2 with map.live := 0 })) }))
    channels := s.channels.map (fun c => (c.1, { c.2 with mem := [], bruise := [], damage := [] })) }

/-- Whether phases 4 and 5 run; PHASE reads 4 until the self-test has ended, then 5 (log entry 44). -/
def State.testing (s : State) : Bool := s.inPhase 4 || s.inPhase 5

/-- FIELD_TEST_DONE (R470, R478): the findings in order. -/
def execFieldTestDone (findings : List TestFinding) (s : State) : Host.Outcome State Fault Refusal :=
  if !s.testing || s.hub.boot.fieldTested then .next s
  else .next ((findings.foldl State.testFinding s.beginTest).modHub (fun h => { h with boot.fieldTested := true, boot.phase := if h.boot.linked then 6 else 5 }))

/-! ### Phases 6 to 8 (R473 to R476, R516) -/

/-- LOAD_PHASE_DONE (R474, R476): the start-up plots are loaded; LOADED_N is released unless the policy holds it. -/
def execLoadPhaseDone (s : State) : Host.Outcome State Fault Refusal :=
  if !s.inPhase 6 then .next s
  else
    let t := s.loadStarts true
    .next (t.modHub (fun h => if h.boot.plotsFailed != 0 && h.flash.loadedPolicy then { h with boot.failed := true } else { h with boot.phase := 7, boot.released := true }))

/-- LOADED_N_RISE (R474, R516): the line has been high for 1,000 hc; the root of a system sends the epoch of bell zero. -/
def execLoadedNRise (dh : Nat) (s : State) : Host.Outcome State Fault Refusal :=
  let s := s.advance dh
  if !s.inPhase 7 || s.hub.boot.risen then .next s
  else
    let s := s.modHub (fun h => { h with boot.line := true, boot.risen := true })
    if !s.system.root then .next s
    else
      let e := s.system.stime.toNat + 10000
      .next ({ s with system.ringFrom := some e }.sendAll (bellWord 3 0xFF 0 e))

/-- LOADED_N_FALL (R474, R476): before the rise is taken, the count restarts; after it the level means nothing. -/
def execLoadedNFall (s : State) : Host.Outcome State Fault Refusal :=
  .next (if s.hub.boot.risen || s.hub.boot.bellZero then s else s.modHub (fun h => { h with boot.line := false }))

/-- Whether the module may ring bell zero (R474, R516): a module in no system once the line has risen, a module of a system at its epoch. -/
def State.mayRingZero (s : State) : Bool :=
  s.inPhase 7 && s.hub.boot.risen && (s.system.standalone || (match s.system.ringFrom with | some e => e ≤ s.system.stime.toNat | none => false))

/-- BELL_ZERO (R50, R473, R474): phase 8, BOOT_MS; every plot that exists takes it as its bell 0, and it is bell 0 of the idle domain, each with the packets that wait for it. -/
def execBellZero (dh : Nat) (s : State) : Host.Outcome State Fault Refusal :=
  let s := s.advance dh
  if !s.mayRingZero then .next s
  else
    let s : State := { s with system.ringFrom := none }
    let s := s.modHub (fun h => { h with boot := { h.boot with phase := 8, bellZero := true, zeroAt := h.time, bootMs := BitVec.ofNat 24 (min (h.time / 1000000) (2 ^ 24 - 1)) }, idleBell := 0 })
    .next (((s.plotNumbers.filter (fun fn => (s.plot fn).place.state == 1 || (s.plot fn).place.state == 2)).foldl State.emptyBell s).takeIdle)

end Sys2Proof.Machine
end

