-- ==== Sys2Proof/Machine/Links.lean ====
section
/-! DEFINITION. Optical links (R506 to R537): lanes and retry, training, bell words of the tree, joins, group bells, inter-module flits at their gates, links that go down. -/

namespace Sys2Proof.Machine

/-! ### Lanes (R509, R511, R512) -/

/-- A command of one physical lane; there are nine. -/
def laneCommand (s : State) (port : PortId) (lane : BitVec 4) (act : Port → Lane → State) : Host.Outcome State Fault Refusal :=
  if 8 < lane.toNat then .fault .noSuchLane else .next (act (s.port port) (AMap.get {} (s.port port).lanes lane.toNat))

/-- Replaces a lane of a port. -/
def State.setLane (s : State) (port : PortId) (lane : BitVec 4) (l : Lane) : State :=
  let p := s.port port
  s.setPort port { p with lanes := AMap.put {} p.lanes lane.toNat l }

/-- CODEWORD_RECEIVED (R509, R511, R512): up to 15 symbol errors are corrected and counted; more are uncorrectable, counted and answered by a NAK. After one, codewords are discarded until the named SEQ comes again. -/
def execCodewordReceived (port : PortId) (lane : BitVec 4) (seq : BitVec 12) (symbolErrors : Nat) (s : State) : Host.Outcome State Fault Refusal :=
  laneCommand s port lane (fun _ l =>
    if 15 < symbolErrors then
      s.setLane port lane { l with uncorr := satAdd l.uncorr 1, discarding := true, nakDue := if !l.discarding || seq == l.recvSeq then some seq else l.nakDue }
    else
      let l : Lane := { l with corrNow := l.corrNow + symbolErrors }
      s.setLane port lane (if l.discarding && seq != l.recvSeq then l else { l with recvSeq := seq + 1, discarding := false, nakDue := none }))

/-- The groups of this module whose traffic or bells use a port (R529, R535). -/
def State.portGroups (s : State) (port : PortId) : List Fn :=
  s.plotNumbers.filter (fun fn =>
    let g := (s.plot fn).group
    g.joined && ((s.port port).role == 1 || g.members.any (fun m => m != s.system.module && (s.portTo m == port || ((s.port port).role == 2 && inSubtree (s.port port).neighbour m)))))

/-- A plot of a group stops for a link that has gone down (R374, R535): in a running step at the bell that opened it, otherwise at the bell at which it stands. -/
def State.linkStop (s : State) (fn : Fn) (d0 d1 : Word) : State :=
  let p := s.plot fn
  if p.place.state != 3 then s
  else
    let told := s.modPlot fn (fun p => p.hubReport fn 0x3006 s.stamp d0 d1 0)
    if p.step.attempting then told.judge fn else if p.step.phase == .abandoned then told else s.stopBetween fn 0x3006 d0 d1 0

/-- A paired plot when the lock-step port goes down (R403): it stops at the bell at which it waits for its partner. -/
def State.lockStop (s : State) (fn : Fn) : State :=
  let p := s.plot fn
  if p.step.rung then s.lockDown fn
  else if p.step.phase == .held && p.step.holds.partner then s.meetPartner fn
  else s

/-- An optical port goes down (R403, R535): LINK_DOWN for the groups that use it, or in the reeve's log. -/
def State.opticalDown (s : State) (port : PortId) : State :=
  let p := s.port port
  let users := s.portGroups port
  let lock := s.hub.faults.lockEnable && port == s.hub.faults.lockPort
  let s := s.setPort port { p with state := 3, spareTraining := none }
  if lock then (s.logReport 0x3006 (opticalD0 port.toNat) (p.neighbour.setWidth 64) 0 |> fun s => s.plotNumbers.foldl State.lockStop s)
  else if users == [] then s.logReport 0x3006 (opticalD0 port.toNat) (p.neighbour.setWidth 64) 0
  else users.foldl (fun (s : State) fn => s.linkStop fn (opticalD0 port.toNat) (p.neighbour.setWidth 64)) s

/-- OPTICAL_LINK_DOWN (R535). -/
def execOpticalLinkDown (port : PortId) (s : State) : Host.Outcome State Fault Refusal := .next (s.opticalDown port)

/-- NAK_RECEIVED (R511, R512): the sender replays `replayed` codewords from the named SEQ; the eighth failed replay marks the lane failed, and the spare is trained or the port goes down. -/
def execNakReceived (port : PortId) (lane : BitVec 4) (seq : BitVec 12) (replayed : Nat) (s : State) : Host.Outcome State Fault Refusal :=
  laneCommand s port lane (fun p l =>
    let again := l.retryFrom == some seq
    if again && 8 ≤ l.replays then
      let s := s.setLane port lane { l with failed := true, retryFrom := none, replays := 0 }
      if p.spareIn || p.spareTraining.isSome then s.opticalDown port else s.setPort port { s.port port with spareTraining := some lane }
    else s.setLane port lane { l with retryFrom := some seq, replays := if again then l.replays + 1 else 1, replay := satAdd l.replay (min replayed 256) })

/-- ACK_RECEIVED (R511): codewords up to SEQ leave the retry buffer. -/
def execAckReceived (port : PortId) (lane : BitVec 4) (seq : BitVec 12) (s : State) : Host.Outcome State Fault Refusal :=
  laneCommand s port lane (fun _ l =>
    let freed : Bool := match l.retryFrom with | some r => decide ((seq - r).toNat < 2048) | none => false
    s.setLane port lane { l with ackSeq := seq + 1, retryFrom := if freed then none else l.retryFrom, replays := if freed then 0 else l.replays })

/-- SPARE_LANE_TRAINED (R512): the spare serves the failed lane's logical number, or the port goes down. -/
def execSpareLaneTrained (port : PortId) (ok : Bool) (s : State) : Host.Outcome State Fault Refusal :=
  let p := s.port port
  match p.spareTraining with
  | none => .next s
  | some k => .next (if ok then s.setPort port { p with failedLane := k, spareIn := true, spareTraining := none } else s.opticalDown port)

/-! ### The tree and training (R513 to R515, R521, R534) -/

/-- `parent_port` of R513. -/
def parentPort (m : BitVec 12) : BitVec 4 :=
  if m = 1 then 0
  else if fieldOf m 0 4 != 0 then m.extractLsb' 0 4
  else if fieldOf m 4 4 != 0 then m.extractLsb' 4 4
  else m.extractLsb' 8 4

/-- Whether the tree gives a port to a module (R513). -/
def treePort (m : BitVec 12) (a : BitVec 4) : Bool :=
  let k := a.toNat
  (m != 0 && a == 0) ||
    [m ||| BitVec.ofNat 12 k, m ||| BitVec.ofNat 12 (16 * k), (m &&& 0xF00) ||| BitVec.ofNat 12 (16 * k), BitVec.ofNat 12 (256 * k), 1].any (fun c => c != m && parentOf c == some m && parentPort c == a)

/-- Depth of a module (R513). -/
def depthOf (m : BitVec 12) : Nat :=
  let up (x : Option (BitVec 12)) : Option (BitVec 12) := x.bind parentOf
  ([up (some m), up (up (some m)), up (up (up (some m))), up (up (up (up (some m))))].filter (fun x => x.isSome)).length

/-- ROLE of a trained link between port `a` of module `m` and port `b` of module `n` (R514): 1 toward the root, 2 toward a child, 3 direct; 0 is a cabling error. -/
def linkRole (m : BitVec 12) (a : BitVec 4) (n : BitVec 12) (b : BitVec 4) : BitVec 2 :=
  if parentOf m == some n && a == 0 && b == parentPort m then 1
  else if parentOf n == some m && b == 0 && a == parentPort n then 2
  else if !treePort m a && !treePort n b then 3
  else 0

/-- A trained port takes its role, or goes unused with LINK_DOWN in the log: a cabling error, or a tree link with a DELAY above 120 hc (R514, R521). -/
def State.classify (s : State) (port : PortId) : State :=
  let p := s.port port
  if p.state != 1 then s
  else
    let r := linkRole s.system.module port p.neighbour p.nport
    if r == 0 || (r != 3 && 960 < p.delay.toNat) then (s.setPort port { p with state := 3, role := 0 }).logReport 0x3006 (opticalD0 port.toNat) (p.neighbour.setWidth 64) 0
    else s.setPort port { p with state := 2, role := r }

/-- LINK_TRAINING (R506, R515, R516, R521, R534, R535): lanes map to their own numbers with lane 8 spare; a port takes its role at once when the module knows its number. A child that trains after bell zero is sent the epoch of its own. -/
def execLinkTraining (port : PortId) (r : TrainResult) (s : State) : Host.Outcome State Fault Refusal :=
  let p := s.port port
  let lanes : AMap Lane := p.lanes.map (fun l => (l.1, { corr := l.2.corr, uncorr := l.2.uncorr, replay := l.2.replay }))
  let q : Port := { p with state := 1, role := 0, neighbour := r.neighbour, nport := r.nport, delay := r.delay, lanes := lanes.filter (fun l => l.2 != {}), failedLane := 0xF, spareIn := false, spareTraining := none, bellOut := [], bellIn := [] }
  if !r.ok then .next (s.setPort port { p with state := 3 })
  else if s.hub.faults.lockEnable && port == s.hub.faults.lockPort then
    .next (s.setPort port { q with state := if r.neighbour == s.hub.faults.partner && r.namesUs && r.nport == port then 4 else 3 })
  else
    let s := s.setPort port q
    if !s.hub.boot.linked then .next s
    else
      let s := s.classify port
      .next (if s.hub.boot.bellZero && (s.port port).role == 2 then s.sendWord port (bellWord 3 0xFF 0 (s.system.stime.toNat + 10000)) else s)

/-- LINKS_DONE (R470, R513, R515, R537): the module has its number; a module whose port 0 is lit and fails to train stays in phase 5. -/
def execLinksDone (r : LinksResult) (s : State) : Host.Outcome State Fault Refusal :=
  if !s.testing || s.hub.boot.linked then .next s
  else if !r.ok then .next ((s.modHub (fun h => { h with boot.failed := true, boot.phase := 5 })).logReport 0x3006 (opticalD0 0) ((s.port 0).neighbour.setWidth 64) 0)
  else
    let m : BitVec 12 := if s.system.root || !r.lit then 0 else r.module
    let s : State := { s with system := { s.system with module := m, depth := BitVec.ofNat 3 (depthOf m), standalone := !s.system.root && !r.lit } }
    let s := s.modHub (fun h => { h with boot.linked := true, boot.phase := if h.boot.fieldTested then 6 else h.boot.phase })
    .next (((List.range 16).map (BitVec.ofNat 4)).foldl State.classify s)

/-! ### Bell words (R510, R516, R517, R519 to R524, R527) -/

/-- BELL_FRAME_RECEIVED (R510): the frame's word waits to be taken; a frame with a CRC error is discarded and comes again. -/
def execBellFrameReceived (port : PortId) (word : Word) (crcOk : Bool) (s : State) : Host.Outcome State Fault Refusal :=
  let p := s.port port
  .next (if crcOk && p.bellIn.length < 64 then s.setPort port { p with bellIn := p.bellIn ++ [word] } else s)

/-- A command of one bell word of a KIND that waits at a port: the word leaves the queue. A word that does not wait there changes nothing. -/
def wordCommand (s : State) (port : PortId) (w : Word) (kind : Nat) (act : State → State) : Host.Outcome State Fault Refusal :=
  let p := s.port port
  if wordKind w != kind || !p.bellIn.contains w then .next s else .next (act (s.setPort port { p with bellIn := p.bellIn.erase w }))

/-- SYNC (R517): from the parent, the correction in eighths of a hub cycle is taken up, and one above 1 hc sets SKEW; to a child the module answers with its own time. -/
def execSync (port : PortId) (w : Word) (correction : Int) (s : State) : Host.Outcome State Fault Refusal :=
  wordCommand s port w 0 (fun s =>
    let p := s.port port
    if p.role == 1 then ({ s with system := { s.system with slew := correction } } : State).setPort port { p with skew := p.skew || 8 < correction.natAbs }
    else if p.role == 2 then s.sendWord port (bellWord 0 0xFF 0 s.system.stime.toNat)
    else s)

/-- ARRIVE (R520): a child's subtree has arrived. -/
def execArrive (port : PortId) (w : Word) (s : State) : Host.Outcome State Fault Refusal :=
  wordCommand s port w 1 (fun s =>
    let key := (wordGroup w, BitVec.ofNat 12 (wordBell w), port)
    let s : State := { s with system := { s.system with arrivedWords := if s.system.arrivedWords.contains key then s.system.arrivedWords else s.system.arrivedWords ++ [key] } }
    s.afterArrival (wordGroup w) (wordBell w))

/-- EDGE (R523): toward the root; at the root the edge meets R61 and R64. -/
def execEdge (port : PortId) (w : Word) (s : State) : Host.Outcome State Fault Refusal :=
  wordCommand s port w 2 (fun s =>
    if s.system.root then s.groupEdge (wordGroup w) (wordBell w) (nearestTime s.system.stime.toNat (wordValue w)) else s.sendWord 0 w)

/-- RING (R516, R520): the epoch of bell zero for the whole system, or of a group's bell; it goes down every branch that holds a member. -/
def execRing (port : PortId) (w : Word) (s : State) : Host.Outcome State Fault Refusal :=
  wordCommand s port w 3 (fun s =>
    let g := wordGroup w
    let e := nearestTime s.system.stime.toNat (wordValue w)
    if g == 0xFF then
      (if s.hub.boot.bellZero then s else ({ s with system := { s.system with ringFrom := some e } } : State)).sendAll w
    else
      let s := s.sendDown g w
      let s : State := { s with system := { s.system with arrivedWords := s.system.arrivedWords.filter (fun a => !(a.1 == g && a.2.1.toNat == wordBell w)) } }
      match s.groupPlot g with
      | none => s
      | some fn => s.modPlot fn (fun p => { p with step.epoch := some e }))

/-- A member halts (R385, R524): its running attempt is discarded and waits for its release. -/
def State.haltPlot (s : State) (fn : Fn) : State :=
  let p := s.plot fn
  let rs := s.attemptReports fn
  if p.step.attempting then s.abandonRetry fn rs rs.length else s

/-- HALT (R524): at the root it goes to every member; elsewhere down the branches, or on to the root. -/
def State.spread (s : State) (port : PortId) (w : Word) : State :=
  if s.system.root || (s.port port).role == 1 then s.sendDown (wordGroup w) w else s.sendWord 0 w

/-- Whether this module's member takes a HALT or STOP word that came by a port: the root takes it as it sends it on, another member from its parent (R524). -/
def State.takesWord (s : State) (port : PortId) : Bool := s.system.root || (s.port port).role == 1

/-- HALT (R524). -/
def execHalt (port : PortId) (w : Word) (s : State) : Host.Outcome State Fault Refusal :=
  wordCommand s port w 4 (fun s =>
    let s2 := s.spread port w
    match s2.groupPlot (wordGroup w) with
    | some fn => if s.takesWord port then s2.haltPlot fn else s2
    | none => s2)

/-- A member stops at the bell that a STOP word names (R374, R524). No report of this module stopped it: STOPCODE is a free value among the codes of R405 (log entry 46). -/
def State.stopMember (s : State) (fn : Fn) (bell : Nat) : State :=
  let p := s.plot fn
  let code : Code := knownCodes.getD ((Config.freeWord s.hub.seq).toNat % knownCodes.length) 0x3001
  if p.place.state != 3 || p.bell.bell.toNat % 4096 != bell then s
  else
    let s := s.modHub (fun h => { h with seq := h.seq + 1 })
    if p.step.phase == .running || p.step.phase == .arrived || p.step.phase == .abandoned then
      let rs := s.attemptReports fn
      let evs := p.run.events ++ s.attemptEvents fn
      let s := (s.queueReports fn (flagReports (.stop rs.length) rs)).restorePlot fn
      let s := s.modPlot fn (fun p => { p with bell.attempt := satAdd p.bell.attempt 1 })
      (if p.run.isOpen then s.addBlock fn (s.stepBlock fn [] evs) [3] p.bell.bell else s).stopNow fn code
    else (s.closeBetween fn []).stopNow fn code

/-- STOP (R524). -/
def execStop (port : PortId) (w : Word) (s : State) : Host.Outcome State Fault Refusal :=
  wordCommand s port w 5 (fun s =>
    let s2 := s.spread port w
    match s2.groupPlot (wordGroup w) with
    | some fn => if s.takesWord port then s2.stopMember fn (wordBell w) else s2
    | none => s2)

/-- CONTROL (R526, R527): from a child, a join or packet on its way to the root, whose port is a branch of the group from now on; from the parent, packet content for the members, which is kept until their next bell. -/
def execControl (port : PortId) (w : Word) (s : State) : Host.Outcome State Fault Refusal :=
  wordCommand s port w 6 (fun s =>
    let g := wordGroup w
    let content : BitVec 40 := w.extractLsb' 24 40
    if (s.port port).role == 2 then
      let s : State := { s with system := { s.system with branches := if s.system.branches.contains (g, port) then s.system.branches else s.system.branches ++ [(g, port)] } }
      if !s.system.root then s.sendWord 0 w
      else if s.plots.any (fun p => p.2.group.joined && p.2.group.groupId == g) then s.sendDown g w
      else { s with system := { s.system with joins := s.system.joins ++ [{ groupId := g, digest := content }] } }
    else
      let s := s.sendDown g w
      if (s.groupPlot g).isSome then { s with system := { s.system with control := s.system.control ++ [(g, content)] } } else s)

/-! ### Joins (R526) -/

/-- The plots of this module whose join of a group waits. -/
def State.joiners (s : State) (g : BitVec 8) : List Fn := s.plotNumbers.filter (fun fn => let k := (s.plot fn).group; k.joining.isSome && k.groupId == g)

/-- JOIN_CONFIRMED (R526): every member has joined with one digest; the members are joined at the next group bell, whose epoch the root fixes. -/
def execJoinConfirmed (group : BitVec 8) (s : State) : Host.Outcome State Fault Refusal :=
  let js := s.system.joins.filter (fun j => j.groupId == group)
  if s.system.root && (js.map (fun j => j.digest)).dedup.length != 1 then .next s
  else
    let s := (s.joiners group).foldl (fun (s : State) fn => s.modPlot fn (fun p => { p with group.confirmed := true })) s
    .next (if s.system.root then s.fixEpoch group 0 else s)

/-- JOIN_TIMEOUT (R526): the join is refused at every member with SIZE_UNAVAILABLE. -/
def execJoinTimeout (group : BitVec 8) (s : State) : Host.Outcome State Fault Refusal :=
  let s : State := { s with system := { s.system with joins := s.system.joins.filter (fun j => j.groupId != group), branches := s.system.branches.filter (fun b => b.1 != group) } }
  .next (((s.joiners group).filter (fun fn => !(s.plot fn).group.confirmed)).foldl (fun (s : State) fn =>
    match (s.plot fn).group.joining with
    | some st => (s.modPlot fn (fun p => { p with group := {} })).refuse st 0x100B
    | none => s) s)

/-! ### The group bell (R50, R520, R526) -/

/-- BELL_EPOCH (R520, R526): system time has reached the epoch; a confirmed plot is joined with bell 0, a joined one rings its bell. -/
def execBellEpoch (fn : Fn) (dh : Nat) (s : State) : Host.Outcome State Fault Refusal :=
  let s := s.advance dh
  let p := s.plot fn
  match p.step.epoch with
  | none => .next s
  | some e =>
    if s.system.stime.toNat < e then .next s
    else
      match p.group.joining with
      | some st =>
        let s := s.setPlot fn { p with step.epoch := none, step.lastBell := s.hub.time, step.everRung := true, bell.bell := 0, bell.attempt := 0, bell.rungs := p.bell.rungs + 1, group := { p.group with joined := true, joining := none, confirmed := false } }
        .next (s.complete st 0 0)
      | none =>
        if p.place.state == 1 || p.place.state == 2 then
          let s : State := { s with system := { s.system with control := s.system.control.filter (fun c => c.1 != p.group.groupId) } }
          .next ((s.modPlot fn (fun p => { p with step.epoch := none })).emptyBell fn)
        else if p.step.phase == .arrived && !p.step.rung then
          let free := Config.freeWord s.hub.seq
          .next ((s.modHub (fun h => { h with seq := h.seq + 1 })).ringWith fn (fun p => p.epochEvents s.system.root (p.group.root == s.system.module) s.hub.time free))
        else .next s

/-! ### Flits between modules (R508, R529 to R532) -/

/-- TRANSIT_FLIT (R529): a flit for another module in the hub's transit switch leaves by its port. -/
def execTransitFlit (n : Nat) (s : State) : Host.Outcome State Fault Refusal :=
  flitCommand s n (fun f => if f.stage == .transit && s.leaves f then s.dropFlit n else s)

/-- The port whose gate a core is (R508). -/
def gatePort (gate : CoreId) : PortId := BitVec.ofNat 4 (2 * (fieldOfCore gate).toNat + rowOf gate % 16 / 8)

/-- A stall of R532 ends: the field goes on and its swallowed periods are counted. -/
def State.endGateStall (s : State) (gate : CoreId) (port : PortId) (periods : Nat) : State :=
  match (s.core gate).owner with
  | none => s
  | some fn =>
    let f := fieldOfCore gate
    if !(s.plot fn).step.gateStall.getLsbD f.toNat then s
    else
      (s.modPlot fn (fun p => { p with step.gateStall := p.step.gateStall &&& ~~~(BitVec.ofNat 8 (2 ^ f.toNat)) })).setPort port { s.port port with stall := satAdd (s.port port).stall periods }

/-- The first fc from `fc` on in which a gate has released nothing; each earlier fc is one of those in use. -/
def firstFree (used : List Nat) (fc : Nat) : Nat := ((List.range (used.length + 1)).map (fc + ·)).find? (fun t => !used.contains t) |>.getD fc

/-- GATE_RELEASE (R529, R531, R532): the flit is released at earliest_receive(s) + CROSS, or in the next free fc as a link collision; one that is not yet at the gate stalls the plot in the gate's field. -/
def execGateRelease (gate : CoreId) (flit : Nat) (periods : Nat) (s : State) : Host.Outcome State Fault Refusal :=
  if !s.hasCore gate then .fault .noSuchCore
  else
    match AMap.find s.mesh.flits flit with
    | none => .next (match (s.core gate).owner with | some fn => s.stallGate fn (fieldOfCore gate) | none => s)
    | some f =>
      match f.stage with
      | .gate sent =>
        if s.leaves f || f.router != gate then .next s
        else
          let r := earliestReceive sent + (s.plot f.fn).group.cross.toNat
          let used := (s.system.gateUse.filter (fun g => g.1 == gate.toNat)).map (·.2)
          let t := firstFree used r
          let side : BitVec 3 := if colOf gate = 0 then 3 else 1
          let s := s.endGateStall gate (gatePort gate) periods
          let s : State := { s with system := { s.system with gateUse := s.system.gateUse ++ [(gate.toNat, t)] } }
          let s := s.setFlit flit { f with stage := .router, inPort := side, ready := t, arrived := t }
          .next (if t = r then s else s.modCore gate (fun c => ({ c with mesh.linkColl := satAdd c.mesh.linkColl (t - r) } : CoreState).collision r side f.site))
      | _ => .next s

/-- CREDIT_RETURN (R530, R532): credit for `n` flits, 512 at most; a stall for want of it ends. -/
def execCreditReturn (gate : CoreId) (n : Nat) (periods : Nat) (s : State) : Host.Outcome State Fault Refusal :=
  if !s.hasCore gate then .fault .noSuchCore
  else
    let s : State := { s with system := { s.system with credits := AMap.put 512 s.system.credits gate.toNat (min 512 (AMap.get 512 s.system.credits gate.toNat + n)) } }
    .next (s.endGateStall gate (gatePort gate) periods)

end Sys2Proof.Machine
end

