-- ==== Sys2Proof/Machine/Physical.lean ====
section
/-! DEFINITION. Supply, temperature, the debug port and the management bus (R498 to R500, R539, R540, R552 to R559). -/

namespace Sys2Proof.Machine

/-! ### Temperatures (R555 to R557, R559) -/

/-- The thermal ceiling of a junction temperature in °C (R555). -/
def thermalCeiling (tj : Nat) : Nat := if tj ≤ 95 then 1600 else if tj ≤ 105 then 1600 - 50 * (tj - 95) else 1100

/-- The stack limit of a field after a sample (R555): above 95 °C it falls by 100 MHz, and at 95 °C or below it rises by 100 MHz in each 10 samples, to 1,550 MHz while a stack is in the hot band. -/
def Field.stackStep (k : Field) (temps : List Nat) : Field :=
  let top := if temps.any (fun t => 85 < t && t ≤ 95) then 1550 else 1600
  if temps.any (fun t => 95 < t) then { k with stackCeil := BitVec.ofNat 11 (max 1100 (k.stackCeil.toNat - 100)), stackCool := 0 }
  else if top ≤ k.stackCeil.toNat then { k with stackCeil := BitVec.ofNat 11 top, stackCool := 0 }
  else if k.stackCool < 9 then { k with stackCool := k.stackCool + 1 }
  else { k with stackCeil := BitVec.ofNat 11 (min top (k.stackCeil.toNat + 100)), stackCool := 0 }

/-- Consecutive samples of a condition. -/
def runOf (b : Bool) (n : Nat) : Nat := if b then n + 1 else 0

/-- The counts of R556 after a sample of a field with its junction temperature and those of its stacks. -/
def FieldHold.sample (h : FieldHold) (tj : Nat) (temps : List Nat) : FieldHold :=
  { h with hot := runOf (105 < tj) h.hot, cool := runOf (tj ≤ 100 && temps.all (fun t => t ≤ 100)) h.cool, stackHot := temps.zipIdx.map (fun t => runOf (105 < t.1) (h.stackHot.getD t.2 0)) }

/-- The sample of one field. -/
def State.sampleField (s : State) (t : ThermalReading) (f : FieldId) : State :=
  let tj := t.junction.getD f.toNat 0
  let temps := (t.stackTemps.drop (2 * f.toNat)).take 2
  let k := (s.field f).stackStep temps
  let s := s.setField f { k with tj := BitVec.ofNat 8 tj, tjMax := BitVec.ofNat 8 (max k.tjMax.toNat tj), thermCeil := BitVec.ofNat 11 (thermalCeiling tj) }
  ({ s with fieldHold := AMap.put {} s.fieldHold f.toNat ((AMap.get {} s.fieldHold f.toNat).sample tj temps) } : State).setCeiling f

/-- The hottest of a list with its place. -/
def hottest (l : List Nat) : Nat × Nat := l.zipIdx.foldl (fun m x => if m.1 < x.1 then x else m) (0, 0)

/-- An optical engine at 90 °C or above raises THERMAL in the log once per start-up; at 100 °C or above its port goes down (R557). -/
def State.sampleOptic (s : State) (x : Nat × Nat) : State :=
  let s := if 90 ≤ x.1 && !s.hub.power.optRaised.contains x.2 then (s.modHub (fun h => { h with power.optRaised := h.power.optRaised ++ [x.2] })).logReport 0x4003 0 0 0 else s
  if 100 ≤ x.1 && x.2 < 16 && (s.port (BitVec.ofNat 4 x.2)).state != 3 then s.opticalDown (BitVec.ofNat 4 x.2) else s

/-- THERMAL_SAMPLE (R555 to R557, R559). -/
def execThermalSample (t : ThermalReading) (s : State) : Host.Outcome State Fault Refusal :=
  let s := allFields.foldl (fun (s : State) f => s.sampleField t f) s
  let o := hottest t.optical
  let s := s.modHub (fun h => { h with power.stackTemps := t.stackTemps, power.hubTj := BitVec.ofNat 8 t.hub, power.optTmax := BitVec.ofNat 8 o.1, power.optPort := BitVec.ofNat 4 o.2 })
  .next (t.optical.zipIdx.foldl State.sampleOptic s)

/-- THERMAL (R556): a thermal hold of the field begins after ten hot samples; every plot with cores there is told, and is held at its next bell. -/
def execThermal (field : FieldId) (s : State) : Host.Outcome State Fault Refusal :=
  let h := AMap.get {} s.fieldHold field.toNat
  if h.held || !(10 ≤ h.hot || h.stackHot.any (fun n => 10 ≤ n)) then .next s
  else
    let s : State := { s with fieldHold := AMap.put {} s.fieldHold field.toNat { h with held := true } }
    .next ((s.plotsIn field).foldl (fun (s : State) fn =>
      (s.modPlot fn (fun p => if p.step.phase == .held then { p with step.holds.thermal := true } else p)).plotReport fn 0x4003 false 0 0 0) s)

/-- THERMAL_HOLD_END (R556, R566): after ten cool samples the hold of the field ends; a plot that no other hold keeps is released. -/
def execThermalHoldEnd (field : FieldId) (s : State) : Host.Outcome State Fault Refusal :=
  let h := AMap.get {} s.fieldHold field.toNat
  if !h.held || h.cool < 10 then .next s
  else
    let s : State := { s with fieldHold := AMap.put {} s.fieldHold field.toNat { h with held := false } }
    .next ((s.plotsIn field).foldl (fun (s : State) fn =>
      let p := s.plot fn
      if p.step.phase == .held && p.step.holds.thermal && !p.fieldList.any (fun f => (AMap.get {} s.fieldHold f).held) then
        (s.setPlot fn { p with step.holds.thermal := false }).releaseHeld fn
      else s) s)

/-! ### Power (R47, R540, R545) -/

/-- The power envelope of R47 in W. -/
def Grade.envelope : Grade → Nat
  | .mt4096 => 1500
  | .mt3584 => 1350

/-- Every field's power limit changed. -/
def State.powerLimits (s : State) (g : Field → Nat) : State :=
  allFields.foldl (fun (s : State) f => (s.setField f { s.field f with powerCeil := BitVec.ofNat 11 (g (s.field f)) }).setCeiling f) s

/-- POWER_SAMPLE (R540, R545): a 100 µs sample of module power and VCORE current; over a limit every ceiling falls by 25 MHz, and after ten samples below 97% of both it rises by 25 MHz. -/
def execPowerSample (watts amps : Nat) (s : State) : Host.Outcome State Fault Refusal :=
  let samples := (s.hub.power.samples ++ [(watts, amps)]).drop (s.hub.power.samples.length - 9)
  let mean (l : List Nat) : Nat := l.foldl (· + ·) 0 / max 1 l.length
  let env := s.grade.envelope
  let high := env < watts || 1250 < amps
  let low := 100 * watts < 97 * env && 100 * amps < 97 * 1250
  let below := if low then s.hub.power.belowFor + 1 else 0
  let s := s.modHub (fun h => { h with power := { h.power with samples := samples, icore := BitVec.ofNat 11 (min 2047 (mean (samples.map (·.2)))), pmod := BitVec.ofNat 12 (min 4095 (mean (samples.map (·.1)))), ilimit := high, belowFor := below % 10 } })
  .next (if high then s.powerLimits (fun k => max 1100 (min k.powerCeil.toNat k.ceiling.toNat - 25)) else if below = 10 then s.powerLimits (fun k => min 1600 (k.powerCeil.toNat + 25)) else s)

/-! ### The debug port (R498 to R500) -/

/-- Whether an instruction may be loaded (R498, R499): always for the boundary-scan and unlock instructions, at level 1 for read access, at level 2 or before the end of phase 2 for the rest (log entry 47). -/
def Debug.allows (d : Debug) (i : JtagInstr) : Bool :=
  match i with
  | .bypass => true
  | .idcode => true
  | .samplePreload => true
  | .dbgchal => true
  | .dbgresp => true
  | .debugRead => d.isOpen || 1 ≤ d.level.toNat
  | .debugFull => d.isOpen || d.level == 2
  | .extest => d.isOpen || d.level == 2

/-- JTAG_INSTRUCTION (R498): a locked instruction loads BYPASS and reports DEBUG_LOCKED. -/
def execJtagInstruction (ins : JtagInstr) (s : State) : Host.Outcome State Fault Refusal :=
  .next (if s.hub.jtag.allows ins then s.modHub (fun h => { h with jtag.instruction := ins })
         else (s.modHub (fun h => { h with jtag.instruction := .bypass })).logReport 0x5003 0 0 0)

/-- The digest that an unlock response signs (R499). -/
def unlockDigest (g : Grade) (nonce : BitVec 256) (level : BitVec 8) : Nat :=
  (digestOf (digestBytes nonce ++ bytesOfNat 8 g.identWord.toNat ++ digestBytes keyId ++ [level])).toNat

/-- DEBUG_UNLOCK (R499, R500): each nonce serves one attempt; three failures bar every later one. Level 2 zeroises the battery key and withholds the other keys, and verdicts are formed again. -/
def execDebugUnlock (level : BitVec 8) (key signature : Nat) (s : State) : Host.Outcome State Fault Refusal :=
  let d := s.hub.jtag
  let good := d.fails != 3 && (level == 1 || level == 2) && keyDigest (bytesOfNat 96 key) == Config.debugDigest && Config.ecdsaVerify key signature (unlockDigest s.grade (Config.debugNonce d.attempts) level)
  let s := s.modHub (fun h => { h with jtag.attempts := h.jtag.attempts + 1 })
  if !good then .next (s.modHub (fun h => { h with jtag.fails := satAdd h.jtag.fails 1 }))
  else
    let s := s.modHub (fun h => { h with jtag.level := BitVec.ofNat 2 (max h.jtag.level.toNat level.toNat) })
    .next (if level == 2 then s.modHub (fun h => ({ h with keys.batteryKey := none, keys.withheld := true } : Hub).reverify) else s)

/-! ### The management bus (R552, R553) -/

/-- Whether the bus answers: from phase 1 on (R552). -/
def State.busUp (s : State) : Bool := s.hub.boot.phase != 0

/-- I3C_DYNAMIC_ADDRESS (R552). -/
def execI3cDynamicAddress (addr : BitVec 7) (s : State) : Host.Outcome State Fault Refusal :=
  .next (if s.busUp then s.modHub (fun h => { h with i3c.addr := some addr }) else s)

/-- I3C_SET_OFFSET (R553). -/
def execI3cSetOffset (offset : BitVec 32) (s : State) : Host.Outcome State Fault Refusal :=
  .next (if s.busUp then s.modHub (fun h => { h with i3c.offset := offset }) else s)

/-- The oldest report of the log that the bus has not read, as eight words; zeros when there is none (R553). -/
def State.logWords (s : State) : List Word :=
  match s.hub.faults.log[s.hub.faults.logRead]? with
  | some r => (List.range 8).map (fun k => BitVec.ofNat 64 (fieldBytes r.bytes (8 * k) 8))
  | none => List.replicate 8 0

/-- The register at an offset as the bus reads it: HUB.LOGPORT, or the module window. -/
def State.busReg (s : State) (off : Nat) : Word := if 0x280 ≤ off && off < 0x2C0 then s.logWords.getD ((off - 0x280) / 8) 0 else s.moduleReg off

/-- The bus has read all of HUB.LOGPORT. -/
def Hub.logTaken (h : Hub) : Hub := { h with faults.logRead := min (h.faults.logRead + 1) h.faults.log.length }

/-- A private read of `len` bytes: the registers from the offset on, whose RC fields clear; the offset advances with each 8 bytes (R20, R553). -/
def State.busRead (s : State) (len : Nat) : State :=
  let off := s.hub.i3c.offset.toNat
  let n := ceilDiv len 8
  let ws := (List.range n).map (fun k => s.busReg (off + 8 * k))
  let t := (List.range n).foldl (fun (s : State) k => s.clearModule (off + 8 * k)) s
  t.modHub (fun h =>
    let h : Hub := { h with i3c.readData := ws, i3c.offset := BitVec.ofNat 32 (off + len / 8 * 8) }
    if off == 0x280 && len == 64 then h.logTaken else h)

/-- I3C_READ (R553). -/
def execI3cRead (len : Nat) (s : State) : Host.Outcome State Fault Refusal := .next (if s.busUp then s.busRead len else s)

/-- I3C_WRITE (R553): the words go to the registers from the offset on; only HUB.FAULTSUM takes one. -/
def execI3cWrite (offset : BitVec 32) (words : List Word) (s : State) : Host.Outcome State Fault Refusal :=
  if !s.busUp then .next s
  else
    let s := s.modHub (fun h => { h with i3c.offset := offset })
    .next (words.zipIdx.foldl (fun (s : State) w => if offset.toNat + 8 * w.2 = 0x10 then s.writeFaultsum w.1 else s) s)

/-- LOGPORT_READ (R553): a 64-byte read at HUB.LOGPORT. -/
def execLogportRead (s : State) : Host.Outcome State Fault Refusal :=
  .next (if s.busUp then (s.modHub (fun h => { h with i3c.offset := 0x280 })).busRead 64 else s)

end Sys2Proof.Machine
end

