-- ==== Sys2Proof/Machine/Dispatch.lean ====
section
/-! DEFINITION. The meaning of every command: one arm per constructor of `Instr`, in the table's order. -/

namespace Sys2Proof.Machine

/-- The effect of one command on everything but the queue. -/
def exec (i : Instr) (s : State) : Host.Outcome State Fault Refusal :=
  match i with
  | .snop k w => Sys2Proof.Machine.execSnop k w s
  | .sadd k w => Sys2Proof.Machine.execSadd k w s
  | .saddi k w => Sys2Proof.Machine.execSaddi k w s
  | .smul k w => Sys2Proof.Machine.execSmul k w s
  | .slogic k w => Sys2Proof.Machine.execSlogic k w s
  | .sshift k w => Sys2Proof.Machine.execSshift k w s
  | .sminmax k w => Sys2Proof.Machine.execSminmax k w s
  | .scmp k w => Sys2Proof.Machine.execScmp k w s
  | .ssel k w => Sys2Proof.Machine.execSsel k w s
  | .slui k w => Sys2Proof.Machine.execSlui k w s
  | .smovi k w => Sys2Proof.Machine.execSmovi k w s
  | .sfeat k w => Sys2Proof.Machine.execSfeat k w s
  | .amov k w => Sys2Proof.Machine.execAmov k w s
  | .aadd k w => Sys2Proof.Machine.execAadd k w s
  | .aget k w => Sys2Proof.Machine.execAget k w s
  | .lbegin k w => Sys2Proof.Machine.execLbegin k w s
  | .linc k w => Sys2Proof.Machine.execLinc k w s
  | .snext k w => Sys2Proof.Machine.execSnext k w s
  | .sown k w => Sys2Proof.Machine.execSown k w s
  | .loopEnd k => Sys2Proof.Machine.execLoopEnd k s
  | .stopBundle k => Sys2Proof.Machine.execStopBundle k s
  | .vnop k w => Sys2Proof.Machine.execVnop k w s
  | .vadd k w => Sys2Proof.Machine.execVadd k w s
  | .vmul k w => Sys2Proof.Machine.execVmul k w s
  | .vmulh k w => Sys2Proof.Machine.execVmulh k w s
  | .vshift k w => Sys2Proof.Machine.execVshift k w s
  | .vlogic k w => Sys2Proof.Machine.execVlogic k w s
  | .vminmax k w => Sys2Proof.Machine.execVminmax k w s
  | .vcount k w => Sys2Proof.Machine.execVcount k w s
  | .vcmp k w => Sys2Proof.Machine.execVcmp k w s
  | .vsel k w => Sys2Proof.Machine.execVsel k w s
  | .vperm k w => Sys2Proof.Machine.execVperm k w s
  | .vunpk k w => Sys2Proof.Machine.execVunpk k w s
  | .vpack k w => Sys2Proof.Machine.execVpack k w s
  | .vlut k w => Sys2Proof.Machine.execVlut k w s
  | .vmovi k w => Sys2Proof.Machine.execVmovi k w s
  | .vsplat k w => Sys2Proof.Machine.execVsplat k w s
  | .vget k w => Sys2Proof.Machine.execVget k w s
  | .mset k w => Sys2Proof.Machine.execMset k w s
  | .mlogic k w => Sys2Proof.Machine.execMlogic k w s
  | .mnop k w => Sys2Proof.Machine.execMnop k w s
  | .mload k w => Sys2Proof.Machine.execMload k w s
  | .mstream k w => Sys2Proof.Machine.execMstream k w s
  | .mtile k w => Sys2Proof.Machine.execMtile k w s
  | .manchor k w => Sys2Proof.Machine.execManchor k w s
  | .mread k w => Sys2Proof.Machine.execMread k w s
  | .mprobe k w => Sys2Proof.Machine.execMprobe k w s
  | .mtilePass c => Sys2Proof.Machine.execMtilePass c s
  | .mstreamColumn c => Sys2Proof.Machine.execMstreamColumn c s
  | .contributionLands c => Sys2Proof.Machine.execContributionLands c s
  | .residueCheckEvent c chaff => Sys2Proof.Machine.execResidueCheckEvent c chaff s
  | .columnTestDone c found => Sys2Proof.Machine.execColumnTestDone c found s
  | .lnop k w => Sys2Proof.Machine.execLnop k w s
  | .ldv k w => Sys2Proof.Machine.execLdv k w s
  | .lds k w => Sys2Proof.Machine.execLds k w s
  | .ldvs k w => Sys2Proof.Machine.execLdvs k w s
  | .ldvg k w => Sys2Proof.Machine.execLdvg k w s
  | .snopst k w => Sys2Proof.Machine.execSnopst k w s
  | .stv k w => Sys2Proof.Machine.execStv k w s
  | .sts k w => Sys2Proof.Machine.execSts k w s
  | .stvs k w => Sys2Proof.Machine.execStvs k w s
  | .stvg k w => Sys2Proof.Machine.execStvg k w s
  | .resultWriteLands c => Sys2Proof.Machine.execResultWriteLands c s
  | .storeWriteLands c => Sys2Proof.Machine.execStoreWriteLands c s
  | .fillOpResumes c => Sys2Proof.Machine.execFillOpResumes c s
  | .patrolScrubRead c dt => Sys2Proof.Machine.execPatrolScrubRead c dt s
  | .patrolScrubWriteback c dt => Sys2Proof.Machine.execPatrolScrubWriteback c dt s
  | .synop k w => Sys2Proof.Machine.execSynop k w s
  | .wait k w => Sys2Proof.Machine.execWait k w s
  | .test k w => Sys2Proof.Machine.execTest k w s
  | .tadd k w => Sys2Proof.Machine.execTadd k w s
  | .sig k w => Sys2Proof.Machine.execSig k w s
  | .bar k w => Sys2Proof.Machine.execBar k w s
  | .post k w => Sys2Proof.Machine.execPost k w s
  | .select k w => Sys2Proof.Machine.execSelect k w s
  | .release k w => Sys2Proof.Machine.execRelease k w s
  | .cadd k w => Sys2Proof.Machine.execCadd k w s
  | .cwait k w => Sys2Proof.Machine.execCwait k w s
  | .cput k w => Sys2Proof.Machine.execCput k w s
  | .ctake k w => Sys2Proof.Machine.execCtake k w s
  | .amsg k w => Sys2Proof.Machine.execAmsg k w s
  | .signalLands flit => Sys2Proof.Machine.execSignalLands flit s
  | .postedMessageLands flit => Sys2Proof.Machine.execPostedMessageLands flit s
  | .granarySpill c ring => Sys2Proof.Machine.execGranarySpill c ring s
  | .granaryDrainLands c ring => Sys2Proof.Machine.execGranaryDrainLands c ring s
  | .postedFlitAdvance flit => Sys2Proof.Machine.execPostedFlitAdvance flit s
  | .activeMessageArrives flit => Sys2Proof.Machine.execActiveMessageArrives flit s
  | .handlerStart c dt => Sys2Proof.Machine.execHandlerStart c dt s
  | .barrierCompletionLands fn group field => Sys2Proof.Machine.execBarrierCompletionLands fn group field s
  | .orphanWait c => Sys2Proof.Machine.execOrphanWait c s
  | .dozeEntry c dt => Sys2Proof.Machine.execDozeEntry c dt s
  | .lineFiring c slot => Sys2Proof.Machine.execLineFiring c slot s
  | .partialFiring c slot => Sys2Proof.Machine.execPartialFiring c slot s
  | .landFiring c slot => Sys2Proof.Machine.execLandFiring c slot s
  | .recvFiring c slot => Sys2Proof.Machine.execRecvFiring c slot s
  | .bridgeFlitArrives flit offset => Sys2Proof.Machine.execBridgeFlitArrives flit offset s
  | .flitAdvance flit => Sys2Proof.Machine.execFlitAdvance flit s
  | .scheduledFlitLands flit => Sys2Proof.Machine.execScheduledFlitLands flit s
  | .partialMergeLands c => Sys2Proof.Machine.execPartialMergeLands c s
  | .dsReadFiring ch entry => Sys2Proof.Machine.execDsReadFiring ch entry s
  | .dsWriteFiring ch entry => Sys2Proof.Machine.execDsWriteFiring ch entry s
  | .dsGranaryFiring ch entry => Sys2Proof.Machine.execDsGranaryFiring ch entry s
  | .dsReadUnitLands ch => Sys2Proof.Machine.execDsReadUnitLands ch s
  | .dsWritePerformed ch => Sys2Proof.Machine.execDsWritePerformed ch s
  | .deepStall ch => Sys2Proof.Machine.execDeepStall ch s
  | .deepStallEnd ch periods => Sys2Proof.Machine.execDeepStallEnd ch periods s
  | .dsRefresh ch => Sys2Proof.Machine.execDsRefresh ch s
  | .dsScrub ch unit => Sys2Proof.Machine.execDsScrub ch unit s
  | .coreArrives c => Sys2Proof.Machine.execCoreArrives c s
  | .fieldArrivalRegistered fn field dh => Sys2Proof.Machine.execFieldArrivalRegistered fn field dh s
  | .bellIntervalElapsed fn dh => Sys2Proof.Machine.execBellIntervalElapsed fn dh s
  | .bellInEdge falling dh => Sys2Proof.Machine.execBellInEdge falling dh s
  | .syncLate fn dh => Sys2Proof.Machine.execSyncLate fn dh s
  | .bellRings fn dh => Sys2Proof.Machine.execBellRings fn dh s
  | .stepRelease fn field => Sys2Proof.Machine.execStepRelease fn field s
  | .stepLimit fn => Sys2Proof.Machine.execStepLimit fn s
  | .idleBell dh => Sys2Proof.Machine.execIdleBell dh s
  | .emptyBell fn dh => Sys2Proof.Machine.execEmptyBell fn dh s
  | .droopTrip field => Sys2Proof.Machine.execDroopTrip field s
  | .droopFloor field => Sys2Proof.Machine.execDroopFloor field s
  | .droopCeilingRestore field => Sys2Proof.Machine.execDroopCeilingRestore field s
  | .sysrefLoss dh => Sys2Proof.Machine.execSysrefLoss dh s
  | .sysrefRelock dh => Sys2Proof.Machine.execSysrefRelock dh s
  | .holdoverExpiry dh => Sys2Proof.Machine.execHoldoverExpiry dh s
  | .pcieRefclkLoss dh => Sys2Proof.Machine.execPcieRefclkLoss dh s
  | .pcieRefclkRelock dh => Sys2Proof.Machine.execPcieRefclkRelock dh s
  | .stepAbandon fn dh => Sys2Proof.Machine.execStepAbandon fn dh s
  | .retryRelease fn dh => Sys2Proof.Machine.execRetryRelease fn dh s
  | .coreLost c cause => Sys2Proof.Machine.execCoreLost c cause s
  | .powerDomainFault c => Sys2Proof.Machine.execPowerDomainFault c s
  | .logicCheckEvent c => Sys2Proof.Machine.execLogicCheckEvent c s
  | .bridgeLinkFailure field edge link => Sys2Proof.Machine.execBridgeLinkFailure field edge link s
  | .imageScrubPass c object block mismatch copyBad => Sys2Proof.Machine.execImageScrubPass c object block mismatch copyBad s
  | .laserAgeing port => Sys2Proof.Machine.execLaserAgeing port s
  | .lockstepDigestReceived fn x => Sys2Proof.Machine.execLockstepDigestReceived fn x s
  | .recordDelivery => Sys2Proof.Machine.execRecordDelivery s
  | .nop p => Sys2Proof.Machine.execNop p s
  | .state p => Sys2Proof.Machine.execState p s
  | .request p => Sys2Proof.Machine.execRequest p s
  | .fetch p => Sys2Proof.Machine.execFetch p s
  | .steparg p => Sys2Proof.Machine.execSteparg p s
  | .runStart p => Sys2Proof.Machine.execRunStart p s
  | .runEnd p => Sys2Proof.Machine.execRunEnd p s
  | .recordClose p => Sys2Proof.Machine.execRecordClose p s
  | .loadImage p => Sys2Proof.Machine.execLoadImage p s
  | .plotCreate p => Sys2Proof.Machine.execPlotCreate p s
  | .plotResize p => Sys2Proof.Machine.execPlotResize p s
  | .plotPreempt p => Sys2Proof.Machine.execPlotPreempt p s
  | .plotResume p => Sys2Proof.Machine.execPlotResume p s
  | .plotReset p => Sys2Proof.Machine.execPlotReset p s
  | .quota p => Sys2Proof.Machine.execQuota p s
  | .budget p => Sys2Proof.Machine.execBudget p s
  | .commonsAssign p => Sys2Proof.Machine.execCommonsAssign p s
  | .commonsGrant p => Sys2Proof.Machine.execCommonsGrant p s
  | .commonsRevoke p => Sys2Proof.Machine.execCommonsRevoke p s
  | .plotJoin p => Sys2Proof.Machine.execPlotJoin p s
  | .plotLeave p => Sys2Proof.Machine.execPlotLeave p s
  | .joinConfirmed group => Sys2Proof.Machine.execJoinConfirmed group s
  | .joinTimeout group => Sys2Proof.Machine.execJoinTimeout group s
  | .calendar p => Sys2Proof.Machine.execCalendar p s
  | .flashBegin p => Sys2Proof.Machine.execFlashBegin p s
  | .flashWrite p => Sys2Proof.Machine.execFlashWrite p s
  | .flashCommit p => Sys2Proof.Machine.execFlashCommit p s
  | .flashDelete p => Sys2Proof.Machine.execFlashDelete p s
  | .flashConfig p => Sys2Proof.Machine.execFlashConfig p s
  | .flashRaise p => Sys2Proof.Machine.execFlashRaise p s
  | .flashKeyload p => Sys2Proof.Machine.execFlashKeyload p s
  | .flashOpDone => Sys2Proof.Machine.execFlashOpDone s
  | .preemptSaveDone fn => Sys2Proof.Machine.execPreemptSaveDone fn s
  | .resumeRestoreDone fn => Sys2Proof.Machine.execResumeRestoreDone fn s
  | .coreClearDone c => Sys2Proof.Machine.execCoreClearDone c s
  | .channelZeroDone ch => Sys2Proof.Machine.execChannelZeroDone ch s
  | .sqReadResume fn => Sys2Proof.Machine.execSqReadResume fn s
  | .devicePacketWrite fn => Sys2Proof.Machine.execDevicePacketWrite fn s
  | .irqHoldoffExpiry fn => Sys2Proof.Machine.execIrqHoldoffExpiry fn s
  | .dmaError fn completion => Sys2Proof.Machine.execDmaError fn completion s
  | .pcieLinkDown => Sys2Proof.Machine.execPcieLinkDown s
  | .pcieLinkRetrain => Sys2Proof.Machine.execPcieLinkRetrain s
  | .flr fn => Sys2Proof.Machine.execFlr fn s
  | .perstN => Sys2Proof.Machine.execPerstN s
  | .sqtailDoorbell fn tail => Sys2Proof.Machine.execSqtailDoorbell fn tail s
  | .cqheadWrite fn head => Sys2Proof.Machine.execCqheadWrite fn head s
  | .ringEnable fn completion v => Sys2Proof.Machine.execRingEnable fn completion v s
  | .ringDisable fn completion v => Sys2Proof.Machine.execRingDisable fn completion v s
  | .bellctlWrite fn v => Sys2Proof.Machine.execBellctlWrite fn v s
  | .rwlFieldWrite fn field v => Sys2Proof.Machine.execRwlFieldWrite fn field v s
  | .diagGo fn v => Sys2Proof.Machine.execDiagGo fn v s
  | .diagStep fn fault => Sys2Proof.Machine.execDiagStep fn fault s
  | .faultsumClear v => Sys2Proof.Machine.execFaultsumClear v s
  | .mboxfromRead fn => Sys2Proof.Machine.execMboxfromRead fn s
  | .readClear fn addr => Sys2Proof.Machine.execReadClear fn addr s
  | .registerWrite fn addr size v => Sys2Proof.Machine.execRegisterWrite fn addr size v s
  | .ping fn arg => Sys2Proof.Machine.execPing fn arg s
  | .status fn arg => Sys2Proof.Machine.execStatus fn arg s
  | .drain fn arg => Sys2Proof.Machine.execDrain fn arg s
  | .drainComplete fn => Sys2Proof.Machine.execDrainComplete fn s
  | .pwrOkRise => Sys2Proof.Machine.execPwrOkRise s
  | .pwrOkFall => Sys2Proof.Machine.execPwrOkFall s
  | .resetPhaseDone => Sys2Proof.Machine.execResetPhaseDone s
  | .hubTestDone pass => Sys2Proof.Machine.execHubTestDone pass s
  | .keysDone => Sys2Proof.Machine.execKeysDone s
  | .flashPhaseDone => Sys2Proof.Machine.execFlashPhaseDone s
  | .fieldTestDone findings => Sys2Proof.Machine.execFieldTestDone findings s
  | .linksDone r => Sys2Proof.Machine.execLinksDone r s
  | .loadPhaseDone => Sys2Proof.Machine.execLoadPhaseDone s
  | .loadedNRise dh => Sys2Proof.Machine.execLoadedNRise dh s
  | .bellZero dh => Sys2Proof.Machine.execBellZero dh s
  | .codewordReceived port lane seq symbolErrors => Sys2Proof.Machine.execCodewordReceived port lane seq symbolErrors s
  | .nakReceived port lane seq replayed => Sys2Proof.Machine.execNakReceived port lane seq replayed s
  | .ackReceived port lane seq => Sys2Proof.Machine.execAckReceived port lane seq s
  | .bellFrameReceived port word crcOk => Sys2Proof.Machine.execBellFrameReceived port word crcOk s
  | .spareLaneTrained port ok => Sys2Proof.Machine.execSpareLaneTrained port ok s
  | .linkTraining port r => Sys2Proof.Machine.execLinkTraining port r s
  | .opticalLinkDown port => Sys2Proof.Machine.execOpticalLinkDown port s
  | .sync port w correction => Sys2Proof.Machine.execSync port w correction s
  | .arrive port w => Sys2Proof.Machine.execArrive port w s
  | .edge port w => Sys2Proof.Machine.execEdge port w s
  | .ring port w => Sys2Proof.Machine.execRing port w s
  | .halt port w => Sys2Proof.Machine.execHalt port w s
  | .stop port w => Sys2Proof.Machine.execStop port w s
  | .control port w => Sys2Proof.Machine.execControl port w s
  | .bellEpoch fn dh => Sys2Proof.Machine.execBellEpoch fn dh s
  | .transitFlit flit => Sys2Proof.Machine.execTransitFlit flit s
  | .gateRelease gate flit periods => Sys2Proof.Machine.execGateRelease gate flit periods s
  | .creditReturn gate n periods => Sys2Proof.Machine.execCreditReturn gate n periods s
  | .thermalSample t => Sys2Proof.Machine.execThermalSample t s
  | .thermal field => Sys2Proof.Machine.execThermal field s
  | .thermalHoldEnd field => Sys2Proof.Machine.execThermalHoldEnd field s
  | .powerSample watts amps => Sys2Proof.Machine.execPowerSample watts amps s
  | .vsetSettled => Sys2Proof.Machine.execVsetSettled s
  | .railTrip rail => Sys2Proof.Machine.execRailTrip rail s
  | .thermtrip sensor => Sys2Proof.Machine.execThermtrip sensor s
  | .vbatLoss => Sys2Proof.Machine.execVbatLoss s
  | .calendarEnd dh => Sys2Proof.Machine.execCalendarEnd dh s
  | .jtagInstruction ins => Sys2Proof.Machine.execJtagInstruction ins s
  | .debugUnlock level key signature => Sys2Proof.Machine.execDebugUnlock level key signature s
  | .i3cDynamicAddress addr => Sys2Proof.Machine.execI3cDynamicAddress addr s
  | .i3cSetOffset offset => Sys2Proof.Machine.execI3cSetOffset offset s
  | .i3cRead len => Sys2Proof.Machine.execI3cRead len s
  | .i3cWrite offset words => Sys2Proof.Machine.execI3cWrite offset words s
  | .logportRead => Sys2Proof.Machine.execLogportRead s
  | .droopRecovery field => Sys2Proof.Machine.execDroopRecovery field s
  | .commonsViewUpdate c => Sys2Proof.Machine.execCommonsViewUpdate c s
  | .commonsRequestAccepted c => Sys2Proof.Machine.execCommonsRequestAccepted c s
  | .perstNDeassert => Sys2Proof.Machine.execPerstNDeassert s
  | .loadedNFall => Sys2Proof.Machine.execLoadedNFall s
  | .vbatApplied => Sys2Proof.Machine.execVbatApplied s

end Sys2Proof.Machine
end

