-- ==== Sys2Proof/Safety.lean ====
section
/-! DEFINITION. What counts as a safe run: every step answers a next state; and what a well-kept state is: every memory in its canonical form. -/

namespace Sys2Proof

open Sys2Proof.Machine

/-- `n` steps from `s` all answer a next state: no command names a core, channel or lane that the module lacks. -/
def SafeFor : Nat → State → Prop
  | 0, _ => True
  | n + 1, s => ∃ t, step s = .next t ∧ SafeFor n t

/-- The memories of a core's working state or bell image are in canonical form. -/
def Machine.CoreWork.memOk (w : CoreWork) : Prop := Memory.wf w.mem = true

/-- The memories of a core are in canonical form: its scratchpad and the scratchpad of its bell image. -/
def Machine.CoreState.memOk (c : CoreState) : Prop := c.work.memOk ∧ c.image.memOk

/-- Every memory of the module is in canonical form: scratchpads, bell images, deep-store shares, the configuration flash, and the save blocks of pre-empted plots. It speaks of every listed core, channel and plot; one that is not listed has empty memories. -/
def Machine.State.MemOk (s : State) : Prop :=
  (∀ e ∈ s.cores, e.2.memOk) ∧ (∀ e ∈ s.channels, Memory.wf e.2.mem = true) ∧ Memory.wf s.hub.flash.mem = true ∧ (∀ e ∈ s.plots, ∀ k ∈ e.2.moving.saved, k.work.memOk)

end Sys2Proof
end

