-- ==== Sys2Proof/WellFormed.lean ====
section
/-! DEFINITION. Which commands are well formed: operands that name parts the module has, and observations that its sensors, links and tests can make. -/

namespace Sys2Proof

/-- A packet whose framing reached the device carries LENGTH payload bytes; one whose framing failed carries none (R417, R418). -/
def PacketIn.wf (p : PacketIn) : Bool := decide (p.payload.length = p.length.toNat ∨ p.payload = [])

/-- A finding of the self-test names a physical core, a physical column, a bridge link of an edge or a channel that exists (R31, R36, R130, R478). -/
def TestFinding.wf : TestFinding → Bool
  | .core _ _ col => decide (col.toNat < 36)
  | .column _ col => decide (col.toNat < 34)
  | .bridge edge link => decide (edge < 10 ∧ link.toNat < 36)
  | .channel _ => true

/-- A temperature sample has a sensor of each field, stack and optical engine (R555). -/
def ThermalReading.wf (t : ThermalReading) : Bool := decide (t.junction.length = 8 ∧ t.stackTemps.length = 16 ∧ t.optical.length = 16)

/-- A slot command that opens its bundle has the bits of its slot in the bundle's head (R187). -/
def Issue.carries {n : Nat} (i : Issue) (slot : BundleHead → BitVec n) (w : BitVec n) : Bool :=
  match i.head with
  | some h => slot h == w
  | none => true

/-- Well-formed commands. -/
def Instr.wf : Instr → Bool
  | .snop i w => i.carries BundleHead.scalar (0#6 ++ w)
  | .sadd i w => i.carries BundleHead.scalar (1#6 ++ w)
  | .saddi i w => i.carries BundleHead.scalar (2#6 ++ w)
  | .smul i w => i.carries BundleHead.scalar (3#6 ++ w)
  | .slogic i w => i.carries BundleHead.scalar (4#6 ++ w)
  | .sshift i w => i.carries BundleHead.scalar (5#6 ++ w)
  | .sminmax i w => i.carries BundleHead.scalar (6#6 ++ w)
  | .scmp i w => i.carries BundleHead.scalar (7#6 ++ w)
  | .ssel i w => i.carries BundleHead.scalar (8#6 ++ w)
  | .slui i w => i.carries BundleHead.scalar (9#6 ++ w)
  | .smovi i w => i.carries BundleHead.scalar (10#6 ++ w)
  | .sfeat i w => i.carries BundleHead.scalar (11#6 ++ w)
  | .amov i w => i.carries BundleHead.scalar (12#6 ++ w)
  | .aadd i w => i.carries BundleHead.scalar (13#6 ++ w)
  | .aget i w => i.carries BundleHead.scalar (14#6 ++ w)
  | .lbegin i w => i.carries BundleHead.scalar (15#6 ++ w)
  | .linc i w => i.carries BundleHead.scalar (16#6 ++ w)
  | .snext i w => i.carries BundleHead.scalar (17#6 ++ w)
  | .sown i w => i.carries BundleHead.scalar (18#6 ++ w)
  | .loopEnd _ => true
  | .stopBundle _ => true
  | .vnop i w => i.carries BundleHead.vector (0#8 ++ w)
  | .vadd i w => i.carries BundleHead.vector (1#8 ++ w)
  | .vmul i w => i.carries BundleHead.vector (2#8 ++ w)
  | .vmulh i w => i.carries BundleHead.vector (3#8 ++ w)
  | .vshift i w => i.carries BundleHead.vector (4#8 ++ w)
  | .vlogic i w => i.carries BundleHead.vector (5#8 ++ w)
  | .vminmax i w => i.carries BundleHead.vector (6#8 ++ w)
  | .vcount i w => i.carries BundleHead.vector (7#8 ++ w)
  | .vcmp i w => i.carries BundleHead.vector (8#8 ++ w)
  | .vsel i w => i.carries BundleHead.vector (9#8 ++ w)
  | .vperm i w => i.carries BundleHead.vector (10#8 ++ w)
  | .vunpk i w => i.carries BundleHead.vector (11#8 ++ w)
  | .vpack i w => i.carries BundleHead.vector (12#8 ++ w)
  | .vlut i w => i.carries BundleHead.vector (13#8 ++ w)
  | .vmovi i w => i.carries BundleHead.vector (14#8 ++ w)
  | .vsplat i w => i.carries BundleHead.vector (15#8 ++ w)
  | .vget i w => i.carries BundleHead.vector (16#8 ++ w)
  | .mset i w => i.carries BundleHead.vector (17#8 ++ w)
  | .mlogic i w => i.carries BundleHead.vector (18#8 ++ w)
  | .mnop i w => i.carries BundleHead.matrix (0#4 ++ w)
  | .mload i w => i.carries BundleHead.matrix (1#4 ++ w)
  | .mstream i w => i.carries BundleHead.matrix (2#4 ++ w)
  | .mtile i w => i.carries BundleHead.matrix (3#4 ++ w)
  | .manchor i w => i.carries BundleHead.matrix (4#4 ++ w)
  | .mread i w => i.carries BundleHead.matrix (5#4 ++ w)
  | .mprobe i w => i.carries BundleHead.matrix (6#4 ++ w)
  | .mtilePass _ => true
  | .mstreamColumn _ => true
  | .contributionLands _ => true
  | .residueCheckEvent _ _ => true
  | .columnTestDone _ _ => true
  | .lnop i w => i.carries BundleHead.load (0#4 ++ w)
  | .ldv i w => i.carries BundleHead.load (1#4 ++ w)
  | .lds i w => i.carries BundleHead.load (2#4 ++ w)
  | .ldvs i w => i.carries BundleHead.load (3#4 ++ w)
  | .ldvg i w => i.carries BundleHead.load (4#4 ++ w)
  | .snopst i w => i.carries BundleHead.store (0#4 ++ w)
  | .stv i w => i.carries BundleHead.store (1#4 ++ w)
  | .sts i w => i.carries BundleHead.store (2#4 ++ w)
  | .stvs i w => i.carries BundleHead.store (3#4 ++ w)
  | .stvg i w => i.carries BundleHead.store (4#4 ++ w)
  | .resultWriteLands _ => true
  | .storeWriteLands _ => true
  | .fillOpResumes _ => true
  | .patrolScrubRead _ _ => true
  | .patrolScrubWriteback _ _ => true
  | .synop i w => i.carries BundleHead.sync (0#5 ++ w)
  | .wait i w => i.carries BundleHead.sync (1#5 ++ w)
  | .test i w => i.carries BundleHead.sync (2#5 ++ w)
  | .tadd i w => i.carries BundleHead.sync (3#5 ++ w)
  | .sig i w => i.carries BundleHead.sync (4#5 ++ w)
  | .bar i w => i.carries BundleHead.sync (5#5 ++ w)
  | .post i w => i.carries BundleHead.sync (6#5 ++ w)
  | .select i w => i.carries BundleHead.sync (7#5 ++ w)
  | .release i w => i.carries BundleHead.sync (8#5 ++ w)
  | .cadd i w => i.carries BundleHead.sync (9#5 ++ w)
  | .cwait i w => i.carries BundleHead.sync (10#5 ++ w)
  | .cput i w => i.carries BundleHead.sync (11#5 ++ w)
  | .ctake i w => i.carries BundleHead.sync (12#5 ++ w)
  | .amsg i w => i.carries BundleHead.sync (13#5 ++ w)
  | .signalLands _ => true
  | .postedMessageLands _ => true
  | .granarySpill _ _ => true
  | .granaryDrainLands _ _ => true
  | .postedFlitAdvance _ => true
  | .activeMessageArrives _ => true
  | .handlerStart _ _ => true
  | .barrierCompletionLands _ _ _ => true
  | .orphanWait _ => true
  | .dozeEntry _ _ => true
  | .lineFiring _ _ => true
  | .partialFiring _ _ => true
  | .landFiring _ _ => true
  | .recvFiring _ _ => true
  | .bridgeFlitArrives _ _ => true
  | .flitAdvance _ => true
  | .scheduledFlitLands _ => true
  | .partialMergeLands _ => true
  | .dsReadFiring _ _ => true
  | .dsWriteFiring _ _ => true
  | .dsGranaryFiring _ _ => true
  | .dsReadUnitLands _ => true
  | .dsWritePerformed _ => true
  | .deepStall _ => true
  | .deepStallEnd _ _ => true
  | .dsRefresh _ => true
  | .dsScrub _ _ => true
  | .coreArrives _ => true
  | .fieldArrivalRegistered _ _ _ => true
  | .bellIntervalElapsed _ _ => true
  | .bellInEdge _ _ => true
  | .syncLate _ _ => true
  | .bellRings _ _ => true
  | .stepRelease _ _ => true
  | .stepLimit _ => true
  | .idleBell _ => true
  | .emptyBell _ _ => true
  | .droopTrip _ => true
  | .droopFloor _ => true
  | .droopCeilingRestore _ => true
  | .sysrefLoss _ => true
  | .sysrefRelock _ => true
  | .holdoverExpiry _ => true
  | .pcieRefclkLoss _ => true
  | .pcieRefclkRelock _ => true
  | .stepAbandon _ _ => true
  | .retryRelease _ _ => true
  | .coreLost _ _ => true
  | .powerDomainFault _ => true
  | .logicCheckEvent _ => true
  | .bridgeLinkFailure _ _ link => decide (link.toNat < 36)
  | .imageScrubPass _ object _ _ _ => decide (object.toNat ≤ 7)
  | .laserAgeing _ => true
  | .lockstepDigestReceived _ _ => true
  | .recordDelivery => true
  | .nop p => p.wf
  | .state p => p.wf
  | .request p => p.wf
  | .fetch p => p.wf
  | .steparg p => p.wf
  | .runStart p => p.wf
  | .runEnd p => p.wf
  | .recordClose p => p.wf
  | .loadImage p => p.wf
  | .plotCreate p => p.wf
  | .plotResize p => p.wf
  | .plotPreempt p => p.wf
  | .plotResume p => p.wf
  | .plotReset p => p.wf
  | .quota p => p.wf
  | .budget p => p.wf
  | .commonsAssign p => p.wf
  | .commonsGrant p => p.wf
  | .commonsRevoke p => p.wf
  | .plotJoin p => p.wf
  | .plotLeave p => p.wf
  | .joinConfirmed _ => true
  | .joinTimeout _ => true
  | .calendar p => p.wf
  | .flashBegin p => p.wf
  | .flashWrite p => p.wf
  | .flashCommit p => p.wf
  | .flashDelete p => p.wf
  | .flashConfig p => p.wf
  | .flashRaise p => p.wf
  | .flashKeyload p => p.wf
  | .flashOpDone => true
  | .preemptSaveDone _ => true
  | .resumeRestoreDone _ => true
  | .coreClearDone _ => true
  | .channelZeroDone _ => true
  | .sqReadResume _ => true
  | .devicePacketWrite _ => true
  | .irqHoldoffExpiry _ => true
  | .dmaError _ _ => true
  | .pcieLinkDown => true
  | .pcieLinkRetrain => true
  | .flr _ => true
  | .perstN => true
  | .sqtailDoorbell _ _ => true
  | .cqheadWrite _ _ => true
  | .ringEnable _ _ _ => true
  | .ringDisable _ _ _ => true
  | .bellctlWrite _ _ => true
  | .rwlFieldWrite _ _ _ => true
  | .diagGo _ _ => true
  | .diagStep _ fault => match fault with | some f => knownCodes.contains f.code | none => true
  | .faultsumClear _ => true
  | .mboxfromRead _ => true
  | .readClear _ _ => true
  | .registerWrite _ _ _ _ => true
  | .ping _ _ => true
  | .status _ _ => true
  | .drain _ _ => true
  | .drainComplete _ => true
  | .pwrOkRise => true
  | .pwrOkFall => true
  | .resetPhaseDone => true
  | .hubTestDone _ => true
  | .keysDone => true
  | .flashPhaseDone => true
  | .fieldTestDone findings => findings.all TestFinding.wf
  | .linksDone r => decide (r.ok = true → r.depth.toNat ≤ 4)
  | .loadPhaseDone => true
  | .loadedNRise _ => true
  | .bellZero _ => true
  | .codewordReceived _ lane _ symbolErrors => decide (lane.toNat ≤ 8 ∧ symbolErrors ≤ 544)
  | .nakReceived _ lane _ replayed => decide (lane.toNat ≤ 8 ∧ replayed ≤ 4096)
  | .ackReceived _ lane _ => decide (lane.toNat ≤ 8)
  | .bellFrameReceived _ _ _ => true
  | .spareLaneTrained _ _ => true
  | .linkTraining _ _ => true
  | .opticalLinkDown _ => true
  | .sync _ _ _ => true
  | .arrive _ _ => true
  | .edge _ _ => true
  | .ring _ _ => true
  | .halt _ _ => true
  | .stop _ _ => true
  | .control _ _ => true
  | .bellEpoch _ _ => true
  | .transitFlit _ => true
  | .gateRelease _ _ _ => true
  | .creditReturn _ n _ => decide (0 < n)
  | .thermalSample t => t.wf
  | .thermal _ => true
  | .thermalHoldEnd _ => true
  | .powerSample _ _ => true
  | .vsetSettled => true
  | .railTrip rail => decide (rail.toNat ≤ 9)
  | .thermtrip _ => true
  | .vbatLoss => true
  | .calendarEnd _ => true
  | .jtagInstruction _ => true
  | .debugUnlock level key signature => decide ((level = 1 ∨ level = 2) ∧ key < 2 ^ 768 ∧ signature < 2 ^ 768)
  | .i3cDynamicAddress _ => true
  | .i3cSetOffset _ => true
  | .i3cRead len => decide (0 < len)
  | .i3cWrite _ _ => true
  | .logportRead => true
  | .droopRecovery _ => true
  | .commonsViewUpdate _ => true
  | .commonsRequestAccepted _ => true
  | .perstNDeassert => true
  | .loadedNFall => true
  | .vbatApplied => true

end Sys2Proof
end

