-- ==== Sys2Proof/Certificates/Slice0/Obligations.lean ====
section
/-! DEFINITION. The statements about the model, one `def Obligations.<Name> : Prop` each, and the words they are written in. -/

namespace Sys2Proof.Claims

open Sys2Proof.Machine

/-! ### Where a slot operation issues -/

/-- The core once the bundle that a slot command stands in has been presented: `dt` fc have passed when the command comes first in its bundle. -/
def opened (s : State) (i : Issue) : CoreState := (s.core i.core).presented (s.env i.core) i

/-- A slot operation issues: the grade has its core, the core's step runs, and the bundle is no held, faulted or cancelled one. -/
def Issues (s : State) (i : Issue) : Prop :=
  s.hasCore i.core = true ∧ (s.env i.core).running = true ∧ (opened s i).bundleLive i.fill = true

/-- The state in which core `cid` is `c`, and what it has sent has entered the mesh. -/
def became (s : State) (cid : CoreId) (c : CoreState) : State := (s.setCore cid c).drainOutbox cid

/-- The origin of the operation in slot `slot` whose bits are `word`. -/
def originOf (s : State) (i : Issue) (slot : Nat) (word : Word) : Origin := ((opened s i).stream i.fill).origin i.fill slot word

/-- The registers are the stream's own (R204). -/
def Usable (c : CoreState) (fill : Bool) (regs : List (RegClass × Nat)) : Prop := ∀ u ∈ regs, c.mayUse fill u = true

/-- No other write to the register lands in fc `fc` (R167, R193). -/
def Unclaimed (c : CoreState) (u : RegClass × Nat) (fc : Nat) : Prop := c.clashes u.1 u.2 fc false = false

/-- The core with the write of a register in fc `fc` claimed; S0 and A0 are never claimed (R193, R197). -/
def claimed (c : CoreState) (o : Origin) (u : RegClass × Nat) (fc : Nat) : CoreState := if hardZero u.1 u.2 then c else c.claim u.1 u.2 fc o

/-- The core after an operation has claimed the register that result `w` writes and scheduled the write for fc `fc`. -/
def schedule (c : CoreState) (o : Origin) (fc : Nat) (w : RegWrite) : CoreState := (claimed c o w.target fc).result fc w o

/-- The core with scratchpad ports claimed by main-stream work; fill work claims none (R207, R223). -/
def withPorts (c : CoreState) (fill : Bool) (ports : List PortClaim) : CoreState := if fill then c else c.claimPorts ports

/-- Main-stream work finds its ports: no claim would exceed four reads or two writes in a fc (R223). -/
def PortsFree (c : CoreState) (env : Env) (fill : Bool) (ports : List PortClaim) : Prop := fill = false → c.portClash env ports = none

/-! ### The rows of a slot's operations -/

/-- The row of a scalar-slot operation with its operand bits (R199). -/
def scalarRow (i : Issue) (o : ScalarOp) : Instr :=
  let w := (encodeScalar o).setWidth 34
  match o with
  | .snop => .snop i w
  | .sadd _ _ _ _ _ => .sadd i w
  | .saddi _ _ _ => .saddi i w
  | .smul _ _ _ _ => .smul i w
  | .slogic _ _ _ _ => .slogic i w
  | .sshift _ _ _ _ _ _ _ => .sshift i w
  | .sminmax _ _ _ _ _ => .sminmax i w
  | .scmp _ _ _ _ => .scmp i w
  | .ssel _ _ _ _ => .ssel i w
  | .slui _ _ => .slui i w
  | .smovi _ _ => .smovi i w
  | .sfeat _ _ => .sfeat i w
  | .amov _ _ _ => .amov i w
  | .aadd _ _ _ => .aadd i w
  | .aget _ _ => .aget i w
  | .lbegin _ _ _ _ => .lbegin i w
  | .linc _ _ _ _ _ => .linc i w
  | .snext _ _ _ _ => .snext i w
  | .sown _ _ => .sown i w

/-- The row of a vector-slot operation with its operand bits (R165). -/
def vectorRow (i : Issue) (o : VectorOp) : Instr :=
  let w := (encodeVector o).setWidth 40
  match o with
  | .vnop => .vnop i w
  | .vadd _ _ _ _ _ => .vadd i w
  | .vmul _ _ _ _ _ _ => .vmul i w
  | .vmulh _ _ _ _ _ => .vmulh i w
  | .vshift _ _ _ _ _ _ _ => .vshift i w
  | .vlogic _ _ _ _ => .vlogic i w
  | .vminmax _ _ _ _ _ => .vminmax i w
  | .vcount _ _ _ => .vcount i w
  | .vcmp _ _ _ _ => .vcmp i w
  | .vsel _ _ _ _ => .vsel i w
  | .vperm _ _ _ _ _ => .vperm i w
  | .vunpk _ _ _ _ _ _ _ _ => .vunpk i w
  | .vpack _ _ _ _ _ _ _ _ _ => .vpack i w
  | .vlut _ _ _ _ => .vlut i w
  | .vmovi _ _ => .vmovi i w
  | .vsplat _ _ => .vsplat i w
  | .vget _ _ _ => .vget i w
  | .mset _ _ => .mset i w
  | .mlogic _ _ _ _ => .mlogic i w

/-- The row of a matrix-slot operation with its operand bits (R109, R149, R153). -/
def matrixRow (i : Issue) (o : MatrixOp) : Instr :=
  let w := (encodeMatrix o).setWidth 44
  match o with
  | .mnop _ => .mnop i w
  | .mload _ _ _ _ _ => .mload i w
  | .mstream _ _ _ _ _ _ => .mstream i w
  | .mtile _ _ _ _ _ _ _ => .mtile i w
  | .manchor _ _ _ => .manchor i w
  | .mread _ _ _ _ _ _ _ => .mread i w
  | .mprobe _ _ _ => .mprobe i w

/-- The row of a load-slot operation with its operand bits (R239). -/
def loadRow (i : Issue) (o : LoadOp) : Instr :=
  let w := (encodeLoad o).setWidth 32
  match o with
  | .lnop => .lnop i w
  | .ldv _ _ _ _ => .ldv i w
  | .lds _ _ _ _ => .lds i w
  | .ldvs _ _ _ _ _ _ => .ldvs i w
  | .ldvg _ _ _ _ _ => .ldvg i w

/-- The row of a store-slot operation with its operand bits (R239). -/
def storeRow (i : Issue) (o : StoreOp) : Instr :=
  let w := (encodeStore o).setWidth 32
  match o with
  | .snopst => .snopst i w
  | .stv _ _ _ _ _ _ => .stv i w
  | .sts _ _ _ _ => .sts i w
  | .stvs _ _ _ _ _ => .stvs i w
  | .stvg _ _ _ _ => .stvg i w

/-- The row of a sync-slot operation with its operand bits (R248). -/
def syncRow (i : Issue) (o : SyncOp) : Instr :=
  let w := (encodeSync o).setWidth 27
  match o with
  | .synop => .synop i w
  | .wait _ _ _ => .wait i w
  | .waitReg _ _ _ => .wait i w
  | .test _ _ => .test i w
  | .tadd _ _ _ => .tadd i w
  | .taddReg _ _ _ => .tadd i w
  | .sig _ => .sig i w
  | .bar _ => .bar i w
  | .post _ _ _ _ => .post i w
  | .select _ _ _ => .select i w
  | .release _ => .release i w
  | .cadd _ _ => .cadd i w
  | .cwait _ _ => .cwait i w
  | .cput _ _ => .cput i w
  | .ctake _ => .ctake i w
  | .amsg _ _ _ _ => .amsg i w

/-- The issue of a slot operation with whatever operand bits; `none` for every other command. -/
def slotIssue : Instr → Option Issue
  | .snop i _ | .sadd i _ | .saddi i _ | .smul i _ | .slogic i _ | .sshift i _ | .sminmax i _ | .scmp i _ | .ssel i _ | .slui i _
  | .smovi i _ | .sfeat i _ | .amov i _ | .aadd i _ | .aget i _ | .lbegin i _ | .linc i _ | .snext i _ | .sown i _ | .vnop i _
  | .vadd i _ | .vmul i _ | .vmulh i _ | .vshift i _ | .vlogic i _ | .vminmax i _ | .vcount i _ | .vcmp i _ | .vsel i _ | .vperm i _
  | .vunpk i _ | .vpack i _ | .vlut i _ | .vmovi i _ | .vsplat i _ | .vget i _ | .mset i _ | .mlogic i _ | .mnop i _ | .mload i _
  | .mstream i _ | .mtile i _ | .manchor i _ | .mread i _ | .mprobe i _ | .lnop i _ | .ldv i _ | .lds i _ | .ldvs i _ | .ldvg i _
  | .snopst i _ | .stv i _ | .sts i _ | .stvs i _ | .stvg i _ | .synop i _ | .wait i _ | .test i _ | .tadd i _ | .sig i _
  | .bar i _ | .post i _ | .select i _ | .release i _ | .cadd i _ | .cwait i _ | .cput i _ | .ctake i _ | .amsg i _ => some i
  | _ => none

/-- The command is a slot operation of issue `i`. -/
def SlotRow (i : Issue) (c : Instr) : Prop := slotIssue c = some i

/-- The slot bits of an operation, zero-extended to 64 as a report's D0 gives them (R378). -/
def scalarBits (o : ScalarOp) : Word := (encodeScalar o).setWidth 64
/-- As `scalarBits`. -/
def vectorBits (o : VectorOp) : Word := (encodeVector o).setWidth 64
/-- As `scalarBits`. -/
def matrixBits (o : MatrixOp) : Word := (encodeMatrix o).setWidth 64
/-- As `scalarBits`. -/
def loadBits (o : LoadOp) : Word := (encodeLoad o).setWidth 64
/-- As `scalarBits`. -/
def storeBits (o : StoreOp) : Word := (encodeStore o).setWidth 64
/-- As `scalarBits`. -/
def syncBits (o : SyncOp) : Word := (encodeSync o).setWidth 64

end Sys2Proof.Claims

open Sys2Proof Sys2Proof.Machine Sys2Proof.Claims

/-- A step runs the command at the front of the queue. For every command c, every queue and every state, a step with c at the front of the queue is exec of c on the state with the queue's rest: the commands run one at a time, first in, first out. -/
def Obligations.StepRunsFrontCommand : Prop :=
  ∀ (c : Instr) (rest : List Instr) (s : State), step { s with pending := c :: rest } = exec c { s with pending := rest }

/-- With no command waiting the block idles (the model's choice, log entry 2). The spec gives the block no tick of its own apart from the commands, so with an empty queue a step answers the same state (DESIGN CHOICE, log entry 2). -/
def Obligations.EmptyQueueIdles : Prop :=
  ∀ s : State, s.pending = [] → step s = .next s

/-- A command that names a part the module lacks stops with a fault of that name. A slot operation, a loop end and a stop bundle on a core beyond the grade's rows fault with noSuchCore; a deep-store event on a channel beyond the grade's channels faults with noSuchChannel; a codeword, NAK or ACK on a physical lane above 8 faults with noSuchLane. These stops are the model's own: the spec names no such part, and log entry 11 declares them. -/
def Obligations.AbsentPartsFault : Prop :=
  ∀ s : State,
    (∀ (i : Issue) (c : Instr), SlotRow i c ∨ c = .loopEnd i ∨ c = .stopBundle i → s.grade.rows ≤ rowOf i.core → exec c s = .fault .noSuchCore) ∧
    (∀ ch : ChanId, s.grade.channels ≤ ch.toNat →
      exec (.dsReadUnitLands ch) s = .fault .noSuchChannel ∧ exec (.dsWritePerformed ch) s = .fault .noSuchChannel ∧ exec (.deepStall ch) s = .fault .noSuchChannel) ∧
    (∀ (port : PortId) (lane : BitVec 4) (q : BitVec 12) (n : Nat), 8 < lane.toNat →
      exec (.codewordReceived port lane q n) s = .fault .noSuchLane ∧ exec (.nakReceived port lane q n) s = .fault .noSuchLane ∧ exec (.ackReceived port lane q) s = .fault .noSuchLane)

/-- Words written out bit by bit decode to their operations. One word of each slot, written out field by field from the slot's encoding table, decodes to the operation that it stands for, and the same word with one reserved bit set decodes to none. -/
def Obligations.SlotWordsAsTheTablesWriteThem : Prop :=
  decodeScalar (0b000001#6 ++ 0b00011#5 ++ 0b00001#5 ++ 0b00010#5 ++ 0b01#2 ++ 0b1#1 ++ 0#16) = some (.sadd 3 1 2 1 1) ∧
  decodeScalar (0b000001#6 ++ 0b00011#5 ++ 0b00001#5 ++ 0b00010#5 ++ 0b01#2 ++ 0b1#1 ++ 1#16) = none ∧
  decodeVector (0b00001010#8 ++ 0b00111#5 ++ 0b00001#5 ++ 0b00000#5 ++ 0b001#3 ++ 0b00101#5 ++ 0#17) = some (.vperm 7 1 0 1 5) ∧
  decodeMatrix (0b0100#4 ++ 0b0011#4 ++ 0b1#1 ++ 0b0000000101#10 ++ 0#29) = some (.manchor 3 1 5) ∧
  decodeLoad (0b0001#4 ++ 0b01001#5 ++ 0b000010#6 ++ 0b0011#4 ++ 0b11111111111111111#17) = some (.ldv 9 2 3 0x1FFFF) ∧
  decodeStore (0b0001#4 ++ 0b00100#5 ++ 0b000001#6 ++ 0b0010#4 ++ 0b0001#4 ++ 0b0011#4 ++ 0b000000001#9) = some (.stv 4 1 2 1 3 1) ∧
  decodeSync (0b00001#5 ++ 0b000101#6 ++ 0b1#1 ++ 0b0#1 ++ 0b0000000000000000111#19) = some (.wait 5 1 7) ∧
  decodeSync (0b00001#5 ++ 0b000101#6 ++ 0b1#1 ++ 0b1#1 ++ 0b00110#5 ++ 0#14) = some (.waitReg 5 1 6)

/-- Every slot operation in range decodes to itself from its encoding. For each of the six slots: every operation whose fields lie in the ranges of its table decodes, from the bits that the table gives it, to itself with every operand at its value; and a word that decodes is the encoding of what it decodes to, so no word with a reserved bit set is taken for an operation. -/
def Obligations.SlotOperationsDecodeAsEncoded : Prop :=
  ((∀ o : ScalarOp, inRangeScalar o = true → decodeScalar (encodeScalar o) = some o) ∧ (∀ (w : BitVec 40) (o : ScalarOp), decodeScalar w = some o → encodeScalar o = w)) ∧
  ((∀ o : VectorOp, inRangeVector o = true → decodeVector (encodeVector o) = some o) ∧ (∀ (w : BitVec 48) (o : VectorOp), decodeVector w = some o → encodeVector o = w)) ∧
  ((∀ o : MatrixOp, inRangeMatrix o = true → decodeMatrix (encodeMatrix o) = some o) ∧ (∀ (w : BitVec 48) (o : MatrixOp), decodeMatrix w = some o → encodeMatrix o = w)) ∧
  ((∀ o : LoadOp, inRangeLoad o = true → decodeLoad (encodeLoad o) = some o) ∧ (∀ (w : BitVec 36) (o : LoadOp), decodeLoad w = some o → encodeLoad o = w)) ∧
  ((∀ o : StoreOp, inRangeStore o = true → decodeStore (encodeStore o) = some o) ∧ (∀ (w : BitVec 36) (o : StoreOp), decodeStore w = some o → encodeStore o = w)) ∧
  ((∀ o : SyncOp, inRangeSync o = true → decodeSync (encodeSync o) = some o) ∧ (∀ (w : BitVec 32) (o : SyncOp), decodeSync w = some o → encodeSync o = w))

/-- Every step keeps every memory in its canonical form. Where every memory of the module has its addresses strictly rising and lists no byte equal to what an unlisted address reads as, it has so after any step that answers a next state: scratchpads, bell images, deep-store shares, the configuration flash and the save blocks of pre-empted plots. -/
def Obligations.MemoriesStayCanonical : Prop :=
  ∀ s t : State, s.MemOk → step s = .next t → t.MemOk

/-- Right after reset no command waits, every memory is in canonical form, and the registers read the reset values of their tables. The registers of every function window read the Reset column of their tables: IDLE of both rings 1, BATCH 1, PASS and PASS_BUDGET 64, BUDGET 0xFFFF, and 0 in the ring counters, interrupt, mailbox, bell, fault, placement, quota and diagnostic registers. In the module window PART, LEVEL, STEPPING and COLS identify the module, the references and the fault summary read 0, every ceiling is 1,500 MHz, no port's spare serves, THRESH is 0x100000, every commons tally and mailbox is orphaned, and no plot is joined. The reset values of registers whose tables give none are the model's (log entry 9) and no clause reads them. -/
def Obligations.ResetLeavesTheStatedValues : Prop :=
  State.reset.pending = [] ∧ State.reset.MemOk ∧
  (∀ fn : Fn,
    (∀ off : BitVec 16, off ∈ [0x00, 0x10, 0x18, 0x20, 0x30, 0x38, 0x48, 0x58, 0x60, 0x100, 0x108, 0x110, 0x130, 0x138, 0x148, 0x1000, 0x1008, 0x1010, 0x1020, 0x1028] → State.reset.readReg fn (.function off) = 0) ∧
    State.reset.readReg fn (.function 0x08) = 0x200 ∧ State.reset.readReg fn (.function 0x28) = 0x200 ∧ State.reset.readReg fn (.function 0x40) = 0x100000000 ∧
    State.reset.readReg fn (.function 0x118) = 0x40 ∧ State.reset.readReg fn (.function 0x1018) = 0x400000FFFF) ∧
  (let ident := State.reset.readReg 0 (.module 0)
   ident.extractLsb' 0 16 = 0x4D32 ∧ ident.extractLsb' 20 4 = 2 ∧ ident.extractLsb' 24 8 = 0x41 ∧ ident.extractLsb' 40 8 = 0x40) ∧
  (∀ k < 16, State.reset.readReg 0 (.module (BitVec.ofNat 26 (0x1000 + 0x400 * k))) = 0x100000 ∧ State.reset.readReg 0 (.module (BitVec.ofNat 26 (0x1008 + 0x400 * k))) = 0x1E00000) ∧
  (∀ f < 8, State.reset.readReg 0 (.module (BitVec.ofNat 26 (0x100080 + 0x100000 * f))) = 0x5DC0000) ∧
  (∀ fn : Fn, State.reset.readReg 0 (.module (BitVec.ofNat 26 (0x800 + 8 * fn.toNat))) = 0) ∧
  (State.reset.readReg 0 (.module 0x10) = 0 ∧ State.reset.readReg 0 (.module 0x08) = 0 ∧ State.reset.readReg 0 (.module 0x10000) = 0 ∧ State.reset.readReg 0 (.module 0x10018) = 0x1001000)


namespace Sys2Proof.Claims

open Sys2Proof.Machine

/-! ### Scalar results as the rules state them -/

/-- What a scalar-slot operation computes: the registers it reads, its destination, the fc from issue to its write, the value and whether a saturating form clamped it (R196, R200). -/
structure ScalarSpec where
  reads : List (BitVec 5)
  dest : BitVec 5
  lat : Nat
  value : Word
  clamped : Bool

/-- A signed sum or product kept to 64 bits by OV: wrapped, clamped to the signed range, or clamped to the unsigned range (R200). -/
def keptBy (ov : BitVec 2) (signed unsigned : Int) : Word × Bool :=
  if ov = 1 then (BitVec.ofInt 64 (max (-2 ^ 63) (min (2 ^ 63 - 1) signed)), decide (signed < -2 ^ 63 ∨ 2 ^ 63 ≤ signed))
  else if ov = 2 then (BitVec.ofInt 64 (max 0 (min (2 ^ 64 - 1) unsigned)), decide (unsigned < 0 ∨ 2 ^ 64 ≤ unsigned))
  else (BitVec.ofInt 64 signed, false)

/-- The operations of R200 and SFEAT (R213); `none` for the others. -/
def scalarSpec (c : CoreState) : ScalarOp → Option ScalarSpec
  | .sadd d a b ov sub =>
    let x := c.readS a
    let y := c.readS b
    let r := if sub = 1 then keptBy ov (x.toInt - y.toInt) ((x.toNat : Int) - y.toNat) else keptBy ov (x.toInt + y.toInt) ((x.toNat : Int) + y.toNat)
    some { reads := [a, b], dest := d, lat := 1, value := r.1, clamped := r.2 }
  | .saddi d a imm => some { reads := [a], dest := d, lat := 1, value := c.readS a + imm.signExtend 64, clamped := false }
  | .smul d a b ov =>
    let r := keptBy ov ((c.readS a).toInt * (c.readS b).toInt) (((c.readS a).toNat : Int) * (c.readS b).toNat)
    some { reads := [a, b], dest := d, lat := 2, value := r.1, clamped := r.2 }
  | .slogic d a b fn =>
    let x := c.readS a
    let y := c.readS b
    some { reads := [a, b], dest := d, lat := 1, value := if fn = 0 then x &&& y else if fn = 1 then x ||| y else if fn = 2 then x ^^^ y else x &&& ~~~y, clamped := false }
  | .sshift d a b kind reg amt mode =>
    let x := c.readS a
    let n := if reg = 1 then ((c.readS b).extractLsb' 0 6).toNat else amt.toNat
    some { reads := if reg = 1 then [a, b] else [a], dest := d, lat := if kind = 3 then 2 else 1,
           value := if kind = 0 then x <<< n else if kind = 1 then x >>> n else if kind = 2 then x.sshiftRight n else BitVec.ofInt 64 (roundShift x.toInt n mode 0), clamped := false }
  | .sminmax d a b max uns =>
    let x := c.readS a
    let y := c.readS b
    let less : Bool := if uns = 1 then decide (x.toNat < y.toNat) else decide (x.toInt < y.toInt)
    some { reads := [a, b], dest := d, lat := 1, value := if max = 1 then (if less then y else x) else (if less then x else y), clamped := false }
  | .scmp d a b cond =>
    let x := c.readS a
    let y := c.readS b
    let holds : Bool := match cond.toNat with
      | 0 => decide (x = y)
      | 1 => decide (x ≠ y)
      | 2 => decide (x.toInt < y.toInt)
      | 3 => decide (x.toInt ≤ y.toInt)
      | 4 => decide (x.toNat < y.toNat)
      | 5 => decide (x.toNat ≤ y.toNat)
      | 6 => decide (y.toInt < x.toInt)
      | _ => decide (y.toInt ≤ x.toInt)
    some { reads := [a, b], dest := d, lat := 1, value := if holds then 1 else 0, clamped := false }
  | .ssel d a b x => some { reads := [a, b, x], dest := d, lat := 1, value := if c.readS x = 0 then c.readS b else c.readS a, clamped := false }
  | .slui d imm => some { reads := [d], dest := d, lat := 1, value := (c.readS d).extractLsb' 0 40 ++ imm, clamped := false }
  | .smovi d imm => some { reads := [], dest := d, lat := 1, value := imm.signExtend 64, clamped := false }
  | .sfeat d index =>
    some { reads := [], dest := d, lat := 1, value := if index = 0 then c.tables.featPos else if index = 1 then c.tables.featPlot else if index = 2 then featArray else 2, clamped := false }
  | .snop => none
  | .amov _ _ _ => none
  | .aadd _ _ _ => none
  | .aget _ _ => none
  | .lbegin _ _ _ _ => none
  | .linc _ _ _ _ _ => none
  | .snext _ _ _ _ => none
  | .sown _ _ => none

end Sys2Proof.Claims

/-- Each scalar operation answers a next state with its result scheduled. For SADD, SADDI, SMUL, SLOGIC, SSHIFT, SMINMAX, SCMP, SSEL, SLUI, SMOVI and SFEAT, with every operand in range: where the bundle issues, its registers are the stream's own and no other write to the destination lands in the same fc, the command answers the next state in which the value that R200 or R213 gives is on its way to the destination register, 1 fc from issue (2 for SMUL and RSR), a clamp is counted in SSAT, and nothing else of the module differs from the state with the bundle opened. For destination S0 no register is claimed, and the write is discarded when it lands. -/
def Obligations.ScalarOperationsScheduleTheirResults : Prop :=
  ∀ (s : State) (i : Issue) (op : ScalarOp) (r : ScalarSpec),
    let c := opened s i
    let o := originOf s i 1 (scalarBits op)
    inRangeScalar op = true → Issues s i → scalarSpec c op = some r →
    Usable c i.fill (r.reads.map (fun x => (.s, x.toNat)) ++ [(.s, r.dest.toNat)]) → Unclaimed c (.s, r.dest.toNat) (c.step.offset + r.lat) →
    exec (scalarRow i op) s =
      .next (became s i.core ((schedule c o (c.step.offset + r.lat) (.s r.dest r.value)).countScalarClamp r.clamped))

/-- AMOV, AADD and AGET answer a next state with their result scheduled. Where the bundle issues, the registers are the stream's own and no other write to the destination lands in the next fc: AMOV sends the low 32 bits of SA plus the sign-extended immediate, and AADD sends AA plus the immediate, both modulo 2^32, to AD; AGET sends AA, zero-extended, to SD; each lands 1 fc from issue, and nothing else differs from the state with the bundle opened. -/
def Obligations.AddressOperationsScheduleTheirResults : Prop :=
  ∀ (s : State) (i : Issue),
    let c := opened s i
    let f := c.step.offset + 1
    Issues s i →
    (∀ (ad : BitVec 4) (sa : BitVec 5) (imm : BitVec 19),
      Usable c i.fill [(.s, sa.toNat), (.a, ad.toNat)] → Unclaimed c (.a, ad.toNat) f →
      exec (scalarRow i (.amov ad sa imm)) s =
        .next (became s i.core (schedule c (originOf s i 1 (scalarBits (.amov ad sa imm))) f (.a ad ((c.readS sa).extractLsb' 0 32 + imm.signExtend 32))))) ∧
    (∀ (ad aa : BitVec 4) (imm : BitVec 19),
      Usable c i.fill [(.a, aa.toNat), (.a, ad.toNat)] → Unclaimed c (.a, ad.toNat) f →
      exec (scalarRow i (.aadd ad aa imm)) s =
        .next (became s i.core (schedule c (originOf s i 1 (scalarBits (.aadd ad aa imm))) f (.a ad (c.readA aa + imm.signExtend 32))))) ∧
    (∀ (sd : BitVec 5) (aa : BitVec 4),
      Usable c i.fill [(.a, aa.toNat), (.s, sd.toNat)] → Unclaimed c (.s, sd.toNat) f →
      exec (scalarRow i (.aget sd aa)) s =
        .next (became s i.core (schedule c (originOf s i 1 (scalarBits (.aget sd aa))) f (.s sd ((c.readA aa).setWidth 64)))))

/-- The no-operation of each slot changes nothing beyond the passage of its bundle. SNOP, VNOP, MNOP with WARM clear, LNOP, SNOPST and SYNOP: where the bundle issues, the command answers the state with the bundle opened and nothing else changed. -/
def Obligations.NoOperationsChangeNothing : Prop :=
  ∀ (s : State) (i : Issue), Issues s i →
    exec (scalarRow i .snop) s = .next (became s i.core (opened s i)) ∧
    exec (vectorRow i .vnop) s = .next (became s i.core (opened s i)) ∧
    exec (matrixRow i (.mnop 0)) s = .next (became s i.core (opened s i)) ∧
    exec (loadRow i .lnop) s = .next (became s i.core (opened s i)) ∧
    exec (storeRow i .snopst) s = .next (became s i.core (opened s i)) ∧
    exec (syncRow i .synop) s = .next (became s i.core (opened s i))

/-- LBEGIN, LINC, SNEXT and SOWN answer a next state with the frame or request set. Where the bundle issues and its registers are the stream's own: LBEGIN on frame number depth, below the stream's limit, in a bundle of CLASS 0 and with a nonzero count opens that frame with the count and the next bundle address as its start, the increments as they stood; LINC sets the named increment slot of a frame below the limit; in the main stream SNEXT records the requested main or fill entry and SOWN the requested attribute of the handle, both for the committing bell. -/
def Obligations.LoopFramesAndEntries : Prop :=
  ∀ (s : State) (i : Issue),
    let c := opened s i
    let st := c.stream i.fill
    Issues s i →
    (∀ (frame : BitVec 3) (creg : BitVec 1) (sa : BitVec 5) (count : BitVec 19),
      let n : BitVec 32 := if creg = 1 then (c.readS sa).extractLsb' 0 32 else count.setWidth 32
      inRangeScalar (.lbegin frame creg sa count) = true → (creg = 1 → Usable c i.fill [(.s, sa.toNat)]) →
      frame.toNat < (if i.fill then 2 else 6) → frame.toNat = st.depth → n ≠ 0 → headerClass st.header = 0 →
      exec (scalarRow i (.lbegin frame creg sa count)) s =
        .next (became s i.core
          (let c := c.setFrame i.fill frame.toNat { c.frame i.fill frame.toNat with count := n, start := BitVec.ofNat 13 (st.cur + 1) }
           c.setStreamState i.fill { c.stream i.fill with depth := st.depth + 1 }))) ∧
    (∀ (frame : BitVec 3) (slot : BitVec 2) (ar : BitVec 4) (en : BitVec 1) (inc : BitVec 19),
      let f := c.frame i.fill frame.toNat
      let v : IncSlot := { en := en == 1, ar := ar, inc := inc }
      inRangeScalar (.linc frame slot ar en inc) = true → (ar ≠ 0 → Usable c i.fill [(.a, ar.toNat)]) → frame.toNat < (if i.fill then 2 else 6) →
      exec (scalarRow i (.linc frame slot ar en inc)) s =
        .next (became s i.core (c.setFrame i.fill frame.toNat
          (if slot = 0 then { f with inc0 := v } else if slot = 1 then { f with inc1 := v } else if slot = 2 then { f with inc2 := v } else { f with inc3 := v })))) ∧
    (i.fill = false → ∀ (f nreg : BitVec 1) (sa : BitVec 5) (entry : BitVec 13),
      let e : BitVec 13 := if nreg = 1 then (c.readS sa).extractLsb' 0 13 else entry
      inRangeScalar (.snext f nreg sa entry) = true → (nreg = 1 → Usable c false [(.s, sa.toNat)]) →
      exec (scalarRow i (.snext f nreg sa entry)) s =
        .next (became s i.core (if f = 1 then { c with traffic.snextFill := some e } else { c with traffic.snextMain := some e }))) ∧
    (i.fill = false → ∀ (handle : BitVec 6) (owner : BitVec 2), owner ≠ 3 →
      exec (scalarRow i (.sown handle owner)) s = .next (became s i.core { c with traffic.sown := AMap.set c.traffic.sown handle.toNat owner }))

/-- LOOP_END and STOP_BUNDLE answer a next state with the stream moved on or ended. LOOP_END in a bundle of CLASS n, from 1 to 6, with at least n frames open: frames are closed from the innermost, each counting down by one with its increments taken; the first whose count stays nonzero is kept and the stream goes on at its start address; where all n counts reach 0 the frames close and the stream goes on at the next address; the increments taken, summed by register, land with the bundle. STOP_BUNDLE in a bundle with STOP set whose checks pass, with no fill work in flight when it is the fill stream's, ends the stream for the step and changes nothing else. -/
def Obligations.LoopEndsAndStops : Prop :=
  (∀ (s : State) (i : Issue),
    let c := opened s i
    let st := c.stream i.fill
    let n := headerClass st.header
    Issues s i →
    (1 ≤ n → n ≤ 6 → n ≤ st.depth →
      exec (.loopEnd i) s =
        .next (became s i.core
          (let r := loopEnd i.fill st.cur n c []
           let k := r.1.setStreamState i.fill { r.1.stream i.fill with next := r.2.1 }
           if r.2.2 = [] then k else k.push c.step.offset (.loopInc r.2.2)))) ∧
    (headerStop st.header = true →
      let u := became s i.core c
      (u.core i.core).stopCode i.fill (u.entryPending i.core) (u.roundOpen i.core) = none →
      (i.fill = true → ∀ e ∈ (u.core i.core).step.events, e.ev.isFill = false) →
      exec (.stopBundle i) s = .next (became u i.core ((u.core i.core).setStreamState i.fill { (u.core i.core).stream i.fill with stopped := true })))) ∧
  (∀ (fill : Bool) (pc n : Nat) (c : CoreState) (incs : List (Nat × Int)),
    let st := c.stream fill
    let f := c.frame fill (st.depth - 1)
    let k := c.setFrame fill (st.depth - 1) { f with count := f.count - 1 }
    let all := f.increments.foldl addIncrements incs
    loopEnd fill pc 0 c incs = (c, pc + 1, incs) ∧
    (f.count ≠ 1 → loopEnd fill pc (n + 1) c incs = (k, f.start.toNat, all)) ∧
    (f.count = 1 → loopEnd fill pc (n + 1) c incs = loopEnd fill pc n (k.setStreamState fill { st with depth := st.depth - 1 }) all))


namespace Sys2Proof.Claims

open Sys2Proof.Machine

/-! ### Vector results as the rules state them -/

/-- A lane-by-lane result: the registers read, the destination, the fc from issue to the write, whether the rounding mode draws, and for each lane its value, its bruise and whether it was clamped (R164, R166 to R173). -/
structure LaneSpec where
  reads : List (RegClass × Nat)
  dest : BitVec 5
  lat : Nat
  lane : Nat → BitVec 32
  bruise : Nat → Bool
  clamped : Nat → Bool

/-- A value kept to a signed 32-bit lane, and whether that changed it (R169). -/
def keptLane (v : Int) : BitVec 32 × Bool := (BitVec.ofInt 32 (max (-2 ^ 31) (min (2 ^ 31 - 1) v)), decide (v < -2 ^ 31 ∨ 2 ^ 31 ≤ v))

/-- The rounding mode of a vector operation; MODE 3 draws once for every lane (R166, R344). -/
def roundingMode : VectorOp → BitVec 2
  | .vmulh _ _ _ _ mode => mode
  | .vshift _ _ _ _ _ _ mode => mode
  | .vunpk _ _ _ _ _ _ _ mode => mode
  | .vpack _ _ _ _ _ _ _ mode _ => mode
  | _ => 0

/-- The operations of R169 to R173 that write a vector register lane by lane, with the draws `dr` of its lanes; `none` for the others. -/
def laneSpec (c : CoreState) (dr : List Nat) : VectorOp → Option LaneSpec
  | .vadd d a b ov sub =>
    let x (l : Nat) := (c.readV a).lane l
    let y (l : Nat) := (c.readV b).lane l
    let s (l : Nat) : Int := if sub = 1 then (x l).toInt - (y l).toInt else (x l).toInt + (y l).toInt
    let u (l : Nat) : Int := if sub = 1 then ((x l).toNat : Int) - (y l).toNat else ((x l).toNat : Int) + (y l).toNat
    some { reads := [vUse a, vUse b], dest := d, lat := 1
           lane := fun l => if ov = 1 then (keptLane (s l)).1 else if ov = 2 then BitVec.ofInt 32 (max 0 (min (2 ^ 32 - 1) (u l))) else BitVec.ofInt 32 (s l)
           bruise := fun l => (c.readV a).bruise.getLsbD l || (c.readV b).bruise.getLsbD l
           clamped := fun l => if ov = 1 then (keptLane (s l)).2 else if ov = 2 then decide (u l < 0 ∨ 2 ^ 32 ≤ u l) else false }
  | .vmul d a b sgn ah bh =>
    let half (h : BitVec 1) (v : BitVec 32) : BitVec 16 := if h = 1 then v.extractLsb' 16 16 else v.extractLsb' 0 16
    some { reads := [vUse a, vUse b], dest := d, lat := 2
           lane := fun l =>
             let x := half ah ((c.readV a).lane l)
             let y := half bh ((c.readV b).lane l)
             if sgn = 1 then BitVec.ofInt 32 (x.toInt * y.toInt) else BitVec.ofNat 32 (x.toNat * y.toNat)
           bruise := fun l => (c.readV a).bruise.getLsbD l || (c.readV b).bruise.getLsbD l
           clamped := fun _ => false }
  | .vmulh d a b sh mode =>
    let v (l : Nat) := roundShift (((c.readV a).lane l).toInt * ((c.readV b).lane l).toInt) sh.toNat mode (listGet 0 dr l)
    some { reads := [vUse a, vUse b], dest := d, lat := 3, lane := fun l => (keptLane (v l)).1,
           bruise := fun l => (c.readV a).bruise.getLsbD l || (c.readV b).bruise.getLsbD l, clamped := fun l => (keptLane (v l)).2 }
  | .vshift d a b kind lane amt mode =>
    let x (l : Nat) := (c.readV a).lane l
    let y (l : Nat) := (c.readV b).lane l
    let n (l : Nat) : Nat := if lane = 1 then ((y l).extractLsb' 0 6).toNat else amt.toNat
    let sn (l : Nat) : Int := if lane = 1 then max (-63) (min 63 (y l).toInt) else amt.toNat
    let r (l : Nat) : BitVec 32 × Bool :=
      if kind = 0 then (x l <<< n l, false) else if kind = 1 then (x l >>> n l, false) else if kind = 2 then ((x l).sshiftRight (n l), false)
      else if kind = 3 then (if sn l < 0 then keptLane ((x l).toInt * 2 ^ (sn l).natAbs) else (BitVec.ofInt 32 (roundShift (x l).toInt (sn l).toNat mode (listGet 0 dr l)), false))
      else keptLane ((x l).toInt * 2 ^ n l)
    some { reads := if lane = 1 then [vUse a, vUse b] else [vUse a], dest := d, lat := if kind.toNat < 3 then 1 else 2, lane := fun l => (r l).1,
           bruise := fun l => (c.readV a).bruise.getLsbD l || (lane == 1 && (c.readV b).bruise.getLsbD l), clamped := fun l => (r l).2 }
  | .vlogic d a b fn =>
    some { reads := [vUse a, vUse b], dest := d, lat := 1
           lane := fun l =>
             let x := (c.readV a).lane l
             let y := (c.readV b).lane l
             if fn = 0 then x &&& y else if fn = 1 then x ||| y else if fn = 2 then x ^^^ y else x &&& ~~~y
           bruise := fun l => (c.readV a).bruise.getLsbD l || (c.readV b).bruise.getLsbD l, clamped := fun _ => false }
  | .vminmax d a b max uns =>
    some { reads := [vUse a, vUse b], dest := d, lat := 1
           lane := fun l =>
             let x := (c.readV a).lane l
             let y := (c.readV b).lane l
             let less : Bool := if uns = 1 then decide (x.toNat < y.toNat) else decide (x.toInt < y.toInt)
             if max = 1 then (if less then y else x) else (if less then x else y)
           bruise := fun l => (c.readV a).bruise.getLsbD l || (c.readV b).bruise.getLsbD l, clamped := fun _ => false }
  | .vcount d a cls =>
    some { reads := [vUse a], dest := d, lat := 1, lane := fun l => vcountLane (cls == 1) ((c.readV a).lane l), bruise := fun l => (c.readV a).bruise.getLsbD l, clamped := fun _ => false }
  | .vsel d a b ms =>
    let v (l : Nat) : VReg := if (c.readM ms).bits.getLsbD l then c.readV a else c.readV b
    some { reads := [vUse a, vUse b, mUse ms], dest := d, lat := 1, lane := fun l => (v l).lane l
           bruise := fun l => (v l).bruise.getLsbD l || (c.readM ms).bruise.getLsbD l, clamped := fun _ => false }
  | .vperm d a b pat p =>
    let q (l : Nat) : Bool × Nat :=
      match pat.toNat with
      | 0 => (false, (l + p.toNat) % 32)
      | 1 => (false, Nat.xor l p.toNat)
      | 2 => (false, p.toNat)
      | 3 => (false, 31 - l)
      | 4 => (l % 2 == 1, 16 * p.toNat + l / 2)
      | 5 => (16 ≤ l, 2 * (l % 16) + p.toNat)
      | _ => (32 ≤ l + p.toNat, (l + p.toNat) % 32)
    let v (l : Nat) : VReg := if (q l).1 then c.readV b else c.readV a
    some { reads := if 4 ≤ pat.toNat then [vUse a, vUse b] else [vUse a], dest := d, lat := 1, lane := fun l => (v l).lane (q l).2, bruise := fun l => (v l).bruise.getLsbD (q l).2, clamped := fun _ => false }
  | .vmovi d imm => some { reads := [], dest := d, lat := 1, lane := fun _ => imm, bruise := fun _ => false, clamped := fun _ => false }
  | .vsplat d ss => some { reads := [(.s, ss.toNat)], dest := d, lat := 1, lane := fun _ => (c.readS ss).extractLsb' 0 32, bruise := fun _ => false, clamped := fun _ => false }
  | .vnop => none
  | .vcmp _ _ _ _ => none
  | .vunpk _ _ _ _ _ _ _ _ => none
  | .vpack _ _ _ _ _ _ _ _ _ => none
  | .vlut _ _ _ _ => none
  | .vget _ _ _ => none
  | .mset _ _ => none
  | .mlogic _ _ _ _ => none

end Sys2Proof.Claims

/-- Each lane-by-lane vector operation answers a next state with every lane's result scheduled. For VADD, VMUL, VMULH, VSHIFT, VLOGIC, VMINMAX, VCOUNT, VSEL, VPERM, VMOVI and VSPLAT in range (in every rounding mode, MODE 3 with one draw for each lane): where the bundle issues, its registers are the stream's own and no other write to the destination lands in the same fc, the command answers the next state in which one register value is on its way to the destination, 1, 2 or 3 fc from issue as R166 states, whose 32 lanes and 32 bruise bits are those of R164 and R169 to R173; the clamped lanes are counted in VECSTAT; and nothing else differs from the state with the bundle opened. -/
def Obligations.VectorOperationsScheduleTheirLanes : Prop :=
  ∀ (s : State) (i : Issue) (op : VectorOp) (r : LaneSpec),
    let c := opened s i
    let o := originOf s i 2 (vectorBits op)
    let dr := c.drawLanes (s.env i.core) (roundingMode op) (vectorStream i.fill)
    inRangeVector op = true → Issues s i → laneSpec c dr.1 op = some r →
    Usable c i.fill (r.reads ++ [vUse r.dest]) → Unclaimed c (vUse r.dest) (c.step.offset + r.lat) →
    ∃ v : VReg,
      exec (vectorRow i op) s =
        .next (became s i.core ((schedule dr.2 o (c.step.offset + r.lat) (.v r.dest v)).countClamps ((List.range 32).filter r.clamped).length)) ∧
      ∀ l < 32, v.lane l = r.lane l ∧ v.bruise.getLsbD l = r.bruise l

/-- VCMP, MSET, MLOGIC and VGET answer a next state with their result scheduled. Where the bundle issues, the registers are the stream's own and no other write to the destination lands in the same fc: VCMP sends, 1 fc from issue, a mask whose bit l is the comparison of lane l and whose bruise bits are those of either operand; MSET sends its immediate unbruised; MLOGIC sends the logic function of two masks with the bruise of either; VGET sends, 2 fc from issue, the sign-extended lane to SD and counts an escape when the lane is bruised. -/
def Obligations.MaskOperationsAndVget : Prop :=
  ∀ (s : State) (i : Issue),
    let c := opened s i
    let f := c.step.offset
    Issues s i →
    (∀ (md : BitVec 3) (a b : BitVec 5) (cond : BitVec 3),
      Usable c i.fill [vUse a, vUse b, mUse md] → Unclaimed c (mUse md) (f + 1) →
      ∃ m : MReg,
        exec (vectorRow i (.vcmp md a b cond)) s = .next (became s i.core (schedule c (originOf s i 2 (vectorBits (.vcmp md a b cond))) (f + 1) (.m md m))) ∧
        m.bruise = (c.readV a).bruise ||| (c.readV b).bruise ∧
        ∀ l < 32,
          let x := (c.readV a).lane l
          let y := (c.readV b).lane l
          m.bits.getLsbD l =
            (if cond = 0 then decide (x = y) else if cond = 1 then decide (x ≠ y) else if cond = 2 then decide (x.toInt < y.toInt) else if cond = 3 then decide (x.toInt ≤ y.toInt)
             else if cond = 4 then decide (x.toNat < y.toNat) else if cond = 5 then decide (x.toNat ≤ y.toNat) else if cond = 6 then decide (y.toInt < x.toInt) else decide (y.toInt ≤ x.toInt))) ∧
    (∀ (md : BitVec 3) (imm : BitVec 32),
      Usable c i.fill [mUse md] → Unclaimed c (mUse md) (f + 1) →
      exec (vectorRow i (.mset md imm)) s = .next (became s i.core (schedule c (originOf s i 2 (vectorBits (.mset md imm))) (f + 1) (.m md { bits := imm, bruise := 0 })))) ∧
    (∀ (md ma mb : BitVec 3) (fn : BitVec 2),
      let x := c.readM ma
      let y := c.readM mb
      Usable c i.fill [mUse ma, mUse mb, mUse md] → Unclaimed c (mUse md) (f + 1) →
      exec (vectorRow i (.mlogic md ma mb fn)) s =
        .next (became s i.core (schedule c (originOf s i 2 (vectorBits (.mlogic md ma mb fn))) (f + 1)
          (.m md { bits := if fn = 0 then x.bits &&& y.bits else if fn = 1 then x.bits ||| y.bits else if fn = 2 then x.bits ^^^ y.bits else x.bits &&& ~~~y.bits, bruise := x.bruise ||| y.bruise })))) ∧
    (∀ (sd a lane : BitVec 5),
      Usable c i.fill [vUse a, (.s, sd.toNat)] → Unclaimed c (.s, sd.toNat) (f + 2) →
      exec (vectorRow i (.vget sd a lane)) s =
        .next (became s i.core
          ((schedule c (originOf s i 2 (vectorBits (.vget sd a lane))) (f + 2) (.s sd (((c.readV a).lane lane.toNat).signExtend 64))).countEscape ((c.readV a).bruise.getLsbD lane.toNat))))

/-- VUNPK and VPACK answer a next state with the converted lanes or the packed part scheduled. In every rounding mode and for every format that exists, where the bundle issues, the registers are the stream's own and no other write to a destination lands 3 fc from issue. VUNPK sends lane l the conversion of element l of the named part to lane form at the lane exponent, bruised where R175 says, and counts its events. VPACK, for a format without block scales, sends the 32 lanes converted to codes as the named part of VD, the other bytes kept when it lands, and counts its events; for an MX format it also sends, in the same fc, the block's scale code to the lane of VB that the part numbers. -/
def Obligations.ConversionsScheduleTheirResults : Prop :=
  ∀ (s : State) (i : Issue),
    let c := opened s i
    let f := c.step.offset + 3
    Issues s i →
    (∀ (d a b : BitVec 5) (fmt : BitVec 4) (part : BitVec 3) (k : BitVec 10) (kreg : BitVec 1) (mode : BitVec 2),
      let op : VectorOp := .vunpk d a b fmt part k kreg mode
      let uses := [vUse a] ++ (if fmtIsMx fmt || fmt == 11 then [vUse b] else []) ++ exponentUse k (kreg == 1)
      let dr := c.drawLanes (s.env i.core) mode (vectorStream i.fill)
      let lane (l : Nat) := unpackLane (c.readV a) (c.readV b) fmt part.toNat (c.laneExponent k (kreg == 1)) mode (listGet 0 dr.1 l) l
      let counted := dr.2.countEvents ((List.range 32).map (fun l => (lane l).1.event))
      inRangeVector op = true → fmtWidth fmt ≠ 0 → Usable c i.fill (uses ++ [vUse d]) → Unclaimed c (vUse d) f →
      ∃ v : VReg,
        exec (vectorRow i op) s =
          .next (became s i.core (schedule counted (originOf s i 2 (vectorBits op)) f (.v d v))) ∧
        ∀ l < 32, v.lane l = (lane l).1.val ∧ v.bruise.getLsbD l = (lane l).2) ∧
    (∀ (d a b : BitVec 5) (fmt : BitVec 4) (part : BitVec 3) (k : BitVec 10) (kreg : BitVec 1) (mode : BitVec 2) (rule : BitVec 1),
      let op : VectorOp := .vpack d a b fmt part k kreg mode rule
      let o := originOf s i 2 (vectorBits op)
      let mx := fmtIsMx fmt
      let uses := [vUse a] ++ (if fmt == 11 then [vUse b] else []) ++ exponentUse k (kreg == 1)
      let dests := [vUse d] ++ (if mx then [vUse b] else [])
      let e := c.laneExponent k (kreg == 1)
      let av := c.readV a
      let dr := c.drawLanes (s.env i.core) mode (vectorStream i.fill)
      let x := if mx then packExponent fmt rule e ((List.range 32).map (fun l => (l, (av.lane l).toInt, av.bruise.getLsbD l))) mode dr.1 else 0
      let els := packElements av (c.readV b) fmt e x mode (s.env i.core).nan dr.1
      let counted := dr.2.countEvents (els.map (·.2.2))
      inRangeVector op = true → fmtWidth fmt ≠ 0 → (mx = true → d ≠ b) → Usable c i.fill (uses ++ dests) → (∀ w ∈ dests, Unclaimed c w f) →
      ∃ t : CoreState,
        exec (vectorRow i op) s = .next (became s i.core t) ∧
        t.step.events = c.step.events ++ [{ fc := f, ev := .result (.vpart d (packImage fmt part.toNat els) (part.toNat * partBytes fmt) (partBytes fmt)) o }] ++
          (if mx then [{ fc := f, ev := .result (.vlane b part.toNat (BitVec.ofInt 32 (x + 127))) o }] else []) ∧
        t.work.arith = counted.work.arith ∧ t.totals = counted.totals ∧ t.work.mem = c.work.mem ∧ t.work.v = c.work.v ∧ t.work.s = c.work.s ∧ t.work.a = c.work.a ∧ t.work.m = c.work.m)

/-- LDV, LDS, LDVS and LDVG answer a next state with their reads scheduled. Where the bundle issues, the registers are the stream's own, the stream may read through the handle, the format can be moved so, every byte passes its checks, the ports are free and no other write to the destination lands in the same fc. LDV reads 128 and LDS 8 scratchpad bytes from the element at AR plus OFF onward in fc t + 1, written at t + 4. LDVS reads for lane l the element at AR advanced by l times STEP along DIM, from fc t + 1, written at t + 12. LDVG reads the 32 indices of handle IH in fc t + 1, its elements following, written at t + 14. Nothing else differs from the state with the bundle opened. -/
def Obligations.LoadsScheduleTheirReads : Prop :=
  ∀ (s : State) (i : Issue),
    let c := opened s i
    let env := s.env i.core
    let t := c.step.offset
    Issues s i →
    (∀ (d : BitVec 5) (h : BitVec 6) (ar : BitVec 4) (off : BitVec 17) (vec : Bool) (b : Nat),
      let n := if vec then 128 else 8
      let dest : RegClass × Nat := (if vec then .v else .s, d.toNat)
      let pos := posOf (c.readA ar) off.toInt
      let offs := (List.range n).map (fun k => b + k)
      let ports : List PortClaim := [{ fc := t + 1, reads := (linesOf (c.rawBytes h.toNat b n)).length, writes := 0 }]
      let op : LoadOp := if vec then .ldv d h ar off else .lds d h ar off
      let o := originOf s i 4 (loadBits op)
      Usable c i.fill [(.a, ar.toNat), dest] → c.mayAccess h.toNat i.fill false = true → fmtWidth (c.descOf h.toNat).fmt ≠ 0 →
      c.rawOffset h.toNat (c.readA ar) off.toInt = .ok b → c.checkBytes h.toNat false pos offs = none →
      PortsFree c env i.fill ports → Unclaimed c dest (t + 4) →
      exec (loadRow i op) s =
        .next (became s i.core ((withPorts (claimed c o dest (t + 4)) i.fill ports).push (t + 1)
          (.rawRead { vec := vec, reg := d, handle := h, pos := pos, offs := offs, held := c.heldFirst env o ports, origin := o })))) ∧
    (∀ (d : BitVec 5) (h : BitVec 6) (ar : BitVec 4) (dim : BitVec 3) (sx : BitVec 1) (step : BitVec 13) (offs : List Nat),
      let ds := c.descOf h.toNat
      let p := (c.readA ar).toNat
      let op : LoadOp := .ldvs d h ar dim sx step
      let o := originOf s i 4 (loadBits op)
      Usable c i.fill [(.a, ar.toNat), vUse d] → dim.toNat < ds.rank → c.mayAccess h.toNat i.fill false = true → laneFormat ds.fmt = true →
      c.strided h.toNat p dim.toNat step.toNat = .ok offs → c.checkStrided h.toNat p false (.ok offs) = none →
      PortsFree c env i.fill (lanePorts (t + 1)) → Unclaimed c (vUse d) (t + 12) →
      exec (loadRow i op) s =
        .next (became s i.core ((withPorts (claimed c o (vUse d) (t + 12)) i.fill (lanePorts (t + 1))).push (t + 1)
          (.gather { reg := d, handle := h, lanes := offs.map (fun b => some (p, b)), width := fmtWidth ds.fmt, signExt := sx == 1, acc := {}, held := c.heldFirst env o (lanePorts (t + 1)), origin := o } 0)))) ∧
    (∀ (d : BitVec 5) (h : BitVec 6) (ar : BitVec 4) (ih : BitVec 6) (sx : BitVec 1) (offs : List Nat),
      let p := (c.readA ar).toNat
      let op : LoadOp := .ldvg d h ar ih sx
      let o := originOf s i 4 (loadBits op)
      let ports : List PortClaim := { fc := t + 1, reads := (linesOf (c.offBytes ih offs)).length, writes := 0 } :: lanePorts (t + 3)
      Usable c i.fill [(.a, ar.toNat), vUse d] → c.mayAccess ih.toNat i.fill false = true → c.mayAccess h.toNat i.fill false = true →
      laneFormat (c.descOf h.toNat).fmt = true → (c.descOf ih.toNat).fmt = 2 → (c.handle h.toNat).valid = true → c.indexOffs ih.toNat p = .ok offs → c.checkBytes ih.toNat false p offs = none →
      PortsFree c env i.fill ports → Unclaimed c (vUse d) (t + 14) →
      exec (loadRow i op) s =
        .next (became s i.core ((withPorts (claimed c o (vUse d) (t + 14)) i.fill ports).push (t + 1)
          (.indexRead { load := true, reg := d, handle := h, idxHandle := ih, idxPos := p, idxOffs := offs, signExt := sx == 1, idx := [], src := {}, held := c.heldFirst env o ports, origin := o }))))

/-- STV, STS, STVS and STVG answer a next state with their writes scheduled at the addresses computed. Where the bundle issues, the registers are the stream's own, the stream may write through the handle, the format can be moved so, every byte passes its checks and the ports are free. STV writes NW + 1 words of VS from word FIRST, with each lane's bruise, and STS the 8 bytes of SS unbruised, at the scratchpad bytes of the element at AR plus OFF onward: the first two lines in fc t + 2, a third in t + 3. STVS writes lanes 2j and 2j + 1 in fc t + 2 + j at the elements AR advanced by STEP along DIM. STVG reads the 32 indices of handle IH in fc t + 1 and holds the lanes of VS as they stand at issue. No byte of the scratchpad changes in the command itself, and nothing else differs from the state with the bundle opened. -/
def Obligations.StoresScheduleTheirWrites : Prop :=
  ∀ (s : State) (i : Issue),
    let c := opened s i
    let env := s.env i.core
    let t := c.step.offset
    Issues s i →
    (∀ (op : StoreOp) (src : RegClass × Nat) (h : BitVec 6) (ar : BitVec 4) (off : Int) (data : List (Byte × Bool)) (b : Nat),
      let o := originOf s i 5 (storeBits op)
      let pos := posOf (c.readA ar) off
      let offs := (List.range data.length).map (fun k => b + k)
      let ws := storeByFc (((c.rawBytes h.toNat b data.length).zip data).map (fun p => { addr := p.1, val := p.2.1, bruise := p.2.2 }))
      let inLines (bs : List WByte) := ((offs.zip (c.rawBytes h.toNat b data.length)).filter (fun p => (linesOf (bs.map (·.addr))).contains (p.2 / 64))).map (fun p => (pos, p.1))
      ((∃ (vs : BitVec 5) (firstw nw : BitVec 4) (x : BitVec 9), inRangeStore (.stv vs h ar firstw nw x) = true ∧ op = .stv vs h ar firstw nw x ∧ src = vUse vs ∧ off = x.toInt ∧
          data = (List.range (8 * (nw.toNat + 1))).map (fun j => ((c.readV vs).byte (8 * firstw.toNat + j), (c.readV vs).bruise.getLsbD ((8 * firstw.toNat + j) / 4)))) ∨
        (∃ (ss : BitVec 5) (x : BitVec 17), op = .sts ss h ar x ∧ src = (.s, ss.toNat) ∧ off = x.toInt ∧ data = (List.range 8).map (fun j => ((c.readS ss).extractLsb' (8 * j) 8, false)))) →
      Usable c i.fill [(.a, ar.toNat), src] → c.mayAccess h.toNat i.fill true = true → fmtWidth (c.descOf h.toNat).fmt ≠ 0 →
      c.rawOffset h.toNat (c.readA ar) off = .ok b → c.checkBytes h.toNat true pos offs = none →
      PortsFree c env i.fill (storeClaims t ws) →
      exec (storeRow i op) s =
        .next (became s i.core
          (if i.fill then c.push (t + 2) (.fillStore { handle := h, writes := ws.map (fun bs => (bs, inLines bs)), held := c.heldFirst env o (storeClaims t ws), origin := o })
           else ws.zipIdx.foldl (fun k p => k.push (t + 2 + p.2) (.write p.1 false o)) (c.claimPorts (storeClaims t ws))))) ∧
    (∀ (vs : BitVec 5) (h : BitVec 6) (ar : BitVec 4) (dim : BitVec 3) (step : BitVec 13) (offs : List Nat),
      let hd := c.handle h.toNat
      let ds := c.descOf h.toNat
      let p := (c.readA ar).toNat
      let op : StoreOp := .stvs vs h ar dim step
      let o := originOf s i 5 (storeBits op)
      let pair (j : Nat) := laneBytes hd ds (c.readV vs) (2 * j) (offs.getD (2 * j) 0) ++ laneBytes hd ds (c.readV vs) (2 * j + 1) (offs.getD (2 * j + 1) 0)
      let places (j : Nat) := [offs.getD (2 * j) 0, offs.getD (2 * j + 1) 0].flatMap (fun b => (List.range (fmtWidth ds.fmt / 8)).map (fun k => (p, b + k)))
      Usable c i.fill [(.a, ar.toNat), vUse vs] → dim.toNat < ds.rank → c.mayAccess h.toNat i.fill true = true → laneFormat ds.fmt = true →
      c.strided h.toNat p dim.toNat step.toNat = .ok offs → c.checkStrided h.toNat p true (.ok offs) = none → PortsFree c env i.fill (storePorts (t + 2)) →
      exec (storeRow i op) s =
        .next (became s i.core
          (if i.fill then c.push (t + 2) (.fillStore { handle := h, writes := (List.range 16).map (fun j => (pair j, places j)), held := c.heldFirst env o (storePorts (t + 2)), origin := o })
           else (List.range 16).foldl (fun k j => k.push (t + 2 + j) (.write (pair j) false o)) (c.claimPorts (storePorts (t + 2)))))) ∧
    (∀ (vs : BitVec 5) (h : BitVec 6) (ar : BitVec 4) (ih : BitVec 6) (offs : List Nat),
      let p := (c.readA ar).toNat
      let op : StoreOp := .stvg vs h ar ih
      let o := originOf s i 5 (storeBits op)
      let ports : List PortClaim := { fc := t + 1, reads := (linesOf (c.offBytes ih offs)).length, writes := 0 } :: storePorts (t + 3)
      Usable c i.fill [(.a, ar.toNat), vUse vs] → c.mayAccess ih.toNat i.fill false = true → c.mayAccess h.toNat i.fill true = true →
      laneFormat (c.descOf h.toNat).fmt = true → (c.descOf ih.toNat).fmt = 2 → (c.handle h.toNat).valid = true → c.indexOffs ih.toNat p = .ok offs → c.checkBytes ih.toNat false p offs = none → PortsFree c env i.fill ports →
      exec (storeRow i op) s =
        .next (became s i.core ((withPorts c i.fill ports).push (t + 1)
          (.indexRead { load := false, reg := vs, handle := h, idxHandle := ih, idxPos := p, idxOffs := offs, signExt := false, idx := [], src := c.readV vs, held := c.heldFirst env o ports, origin := o }))))

/-- VLUT answers a next state with its eight reads scheduled. Where the bundle issues, the registers are the stream's own, the table handle may be read, has rank 1 and the width that T16 names, no VLUT is running, every unbruised lane names an entry that passes its checks, the ports are free and no other write to the destination lands in t + 12: the lanes are read four in each fc from t + 1, a bruised lane without a read, the unit is taken to t + 8, and the register is written at t + 12. -/
def Obligations.VlutSchedulesItsReads : Prop :=
  ∀ (s : State) (i : Issue) (d a : BitVec 5) (th : BitVec 6) (t16 : BitVec 1),
    let c := opened s i
    let t := c.step.offset
    let ds := c.descOf th.toNat
    let op : VectorOp := .vlut d a th t16
    let o := originOf s i 2 (vectorBits op)
    let ports := lanePorts (t + 1)
    let lanes := (List.range 32).map (fun l =>
      if (c.readV a).bruise.getLsbD l then none else some (((c.readV a).lane l).toNat, ds.bitOffset [((c.readV a).lane l).toNat] / 8))
    let k := withPorts (claimed c o (vUse d) (t + 12)) i.fill ports
    Issues s i → Usable c i.fill [vUse a, vUse d] → c.mayAccess th.toNat i.fill false = true → ds.rank = 1 → ds.fmt = (if t16 = 1 then 1 else 2) → (i.fill = false → c.step.vlutEnd ≤ t) →
    c.lutCheck a th false = none → PortsFree c (s.env i.core) i.fill ports → Unclaimed c (vUse d) (t + 12) →
    exec (vectorRow i op) s =
      .next (became s i.core (({ k with step.vlutEnd := if i.fill then k.step.vlutEnd else t + 8 } : CoreState).push (t + 1)
        (.gather { reg := d, handle := th, lanes := lanes, width := fmtWidth ds.fmt, signExt := t16 == 1, acc := {}, held := i.fill && c.fillHeld (s.env i.core) (t + 1) { reads := 4, lookup := true }, origin := o } 0)))


namespace Sys2Proof.Claims

open Sys2Proof.Machine

/-! ### Landing of work in flight -/

/-- `f` is the fc of the core's next event of a kind. -/
def NextOf (c : CoreState) (p : CoreEv → Bool) (f : Nat) : Prop := (∃ e ∈ c.step.events, p e.ev = true ∧ e.fc = f) ∧ ∀ e ∈ c.step.events, p e.ev = true → f ≤ e.fc

/-- The commands that run a core to the end of the fc of its next event of a kind, with the kind. -/
def landingRows (cid : CoreId) : List (Instr × (CoreEv → Bool)) :=
  [(.mtilePass cid, fun e => match e with | .passLoad _ => true | .passStream _ => true | _ => false),
   (.mstreamColumn cid, fun e => match e with | .column _ k => k == 0 | _ => false),
   (.contributionLands cid, fun e => match e with | .contribution _ => true | _ => false),
   (.resultWriteLands cid, fun e => match e with | .result _ _ => true | _ => false),
   (.storeWriteLands cid, fun e => match e with | .write _ _ _ => true | .fillStore _ => true | _ => false),
   (.fillOpResumes cid, fun e => e.fillAccess.1 || e.fillAccess.2),
   (.partialMergeLands cid, fun e => match e with | .merge _ => true | _ => false)]

end Sys2Proof.Claims

/-- A landing command runs its core to the end of the fc of that landing. For MTILE_PASS, MSTREAM_COLUMN, CONTRIBUTION_LANDS, RESULT_WRITE_LANDS, STORE_WRITE_LANDS, FILL_OP_RESUMES and PARTIAL_MERGE_LANDS: where the core's step runs and fc f is that of its next event of the kind, the command answers the next state in which the core has run through every fc up to and including f, what it sent has entered the mesh, and nothing else has changed. -/
def Obligations.LandingCommandsRunToTheirEvent : Prop :=
  ∀ (s : State) (cid : CoreId), s.hasCore cid = true → (s.env cid).running = true →
    ∀ r ∈ landingRows cid, ∀ f : Nat, NextOf (s.core cid) r.2 f → exec r.1 s = .next (became s cid ((s.core cid).runTo (s.env cid) (f + 1)))

/-- A landed result writes its register and no other. RESULT_WRITE_LANDS where the only work in flight is one result: the register it names holds the value (S0 and A0 read as 0 whatever lands), every other register of the four classes holds what it held, every scratchpad byte reads as before, and with a scalar result to S23 or S31 the draw counts that the register keys are 0 and no other is changed. -/
def Obligations.ResultWritesLand : Prop :=
  ∀ (s : State) (cid : CoreId) (f : Nat) (w : RegWrite) (o : Origin),
    let c := s.core cid
    s.hasCore cid = true → (s.env cid).running = true → c.step.events = [{ fc := f, ev := .result w o }] → c.step.offset ≤ f →
    ∃ t : State, exec (.resultWriteLands cid) s = .next t ∧
      let k := t.core cid
      (∀ a, k.byte a = c.byte a) ∧
      (∀ r, k.readS r = match w with | .s r' v => if r = r' ∧ r ≠ 0 then v else c.readS r | _ => c.readS r) ∧
      (∀ r, k.readA r = match w with | .a r' v => if r = r' ∧ r ≠ 0 then v else c.readA r | _ => c.readA r) ∧
      (∀ r, k.readM r = match w with | .m r' v => if r = r' then v else c.readM r | _ => c.readM r) ∧
      (∀ r, (∀ u, w.target = (.v, u) → r.toNat ≠ u) → k.readV r = c.readV r) ∧
      (∀ r v, w = .v r v → k.readV r = v) ∧
      (∀ r v lo len, w = .vpart r v lo len → ∀ l < 32, (k.readV r).lane l = (if lo ≤ 4 * l ∧ 4 * l < lo + len then v.lane l else (c.readV r).lane l)) ∧
      (∀ r l x, w = .vlane r l x → l < 32 → (k.readV r).lane l = x ∧ (k.readV r).bruise.getLsbD l = false) ∧
      (∀ n, k.dseq n = match w with | .s r _ => if (r = 23 ∧ n ≤ 1) ∨ (r = 31 ∧ n = 2) then 0 else c.dseq n | _ => c.dseq n)

/-- A landed store writes its bytes and no other. STORE_WRITE_LANDS where the only work in flight is one write of the main stream or of a landing: every scratchpad byte that the write names reads as the last value the write gives it, every other byte of the scratchpad reads as before, and no register changes. -/
def Obligations.StoreWritesLand : Prop :=
  ∀ (s : State) (cid : CoreId) (f : Nat) (bs : List WByte) (landing : Bool) (o : Origin),
    let c := s.core cid
    s.hasCore cid = true → (s.env cid).running = true → c.step.events = [{ fc := f, ev := .write bs landing o }] → c.step.offset ≤ f → o.fill = false →
    ∃ t : State, exec (.storeWriteLands cid) s = .next t ∧
      let k := t.core cid
      (∀ a, k.byte a = (((bs.filter (fun b => b.addr == a)).getLast?).map (·.val)).getD (c.byte a)) ∧
      (∀ r, k.readS r = c.readS r) ∧ (∀ r, k.readA r = c.readA r) ∧ (∀ r, k.readV r = c.readV r) ∧ (∀ r, k.readM r = c.readM r)


namespace Sys2Proof.Claims

open Sys2Proof.Machine

/-! ### Matrix operations -/

/-- The running stream that MSTREAM starts, but for its column cost (R114). -/
def streamStart (c : CoreState) (t : Nat) (bank : Bool) (wh : BitVec 6) (aw : BitVec 4) (so : StreamOperand) (narrow ovw : Bool) (o : Origin) : StreamOp :=
  { id := 0, start := t, bank := bank, handle := wh, pos := c.readA aw, kskip := 0, klen := (c.loadedBank bank).klen, rows := (c.loadedBank bank).rows, tile := false, count := so.count, base := so.base, window := so.window
    narrow := narrow, ovw := ovw, cost := 1, column := 0, codes := [], scales := [], held := [], landed := 0, lastLand := 0, failed := false, origin := o }

/-- The running tile that MTILE starts, but for its times (R123). -/
def tileStart (c : CoreState) (t : Nat) (xh : BitVec 6) (ax : BitVec 4) (wh : BitVec 6) (aw : BitVec 4) (sh : ShapeOperand) (narrow ovw : Bool) (o : Origin) : TileOp :=
  { issued := t, xh := xh, ax := c.readA ax, wh := wh, aw := c.readA aw, m := sh.m, n := sh.n, k := sh.k, base := sh.base, narrow := narrow, ovw := ovw
    kpass := kpassOf (c.descOf xh.toNat).fmt, load := 1, cost := 1, free := 0, ready := 0, pass := 0, origin := o }

/-- The tile with its load time and column cost, and from them the fc in which the array is free and the last contribution has landed (R125). -/
def tileTimed (c : CoreState) (op : TileOp) : TileOp :=
  let q := { op with load := c.tileLoadTime op, cost := c.tileColumnCost op }
  let last := (q.times.getLast?.getD (q.issued, q.issued)).2
  { q with free := last + q.n * q.cost, ready := last + 13 + (q.n - 1) * q.cost }

/-- A start position is on a block boundary where the format has scale blocks (R128). -/
def OnBlock (d : Desc) (pos : BitVec 32) : Prop := ∀ q, d.coords pos.toNat = some q → mxAligned d q = true

end Sys2Proof.Claims

/-- MLOAD, MSTREAM, MTILE, MANCHOR, MREAD, MPROBE and MNOP with WARM answer a next state with their work begun. For main-stream bundles that issue, with registers that are the stream's own, handles that it may read, formats that the array takes, banks and array free, operands in range and ports free. MLOAD claims its reads from the next fc, two lines in each fc, and the bank is loaded when they have all been made. MSTREAM takes the array for count columns of its column cost and the bank 4 fc longer, and its columns start. MTILE claims its reads, takes the array to the end of its passes and each bank to 4 fc after the last stream through it, each pass's load and stream falling due at its time. MANCHOR changes its group in the next fc. MREAD claims VD for t + 3 and MPROBE claims SD for t + 17, and both read the accumulators at the end of the issue fc. MNOP with WARM begins the ramp from the present density while no matrix operation runs. Nothing else differs from the state with the bundle opened. -/
def Obligations.MatrixOperationsBeginTheirWork : Prop :=
  ∀ (s : State) (i : Issue),
    let c := opened s i
    let env := s.env i.core
    let t := c.step.offset
    Issues s i →
    (i.fill = false →
    (∀ (bank : BitVec 1) (xh : BitVec 6) (ax rows : BitVec 4) (klen : BitVec 7) (r : List TileRead × List Nat × List Nat),
      let op : MatrixOp := .mload bank xh ax rows klen
      let b := bank == 1
      let d := c.descOf xh.toNat
      let pos := c.readA ax
      let n := klen.toNat + 1
      let len := ceilDiv r.1.length 2
      let ports := (List.range len).map (fun j => ({ fc := t + 1 + j, reads := min 2 (r.1.length - 2 * j), writes := 0 } : PortClaim))
      inRangeMatrix op = true → Usable c false [(.a, ax.toNat)] → c.mayReadTensor xh false = true → kpassOf d.fmt ≠ 0 → c.bankFree b ≤ t → c.tileRuns t = false → n ≤ kpassOf d.fmt →
      (fmtIsMx d.fmt = true → n % 32 = 0 ∧ OnBlock d pos) → (d.coords pos.toNat).bind (fun q => c.loadReads xh.toNat q (rows.toNat + 1) n) = some r → c.checkLoad xh.toNat pos.toNat r = none →
      PortsFree c env false ports →
      exec (matrixRow i op) s =
        .next (became s i.core (((c.claimPorts ports).setBankReady b (t + len)).startLoad (t + 1) b xh d.fmt (rows.toNat + 1) n r.1 (originOf s i 3 (matrixBits op))))) ∧
    (∀ (bank : BitVec 1) (wh : BitVec 6) (aw : BitVec 4) (ss : BitVec 5) (kind ovw : BitVec 1),
      let op : MatrixOp := .mstream bank wh aw ss kind ovw
      let b := bank == 1
      let d := c.descOf wh.toNat
      let so := streamOperand (c.readS ss) (kind == 1)
      let op0 := streamStart c t b wh aw so (kind == 1) (ovw == 1) (originOf s i 3 (matrixBits op))
      let st := { op0 with cost := c.columnCost op0 }
      let len := st.count * st.cost
      inRangeMatrix op = true → Usable c false [(.a, aw.toNat), (.s, ss.toNat)] → c.mayReadTensor wh false = true → kpassOf d.fmt ≠ 0 → (c.loadedBank b).loaded = true →
      kpassOf (c.loadedBank b).fmt = kpassOf d.fmt → c.step.arrayFree ≤ t → c.bankReady b ≤ t → so.ok = true → OnBlock d (c.readA aw) → c.rangeOk (kind == 1) so.base (so.base + so.window) = true →
      PortsFree c env false ((List.range len).map (fun j => { fc := t + 1 + j, reads := c.streamReads st (t + 1 + j), writes := 0 })) →
      exec (matrixRow i op) s = .next (became s i.core (((c.heatUp env (t + len) (t + 12 + (st.count - 1) * st.cost + 1)).setBankFree b (t + len + 4)).startStream st))) ∧
    (∀ (xh : BitVec 6) (ax : BitVec 4) (wh : BitVec 6) (aw : BitVec 4) (ss : BitVec 5) (kind ovw : BitVec 1),
      let op : MatrixOp := .mtile xh ax wh aw ss kind ovw
      let dx := c.descOf xh.toNat
      let dw := c.descOf wh.toNat
      let sh := shapeOperand (c.readS ss) (kind == 1)
      let q := tileTimed c (tileStart c t xh ax wh aw sh (kind == 1) (ovw == 1) (originOf s i 3 (matrixBits op)))
      inRangeMatrix op = true → Usable c false [(.a, ax.toNat), (.a, aw.toNat), (.s, ss.toNat)] → c.mayReadTensor xh false = true → c.mayReadTensor wh false = true →
      kpassOf dx.fmt ≠ 0 → kpassOf dx.fmt = kpassOf dw.fmt → c.step.arrayFree ≤ t → c.step.bankFree0 ≤ t → c.step.bankFree1 ≤ t → sh.ok = true →
      ((fmtIsMx dx.fmt = true ∨ fmtIsMx dw.fmt = true) → sh.k % 32 = 0) → OnBlock dx (c.readA ax) → OnBlock dw (c.readA aw) → c.rangeOk (kind == 1) sh.base (sh.base + ceilDiv sh.m 16 * sh.n - 1) = true →
      PortsFree c env false (c.tilePorts q) →
      exec (matrixRow i op) s =
        .next (became s i.core
          (let k := { (c.claimPorts (c.tilePorts q)).heatUp env q.free q.ready with step.tile := some q, step.tileOld := c.step.tile }
           let k := match q.bankFree false with | some f => k.setBankFree false f | none => k
           let k := match q.bankFree true with | some f => k.setBankFree true f | none => k
           q.times.zipIdx.foldl (fun k p => (k.push p.1.1 (.passLoad p.2)).push p.1.2 (.passStream p.2)) k))) ∧
    (∀ (group : BitVec 4) (kind : BitVec 1) (anchor : BitVec 10),
      let n := (c.group group.toNat).narrow
      let size := if n then 64 else 32
      inRangeMatrix (.manchor group kind anchor) = true → c.runningRange t n (group.toNat * size) (group.toNat * size + size - 1) = false →
      exec (matrixRow i (.manchor group kind anchor)) s = .next (became s i.core (c.push (t + 1) (.anchor group.toNat (kind == 1) anchor)))) ∧
    (∀ (vd : BitVec 5) (row : BitVec 4) (entry : BitVec 10) (shift : BitVec 7) (mode : BitVec 2) (sreg kind : BitVec 1),
      let op : MatrixOp := .mread vd row entry shift mode sreg kind
      let o := originOf s i 3 (matrixBits op)
      let sr : BitVec 5 := shift.setWidth 5
      let k := claimed c o (vUse vd) (t + 3)
      let dr := k.drawLanes env mode 0
      inRangeMatrix op = true → Usable c false ((if sreg = 1 then [(.s, sr.toNat)] else []) ++ [vUse vd]) → c.rangeOk (kind == 1) entry.toNat (entry.toNat + 31) = true →
      (∀ j < 32, c.entryPending t (kind == 1) row.toNat (entry.toNat + j) = false) → Unclaimed c (vUse vd) (t + 3) →
      exec (matrixRow i op) s =
        .next (became s i.core (dr.2.push t (.accRead vd row.toNat entry.toNat (if sreg = 1 then ((c.readS sr).extractLsb' 0 7).toNat else shift.toNat) mode (kind == 1) dr.1 o)))) ∧
    (∀ (group : BitVec 4) (sd : BitVec 5) (clear : BitVec 1),
      let op : MatrixOp := .mprobe group sd clear
      let o := originOf s i 3 (matrixBits op)
      let n := (c.group group.toNat).narrow
      let size := if n then 64 else 32
      inRangeMatrix op = true → Usable c false [(.s, sd.toNat)] → (∀ row < 16, ∀ j < size, c.entryPending t n row (group.toNat * size + j) = false) → Unclaimed c (.s, sd.toNat) (t + 17) →
      exec (matrixRow i op) s = .next (became s i.core ((claimed c o (.s, sd.toNat) (t + 17)).push t (.accProbe group.toNat sd (clear == 1) o)))) ∧
    (c.arrayRuns t = false →
      exec (matrixRow i (.mnop 1)) s = .next (became s i.core { c with step.warm := some (t, c.density env.down env.up env.floor t) })))

/-- TEST sends its tally, as it stands at the start of the issue fc, to SD and changes no tally. Where the bundle issues, SD is the stream's own and no other write to it lands in the next fc: TEST answers, without a wait, the next state in which the value of tally TALLY of its own core, zero-extended to 64 bits, is on its way to SD, and every tally of the core stands as it stood; TALLY has six bits, so it names no commons tally. -/
def Obligations.TestReadsItsTally : Prop :=
  ∀ (s : State) (i : Issue) (tally : BitVec 6) (sd : BitVec 5),
    let c := opened s i
    let f := c.step.offset + 1
    Issues s i → Usable c i.fill [(.s, sd.toNat)] → Unclaimed c (.s, sd.toNat) f →
    ∃ t : State, exec (syncRow i (.test tally sd)) s = .next t ∧
      t = became s i.core (schedule c (originOf s i 6 (syncBits (.test tally sd))) f (.s sd ((c.tally tally).setWidth 64))) ∧
      ∀ q : BitVec 6, (t.core i.core).tally q = c.tally q

/-- SIG sends one flit in the slot of a SIG train that fires in its fc, or faults with NO_SLOT. Where SIG issues in fc t, its operand is readable and names a destination of R39: when a valid SIG train of its own slot table fires at t, one flit without payload, with the tally, the amount and the SITE of the issuing bundle, leaves in that train's firing; when none does, SIG faults at issue with NO_SLOT and nothing is sent. -/
def Obligations.SigSendsInItsSlot : Prop :=
  ∀ (s : State) (i : Issue) (sa : BitVec 5) (d : Dest),
    let c := opened s i
    let t := c.step.offset
    let v := c.readS sa
    let o := originOf s i 6 (syncBits (.sig sa))
    Issues s i → Usable c i.fill [(.s, sa.toNat)] → v.extractLsb' 54 10 = 0 → (s.env i.core).dest.resolve (v.extractLsb' 0 32) = some d →
    (∀ tr, c.tables.sigTrain t = some tr →
      tr.2 = c.tables.train tr.1 ∧ tr.2.valid = true ∧ tr.2.kind = 2 ∧ (∃ k ≤ tr.2.reps, t = tr.2.start + k * tr.2.period) ∧
      exec (syncRow i (.sig sa)) s =
        .next (became s i.core { c with traffic.outbox := c.traffic.outbox ++
          [{ dest := d.split.1, destModule := d.split.2, ready := t + 1, link1 := tr.2.link1, order := tr.1, firing := 0, site := ((opened s i).stream i.fill).header.extractLsb' 0 10,
             kind := .sig (v.extractLsb' 32 6) (v.extractLsb' 38 16).toNat }] })) ∧
    ((∀ n < 1024, (c.tables.train n).valid = true → (c.tables.train n).kind = 2 → ∀ k ≤ (c.tables.train n).reps, t ≠ (c.tables.train n).start + k * (c.tables.train n).period) →
      exec (syncRow i (.sig sa)) s = .next (became s i.core (c.issueFault 0x201D o)))

/-- WAIT, TADD, SELECT and RELEASE answer a next state with their change due in the issue fc. Where the bundle issues and the registers are the stream's own: WAIT on a tally at or above its threshold issues and, with SUB, takes the threshold from the tally at the end of the fc; TADD changes the tally by its amount at the end of the fc, down with NEG; SELECT with an enabled ring of MASK that holds an untaken entry takes the ring that priority or rotation chooses, moves its TK, sends the word of R249 to SD and, with ROT, keeps the ring as the last one chosen; RELEASE moves RD of a ring whose RD is behind TK. Nothing else differs from the state with the bundle opened. -/
def Obligations.TallyAndRingOperations : Prop :=
  ∀ (s : State) (i : Issue),
    let c := opened s i
    let f := c.step.offset
    Issues s i →
    (∀ (tally : BitVec 6) (sub : BitVec 1) (thr : BitVec 19), thr.toNat ≤ (c.tally tally).toNat →
      exec (syncRow i (.wait tally sub thr)) s = .next (became s i.core (if sub = 1 then c.push f (.tally tally (-(thr.toNat : Int))) else c))) ∧
    (∀ (tally : BitVec 6) (sub : BitVec 1) (sa : BitVec 5),
      let thr : BitVec 32 := (c.readS sa).extractLsb' 0 32
      Usable c i.fill [(.s, sa.toNat)] → thr.toNat ≤ (c.tally tally).toNat →
      exec (syncRow i (.waitReg tally sub sa)) s = .next (became s i.core (if sub = 1 then c.push f (.tally tally (-(thr.toNat : Int))) else c))) ∧
    (∀ (tally : BitVec 6) (neg : BitVec 1) (amt : BitVec 19),
      exec (syncRow i (.tadd tally neg amt)) s = .next (became s i.core (c.push f (.tally tally (if neg = 1 then -(amt.toNat : Int) else amt.toNat))))) ∧
    (∀ (tally : BitVec 6) (neg : BitVec 1) (sa : BitVec 5),
      let amt := ((c.readS sa).extractLsb' 0 32).toNat
      Usable c i.fill [(.s, sa.toNat)] →
      exec (syncRow i (.taddReg tally neg sa)) s = .next (became s i.core (c.push f (.tally tally (if neg = 1 then -(amt : Int) else amt))))) ∧
    (∀ (mask : BitVec 8) (rot : BitVec 1) (sd : BitVec 5) (r : BitVec 3),
      let op : SyncOp := .select mask rot sd
      let o := originOf s i 6 (syncBits op)
      let tk := (c.ringPtr r).tk
      mask ≠ 0 → Usable c i.fill [(.s, sd.toNat)] → Unclaimed c (.s, sd.toNat) (f + 1) → c.selectRing mask (rot == 1) = some r →
      exec (syncRow i op) s =
        .next (became s i.core
          (let k := (schedule c o (f + 1) (.s sd (0#32 ++ tk ++ 0#1 ++ BitVec.ofNat 12 (tk.toNat % 2 ^ (c.ring r).logsize) ++ r))).push f (.ringMove r true (rot == 1) o)
           k))) ∧
    (∀ ring : BitVec 3, (c.ringPtr ring).rd ≠ (c.ringPtr ring).tk →
      exec (syncRow i (.release ring)) s = .next (became s i.core (c.push f (.ringMove ring false false (originOf s i 6 (syncBits (.release ring)))))))

/-- POST, AMSG, BAR, CADD, CWAIT, CPUT and CTAKE answer a next state with their request made. Where the bundle issues, the registers are the stream's own, the destination, group or object is one that the plot may name and is not orphaned: POST and, while active messages are enabled, AMSG with fewer than eight messages waiting put one message with the header of R262 into the send queue; BAR of a member with no open round adds the core's arrival, with its offset, to the round; CADD and CPUT, with fewer than 256 requests in the step, add one request to the plot's; CWAIT on a view at or above the threshold issues and changes nothing; CTAKE with a word in the mailbox's view sends that word to SD and takes it at the end of the fc. Nothing else differs from the state with the bundle opened. -/
def Obligations.MessageAndCommonsOperations : Prop :=
  ∀ (s : State) (i : Issue),
    let c := opened s i
    let u := became s i.core c
    let env := s.env i.core
    let f := c.step.offset
    let fn := (s.core i.core).owner.getD 0
    let p := s.plot fn
    Issues s i →
    (∀ (src sb : BitVec 5) (count : BitVec 2) (vec : BitVec 1) (d : Dest),
      let op : SyncOp := .post src sb count vec
      let regs : List (RegClass × Nat) := if vec = 1 then [(.v, src.toNat)] else (List.range (count.toNat + 1)).map (fun j => (.s, src.toNat + j))
      let h := c.readS sb
      let ws := c.messageWords src count.toNat (vec == 1)
      inRangeSync op = true → c.sendFree = true → Usable c i.fill (regs ++ [(.s, sb.toNat)]) → h.extractLsb' 48 16 = 0 → env.dest.resolve (h.extractLsb' 0 32) = some d →
      exec (syncRow i op) s =
        .next (became s i.core (c.enqueue d (originOf s i 6 (syncBits op))
          (.posted (h.extractLsb' 32 3) (messageEntry (messageHeader c.featX c.featY env.dest.module count (h.extractLsb' 32 16) ws) ws))))) ∧
    (∀ (sa sb : BitVec 5) (handler : BitVec 4) (count : BitVec 2) (d : Dest),
      let op : SyncOp := .amsg sa sb handler count
      let ws := c.messageWords sb count.toNat false
      inRangeSync op = true → env.amOn = true → c.sendFree = true → Usable c i.fill ((.s, sa.toNat) :: (List.range (count.toNat + 1)).map (fun j => (.s, sb.toNat + j))) →
      env.dest.resolve ((c.readS sa).extractLsb' 0 32) = some d →
      exec (syncRow i op) s =
        .next (became s i.core (c.enqueue d (originOf s i 6 (syncBits op))
          (.active { handler := handler, header := messageHeader c.featX c.featY env.dest.module count 0 ws, words := ws.map (·.1) })))) ∧
    (∀ group : BitVec 6,
      let g := group.toNat
      let n := AMap.get 0 c.work.rounds g
      let round := AMap.get {} p.rounds (c.roundKey g)
      let before := AMap.get {} p.rounds (64 * (n - 1) + g)
      p.isMember g c.featY.toNat c.featX.toNat = true → (n ≠ 0 → (∀ a ∈ before.arrivals, a.1 ≠ i.core.toNat) ∨ before.landed.getLsbD (fieldOfCore i.core).toNat = true) →
      exec (syncRow i (.bar group)) s =
        .next ((u.setPlot fn { p with rounds := AMap.set p.rounds (c.roundKey g) { round with arrivals := round.arrivals ++ [(i.core.toNat, f)] } }).modCore i.core
          (fun k => { k with work.rounds := AMap.put 0 k.work.rounds g (n + 1) }))) ∧
    (p.commons.requests.length < 256 →
      (∀ (k : BitVec 12) (amount : BitVec 15), amount ≠ 0 → p.mayTally k.toNat = true → s.commons.tallyOrphan k.toNat = false →
        exec (syncRow i (.cadd k amount)) s =
          .next (u.setPlot fn { p with commons.requests := p.commons.requests ++ [{ core := i.core, put := false, target := k, value := amount.setWidth 64, accepted := false }] })) ∧
      (∀ (m : BitVec 8) (sa : BitVec 5), c.mayUse false (.s, sa.toNat) = true → p.mayPut fn m = true → s.commons.mailOrphan m = false →
        exec (syncRow i (.cput m sa)) s =
          .next (u.setPlot fn { p with commons.requests := p.commons.requests ++ [{ core := i.core, put := true, target := m.setWidth 12, value := c.readS sa, accepted := false }] }))) ∧
    (∀ (k : BitVec 12) (sa : BitVec 5), Usable c i.fill [(.s, sa.toNat)] → p.mayTally k.toNat = true → s.commons.tallyOrphan k.toNat = false →
      ((c.readS sa).extractLsb' 0 32 : BitVec 32).toNat ≤ (AMap.get 0 c.viewTallies k.toNat).toNat → exec (syncRow i (.cwait k sa)) s = .next u) ∧
    (∀ (sd : BitVec 5) (w : Word), Usable c i.fill [(.s, sd.toNat)] → Unclaimed c (.s, sd.toNat) (f + 1) → s.commons.mailOrphan fn = false → c.viewMail = some w →
      exec (syncRow i (.ctake sd)) s =
        .next (became s i.core ((schedule c (originOf s i 6 (syncBits (.ctake sd))) (f + 1) (.s sd w)).push f (.takeMail (originOf s i 6 (syncBits (.ctake sd)))))))


namespace Sys2Proof.Claims

open Sys2Proof.Machine

/-- What a waiting operation waits for is there (R252, R266, R276, R277). -/
def WaitMet (c : CoreState) (m : Commons) (p : Plot) (fn : Fn) (amOn : Bool) : SyncOp → Prop
  | .wait tally _ thr => thr.toNat ≤ (c.tally tally).toNat
  | .waitReg tally _ sa => c.mayUse false (.s, sa.toNat) = false ∨ ((c.readS sa).extractLsb' 0 32 : BitVec 32).toNat ≤ (c.tally tally).toNat
  | .post _ _ _ _ => c.traffic.sendQueue.length < 8
  | .select mask rot _ => c.selectRing mask (rot == 1) ≠ none
  | .cwait k sa => p.mayTally k.toNat = false ∨ m.tallyOrphan k.toNat = true ∨ c.mayUse false (.s, sa.toNat) = false ∨ ((c.readS sa).extractLsb' 0 32 : BitVec 32).toNat ≤ (AMap.get 0 c.viewTallies k.toNat).toNat
  | .ctake _ => m.mailOrphan fn = true ∨ c.viewMail ≠ none
  | .amsg _ _ _ _ => amOn = false ∨ c.traffic.sendQueue.length < 8
  | _ => True

end Sys2Proof.Claims

/-- A sync operation that waits holds its whole bundle. WAIT, POST, SELECT, CWAIT, CTAKE and AMSG of a main-stream bundle that may issue in its fc with a header and an address that pass: while what the operation waits for is not there, the core has run to that fc and holds the bundle, waiting from the fc of its first holding, and nothing of the bundle issues. The commons object that CWAIT and CTAKE wait on is kept with the hold. -/
def Obligations.WaitsHoldTheirBundle : Prop :=
  ∀ (s : State) (i : Issue) (h : BundleHead) (op : SyncOp),
    let env := s.env i.core
    let fn := (s.core i.core).owner.getD 0
    let c := (s.core i.core).runTo env ((s.core i.core).step.offset + h.dt)
    s.hasCore i.core = true → env.running = true → i.fill = false → i.head = some h → inRangeSync op = true →
    c.mayIssue false = true → c.step.main.next < 8192 → headerFaults h.header false h.syncZero = false → ¬ WaitMet c s.commons (s.plot fn) fn env.amOn op →
    ∃ t : State, exec (syncRow i op) s = .next t ∧
      t = became s i.core { c with step.main := { c.step.main with cancelled := true, waiting := true, waitFrom := c.step.offset, header := h.header, waitWord := h.sync
                                                                   waitObject := match op with | .cwait k _ => some (k.setWidth 16) | .ctake _ => some 0x8000 | _ => none } }

/-- A bundle address of 8,192 or more faults with BAD_BUNDLE and nothing issues. For every slot operation that comes first in a bundle of a stream that may issue in that fc and whose next address is 8,192 or more, and so for a bundle whose header faults and for a fill bundle with a nonzero matrix slot: the command answers the next state in which the core has run to that fc, one BAD_BUNDLE report with that offset has been added, and no operation of the bundle has had an effect: the registers, the scratchpad, the tallies and the work in flight are those of the core in that fc. -/
def Obligations.BundleAddressesEndAt8191 : Prop :=
  ∀ (s : State) (i : Issue) (h : BundleHead) (row : Instr),
    let env := s.env i.core
    let c := (s.core i.core).runTo env ((s.core i.core).step.offset + h.dt)
    SlotRow i row → s.hasCore i.core = true → env.running = true → i.head = some h → c.mayIssue i.fill = true →
    (8192 ≤ (c.stream i.fill).next ∨ headerFaults h.header i.fill h.syncZero = true ∨ (i.fill = true ∧ h.matrix ≠ 0)) →
    exec row s = .next (became s i.core (opened s i)) ∧
      (opened s i).work = c.work ∧ (opened s i).step.events = c.step.events ∧ (opened s i).step.offset = c.step.offset ∧
      ∃ r : CoreReport, (opened s i).traffic.reports = c.traffic.reports ++ [r] ∧ r.code = 0x2007 ∧ r.offset = c.step.offset

/-- A slot word that its table does not admit faults with BAD_BUNDLE and has no effect. For one operation of each slot (SADD, VADD, MANCHOR of a main-stream bundle, LDVG, STV and TEST): where the bundle issues and the operand bits decode to no operation, the command answers the next state in which BAD_BUNDLE is reported with the slot's bits and nothing else is done. Where the bits decode and a register of the other stream is an operand or destination of SADD, STREAM_ACCESS is reported instead. A bundle that issues with a reserved opcode in a slot reports BAD_BUNDLE for that slot as it opens. -/
def Obligations.ReservedWordsAreBadBundles : Prop :=
  ∀ (s : State) (i : Issue),
    let c := opened s i
    Issues s i →
    (∀ w : BitVec 34, decodeScalar (1#6 ++ w) = none → exec (.sadd i w) s = .next (became s i.core (c.issueFault 0x2007 (originOf s i 1 ((1#6 ++ w).setWidth 64))))) ∧
    (∀ w : BitVec 40, decodeVector (1#8 ++ w) = none → exec (.vadd i w) s = .next (became s i.core (c.issueFault 0x2007 (originOf s i 2 ((1#8 ++ w).setWidth 64))))) ∧
    (i.fill = false → ∀ w : BitVec 44, decodeMatrix (4#4 ++ w) = none → exec (.manchor i w) s = .next (became s i.core (c.issueFault 0x2007 (originOf s i 3 ((4#4 ++ w).setWidth 64))))) ∧
    (∀ w : BitVec 32, decodeLoad (4#4 ++ w) = none → exec (.ldvg i w) s = .next (became s i.core (c.issueFault 0x2007 (originOf s i 4 ((4#4 ++ w).setWidth 64))))) ∧
    (∀ w : BitVec 32, decodeStore (1#4 ++ w) = none → exec (.stv i w) s = .next (became s i.core (c.issueFault 0x2007 (originOf s i 5 ((1#4 ++ w).setWidth 64))))) ∧
    (∀ w : BitVec 27, decodeSync (2#5 ++ w) = none → exec (.test i w) s = .next (became s i.core (c.issueFault 0x2007 (originOf s i 6 ((2#5 ++ w).setWidth 64))))) ∧
    (∀ (d a b : BitVec 5) (ov : BitVec 2) (sub : BitVec 1),
      let op : ScalarOp := .sadd d a b ov sub
      inRangeScalar op = true → (c.mayUse i.fill (.s, a.toNat) = false ∨ c.mayUse i.fill (.s, b.toNat) = false ∨ c.mayUse i.fill (.s, d.toNat) = false) →
      exec (scalarRow i op) s = .next (became s i.core (c.issueFault 0x2013 (originOf s i 1 (scalarBits op))))) ∧
    (∀ h : BundleHead, i.head = some h → ∀ k : Nat × Word,
      ((k = (1, h.scalar.setWidth 64) ∧ 0x12 < (h.scalar.extractLsb' 34 6).toNat) ∨ (k = (2, h.vector.setWidth 64) ∧ 0x12 < (h.vector.extractLsb' 40 8).toNat) ∨
        (k = (3, h.matrix.setWidth 64) ∧ 6 < (h.matrix.extractLsb' 44 4).toNat) ∨ (k = (4, h.load.setWidth 64) ∧ 4 < (h.load.extractLsb' 32 4).toNat) ∨
        (k = (5, h.store.setWidth 64) ∧ 4 < (h.store.extractLsb' 32 4).toNat) ∨ (k = (6, h.sync.setWidth 64) ∧ 0xD < (h.sync.extractLsb' 27 5).toNat)) →
      ∃ r ∈ c.traffic.reports, r.code = 0x2007 ∧ r.slot = k.1 ∧ r.d0 = k.2 ∧ r.offset = c.step.offset)

/-- Whatever a slot operation does, it leaves the rest of the module as it was. For every slot operation, loop end and stop bundle, with any operand bits, that answers a next state: every other core is unchanged; the hub die, the fields, the edges, the ports, the system state, the commons, the grade and the queue are unchanged; of a plot only the barrier rounds and the commons requests of the core's own plot may change; of a channel only its queue of writes. When the command is not the first of its bundle, no byte of the core's scratchpad, no register, no tally, no accumulator group and no ring pointer of the core changes in the command: what it does lands later. -/
def Obligations.SlotOperationsKeepEverythingElse : Prop :=
  ∀ (s t : State) (i : Issue) (row : Instr),
    (SlotRow i row ∨ row = .loopEnd i ∨ row = .stopBundle i) → exec row s = .next t →
    (∀ q : CoreId, q ≠ i.core → t.core q = s.core q) ∧
    t.hub = s.hub ∧ t.fields = s.fields ∧ t.fieldHold = s.fieldHold ∧ t.edges = s.edges ∧ t.ports = s.ports ∧ t.system = s.system ∧ t.commons = s.commons ∧ t.grade = s.grade ∧ t.pending = s.pending ∧
    (∀ fn : Fn, fn ≠ (s.core i.core).owner.getD 0 → t.plot fn = s.plot fn) ∧
    (∀ fn : Fn, t.plot fn = { s.plot fn with rounds := (t.plot fn).rounds, commons.requests := (t.plot fn).commons.requests }) ∧
    (∀ ch : ChanId, t.channel ch = { s.channel ch with writes := (t.channel ch).writes }) ∧
    (i.head = none →
      let c := s.core i.core
      let k := t.core i.core
      (∀ a, k.byte a = c.byte a) ∧ (∀ r, k.readS r = c.readS r) ∧ (∀ r, k.readA r = c.readA r) ∧ (∀ r, k.readV r = c.readV r) ∧ (∀ r, k.readM r = c.readM r) ∧
      (∀ q, k.tally q = c.tally q) ∧ k.work.groups = c.work.groups ∧ k.work.ringPtr = c.work.ringPtr)


namespace Sys2Proof.Claims

open Sys2Proof.Machine

/-! ### Commands of one core -/

/-- The core `dt` fc on. -/
def later (s : State) (cid : CoreId) (dt : Nat) : CoreState := (s.core cid).runTo (s.env cid) ((s.core cid).step.offset + dt)

/-- A command of a core acts: the grade has the core and its step runs. -/
def Runs (s : State) (cid : CoreId) : Prop := s.hasCore cid = true ∧ (s.env cid).running = true

end Sys2Proof.Claims

/-- The five core commands of handlers, doze and the commons answer a next state with the core as the rules leave it. The rows are HANDLER_START, DOZE_ENTRY, ORPHAN_WAIT, COMMONS_VIEW_UPDATE and COMMONS_REQUEST_ACCEPTED. HANDLER_START, with a message queued in the core whose main stream has stopped: the oldest message leaves the queue, the main stream stands before bundle ADDR of its handler, to issue from the next fc, S1 holds the header, S2 to S5 the words with 0 for an absent one, and no other scalar, address, vector or mask register, no scratchpad byte and no tally changes; while the stream runs, or with no message, only time passes. DOZE_ENTRY sets doze when the main stream has held a bundle for 4,096 fc on a condition that does not hold, no slot operation is in flight, no matrix operation runs and the fill stream is disabled or stopped, and else nothing but time passes. ORPHAN_WAIT on a core whose held bundle waits on an orphaned tally or mailbox: the hold and the doze end, the bundle does not issue, and ORPHAN_WAIT is reported with the object and its former owner. COMMONS_VIEW_UPDATE: the core sees the committed value of every commons tally and the word of its plot's mailbox, or none when that is empty. COMMONS_REQUEST_ACCEPTED: the core's oldest request that was not accepted becomes accepted, the other requests keep their place and state. Nothing else changes. -/
def Obligations.CoresTakeHandlersDozeAndCommons : Prop :=
  (∀ (s : State) (cid : CoreId) (dt : Nat),
    let c := later s cid dt
    Runs s cid →
    (∀ (m : Message) (rest : List Message), c.traffic.amQueue = m :: rest → c.step.main.stopped = true →
      ∃ t : State, exec (.handlerStart cid dt) s = .next t ∧
        let k := t.core cid
        k.traffic.amQueue = rest ∧
        k.step.main = { next := ((AMap.get 0 c.tables.handler m.handler.toNat).extractLsb' 0 13).toNat, issued := true, cancelled := true, curFc := c.step.offset } ∧
        k.readS 1 = m.header ∧ (∀ j < 4, k.readS (BitVec.ofNat 5 (2 + j)) = m.words.getD j 0) ∧ (∀ r : BitVec 5, r = 0 ∨ 5 < r.toNat → k.readS r = c.readS r) ∧
        (∀ r, k.readA r = c.readA r) ∧ (∀ r, k.readV r = c.readV r) ∧ (∀ r, k.readM r = c.readM r) ∧ (∀ a, k.byte a = c.byte a) ∧ (∀ q, k.tally q = c.tally q)) ∧
    (c.traffic.amQueue = [] ∨ c.step.main.stopped = false → exec (.handlerStart cid dt) s = .next (became s cid c)) ∧
    (let idle : Prop := c.step.main.waiting = true ∧ c.waitHolds = false ∧ c.step.main.waitFrom + 4096 ≤ c.step.offset ∧ (∀ e ∈ c.step.events, e.ev.isOperation = false) ∧ c.arrayRuns c.step.offset = false ∧
        (c.partitioned = false ∨ c.step.fill.stopped = true)
     (idle → exec (.dozeEntry cid dt) s = .next (became s cid { c with totals.doze := true })) ∧ (¬ idle → exec (.dozeEntry cid dt) s = .next (became s cid c)))) ∧
  (∀ (s : State) (cid : CoreId),
    let c := s.core cid
    let fn := c.owner.getD 0
    let mb := AMap.get {} s.commons.mail fn.toNat
    s.hasCore cid = true →
    (∀ obj : BitVec 16, c.step.main.waiting = true → c.step.main.waitObject = some obj →
      (if obj.getLsbD 15 then mb.assigned = false else AMap.find s.commons.owner (obj.extractLsb' 0 12).toNat = none) →
      ∃ t : State, exec (.orphanWait cid) s = .next t ∧
        let former : Fn := if obj.getLsbD 15 then fn else AMap.get 0 s.commons.former (obj.extractLsb' 0 12).toNat
        let k := t.core cid
        k.step.main = { c.step.main with waiting := false, waitObject := none, cancelled := true } ∧ k.totals.doze = false ∧ k.work = c.work ∧ k.step.events = c.step.events ∧
        ∃ r : CoreReport, k.traffic.reports = c.traffic.reports ++ [r] ∧ r.code = 0x2008 ∧ r.d0 = obj.setWidth 64 ∧ r.d1 = former.setWidth 64 ∧ r.offset = c.step.offset) ∧
    exec (.commonsViewUpdate cid) s = .next (s.setCore cid { c with viewTallies := s.commons.tally, viewMail := if mb.full then some mb.word else none }) ∧
    (∀ (before after : List CommonsReq) (r : CommonsReq),
      (s.plot fn).commons.requests = before ++ r :: after → r.core = cid → r.accepted = false → (∀ q ∈ before, q.core = cid → q.accepted = true) →
      exec (.commonsRequestAccepted cid) s = .next (s.setPlot fn { s.plot fn with commons.requests := before ++ { r with accepted := true } :: after })))

/-- PATROL_SCRUB_READ and PATROL_SCRUB_WRITEBACK answer a next state with the line passed, taken or written back. A scrub read in a fc with a free read port, with no write-back waiting, moves to the next of the 24,576 lines when the line has no correctable and no uncorrectable word, and else takes the line. A write-back in a later fc with a free write port falls due in that fc. As it takes effect, after the reads and writes of its fc, it corrects the line's correctable words, each counted as CE, and bruises its uncorrectable words, each counted as SCRUB_BRUISE and raised as that event, unless another write has touched the line from the read on; then, too, the scrub moves to the next line. No data byte and no class of another line's word changes. -/
def Obligations.PatrolScrubVisitsLines : Prop :=
  (∀ (s : State) (cid : CoreId) (dt : Nat),
    let c := later s cid dt
    let line := c.scrub.line
    let nextLine := (line + 1) % 24576
    let bad : Nat → Prop := fun k => c.wordClass k = some .correctable ∨ c.wordClass k = some .uncorrectable
    Runs s cid →
    (c.scrub.waiting = false → c.scrubMayRead (s.env cid) = true →
      ((∀ j < 8, ¬ bad (8 * line + j)) → exec (.patrolScrubRead cid dt) s = .next (became s cid { c with scrub.line := nextLine })) ∧
      ((∃ j < 8, bad (8 * line + j)) → exec (.patrolScrubRead cid dt) s = .next (became s cid { c with scrub := { line := line, waiting := true, readFc := c.step.offset, touched := false } }))) ∧
    (c.scrub.waiting = true → c.scrub.readFc < c.step.offset → c.scrubMayWrite (s.env cid) = true → (∀ e ∈ c.step.events, e.ev ≠ .scrubWrite) →
      exec (.patrolScrubWriteback cid dt) s = .next (became s cid (c.push c.step.offset .scrubWrite)))) ∧
  (∀ (c : CoreState) (env : Env),
    let line := c.scrub.line
    let nextLine := (line + 1) % 24576
    let k := c.fire env .scrubWrite
    (c.scrub.touched = true → k = { c with scrub := { line := nextLine, waiting := false, readFc := 0, touched := false } }) ∧
      (c.scrub.touched = false →
          k.scrub = { line := nextLine, waiting := false, readFc := 0, touched := false } ∧ (∀ a, k.byte a = c.byte a) ∧
          k.scr.ce.toNat = min 65535 (c.scr.ce.toNat + ((List.range 8).filter (fun j => c.wordClass (8 * line + j) == some .correctable)).length) ∧
          k.scr.scrubBruise.toNat = min 255 (c.scr.scrubBruise.toNat + ((List.range 8).filter (fun j => c.wordClass (8 * line + j) == some .uncorrectable)).length) ∧
          (∃ rs : List CoreReport, k.traffic.reports = c.traffic.reports ++ rs ∧ rs.length = ((List.range 8).filter (fun j => c.wordClass (8 * line + j) == some .uncorrectable)).length ∧ ∀ r ∈ rs, r.code = 0x0002) ∧
          (∀ w, w / 8 = line → k.wordClass w = (match c.wordClass w with | some .correctable => none | some .uncorrectable => some .bruised | x => x)) ∧ (∀ w, w / 8 ≠ line → k.wordClass w = c.wordClass w)))

/-- RESIDUE_CHECK_EVENT and COLUMN_TEST_DONE answer a next state with the event counted and the column replaced. RESIDUE_CHECK_EVENT counts in CHECKS, up to 255, and makes a column test due. COLUMN_TEST_DONE on a core with a test due that found one enabled column f, with a healthy column above f that is not enabled: f is cleared in COLENABLE and the lowest such column is set, no other bit of COLENABLE changes, f is marked bad, and COLUMN_LOST is reported with f and the new COLENABLE; the new map waits for the next bell or restart, or stands at once where the plot is held between steps or being restored. A test that found none reports COLUMN_LOST with 0x3F and changes no column. The test is then due no more. -/
def Obligations.ArrayChecksAreTested : Prop :=
  ∀ (s : State) (cid : CoreId), s.hasCore cid = true →
    (∀ chaff : Bool, ∃ t : State, exec (.residueCheckEvent cid chaff) s = .next t ∧
      (t.core cid).checkPending.isSome = true ∧ (t.core cid).array.checks.toNat = min 255 ((s.core cid).array.checks.toNat + 1) ∧
      t = s.setCore cid { s.core cid with array.checks := (t.core cid).array.checks, checkPending := (t.core cid).checkPending }) ∧
    (∀ k : Bool × Nat, (s.core cid).checkPending = some k →
      let off := if k.1 || (s.faultOffset cid).isNone then none else some k.2
      let u := s.setCore cid { s.core cid with checkPending := none }
      let k0 := s.physCore cid
      let m := k0.planned
      let now := match (s.core cid).owner with | some fn => (s.plot fn).repairsNow | none => false
      (∀ f g : Nat, f < 34 → f < g → g < 34 → m.colEnable.getLsbD f = true → m.bad.getLsbD f = false → m.bad.getLsbD g = false → m.colEnable.getLsbD g = false →
        (∀ h, f < h → h < g → m.bad.getLsbD h = true ∨ m.colEnable.getLsbD h = true) →
        ∃ m2 : ArrayMap, exec (.columnTestDone cid (BitVec.ofNat 34 (2 ^ f))) s =
            .next ((u.setPhysCore cid (if now then { k0 with map := m2, next := none } else { k0 with next := some m2 })).partReport cid (s.core cid).owner false 0x3008 (BitVec.ofNat 64 f) (m2.colEnable.setWidth 64) off) ∧
          (∀ j < 34, m2.colEnable.getLsbD j = if j = f then false else if j = g then true else m.colEnable.getLsbD j) ∧ (∀ j < 34, m2.bad.getLsbD j = (m.bad.getLsbD j || j == f))) ∧
      exec (.columnTestDone cid 0) s = .next (u.partReport cid (s.core cid).owner false 0x3008 0x3F (m.colEnable.setWidth 64) off))

/-- FLIT_ADVANCE, POSTED_FLIT_ADVANCE and BRIDGE_FLIT_ARRIVES answer a next state with the flit moved, held, gone by its gate or come off its bridge. A flit at a router whose plot runs there. Scheduled, with an output link toward its destination: where neither its lane nor another flit nor an earlier use of the link holds it, it is at the next router 2 fc on, or on the bridge when the link crosses a field edge, and the link's fc is used; else it tries again in the next fc, LINK_COLL counts, and the first such event of the core in the step is a SLOT_COLLISION report. At its gate to another module it leaves with one credit, or without a credit stalls the field. Posted: it moves when no scheduled flit uses the link and the buffer beyond has room (4 flits, 16 across an edge), and else waits one fc, counted in POSTWAIT. A flit on a bridge behind none of its lane comes to the router (posted, fewer than four in its input, and else stays on the bridge), enters the elastic buffer (scheduled, fewer than 256 there), or is lost with BELL_OVERRUN (256 there). -/
def Obligations.FlitsMoveHopByHop : Prop :=
  ∀ (s : State) (n : Nat) (f : Flit), AMap.find s.mesh.flits n = some f →
    (f.stage = .router → s.routerRuns f.router = true → f.onPostedLane = false →
      (∀ port : BitVec 3, outPort f.router (s.meshDest f) = some port →
        let u : LinkUse := { router := f.router, port := port, link1 := linkOf f.router port f.link1, fc := f.ready }
        let held : Prop := s.laneHeld n f = true ∨ s.flitFirst n f port = true ∨ u ∈ s.mesh.uses
        let g : Flit := { f with router := routerBeyond f.router port, inPort := inputBeyond port }
        (¬ held →
          exec (.flitAdvance n) s =
            .next { s with mesh := { (s.passInput f).mesh with
              uses := (s.passInput f).mesh.uses ++ [u]
              flits := AMap.set s.mesh.flits n (if crossesEdge f.router port then { g with stage := .bridge f.ready } else { g with ready := f.ready + 2, arrived := f.ready + 2 }) } }) ∧
        (held →
          ∃ t : State, exec (.flitAdvance n) s = .next t ∧ AMap.find t.mesh.flits n = some { f with ready := f.ready + 1 } ∧
            (t.core f.router).mesh.linkColl.toNat = min 65535 ((s.core f.router).mesh.linkColl.toNat + 1) ∧ t.mesh.uses = s.mesh.uses ∧
            (t.core f.router).traffic.reports.length = (s.core f.router).traffic.reports.length + (if (s.core f.router).traffic.collided then 0 else 1) ∧ ∀ q, q ≠ f.router → t.core q = s.core q)) ∧
      (outPort f.router (s.meshDest f) = none → s.leaves f = true → s.laneHeld n f = false → (f.router.toNat, f.ready) ∉ s.system.gateUse →
        (AMap.get 512 s.system.credits f.router.toNat ≠ 0 → exec (.flitAdvance n) s = .next (((s.passInput f).useGate f.router.toNat f.ready).dropFlit n)) ∧
        (AMap.get 512 s.system.credits f.router.toNat = 0 → exec (.flitAdvance n) s = .next (s.stallGate f.fn (fieldOfCore f.router))))) ∧
    (f.stage = .router → s.routerRuns f.router = true → f.onPostedLane = true → ∀ port : BitVec 3, outPort f.router (s.meshDest f) = some port →
      let free : Prop := s.flitAhead n f = false ∧ s.flitFirst n f port = false ∧ { router := f.router, port := port, link1 := false, fc := f.ready } ∉ s.mesh.uses ∧
        s.postedAt (routerBeyond f.router port) (inputBeyond port) (crossesEdge f.router port) < (if crossesEdge f.router port then 16 else 4)
      let g : Flit := { f with link1 := false, router := routerBeyond f.router port, inPort := inputBeyond port }
      (free →
        ∃ t : State, exec (.postedFlitAdvance n) s = .next t ∧ t.cores = s.cores ∧
          AMap.find t.mesh.flits n = some (if crossesEdge f.router port then { g with stage := .bridge f.ready } else { g with ready := f.ready + 2, arrived := f.ready + 2 })) ∧
      (¬ free →
        exec (.postedFlitAdvance n) s =
          .next ((s.setFlit n { f with ready := f.ready + 1 }).setCore f.router { s.core f.router with mesh.postedWait := satAdd (s.core f.router).mesh.postedWait 1 }))) ∧
    (f.stage = .router → s.routerRuns f.router = true → f.onPostedLane = true → outPort f.router (s.meshDest f) = none → s.leaves f = true →
      let free : Prop := s.flitAhead n f = false ∧ s.flitFirstAtGate n f = false ∧ (f.router.toNat, f.ready) ∉ s.system.gateUse ∧ AMap.get 512 s.system.credits f.router.toNat ≠ 0
      (free → exec (.postedFlitAdvance n) s = .next ((s.useGate f.router.toNat f.ready).dropFlit n)) ∧
      (¬ free →
        exec (.postedFlitAdvance n) s =
          .next ((s.setFlit n { f with ready := f.ready + 1 }).setCore f.router { s.core f.router with mesh.postedWait := satAdd (s.core f.router).mesh.postedWait 1 }))) ∧
    (∀ sent offset : Nat, f.stage = .bridge sent → s.bridgeAhead n f = false →
      (f.onPostedLane = true → s.postedAt f.router f.inPort false < 4 → exec (.bridgeFlitArrives n offset) s = .next (s.setFlit n { f with stage := .router, ready := offset, arrived := offset })) ∧
      (f.onPostedLane = true → 4 ≤ s.postedAt f.router f.inPort false → exec (.bridgeFlitArrives n offset) s = .next s) ∧
      (f.onPostedLane = false → (s.buffered f.router f.inPort f.link1).length < 256 → exec (.bridgeFlitArrives n offset) s = .next (s.setFlit n { f with stage := .buffered sent, arrived := offset })) ∧
      (f.onPostedLane = false → 256 ≤ (s.buffered f.router f.inPort f.link1).length →
        exec (.bridgeFlitArrives n offset) s = .next ((s.dropFlit n).bellOverrun f.fn f.router offset (fieldAcross f.router f.inPort))))

/-- LINE_FIRING, PARTIAL_FIRING, LAND_FIRING and RECV_FIRING answer a next state with the firing counted and its work begun. For a train of the named slot with a firing still to come at offset f, in a router that fires (for LINE and PARTIAL, one before which no other train of its channel fires): LINE reads one line of the source position in each fc from f and sends flit j in the fc after it; PARTIAL reads the accumulator entries at the end of f and sends the block from f + 1; LAND has only its claims and is counted; RECV releases LINES + 1 flits from the elastic buffer, the one that arrived first in each fc of the firing, or reports BELL_OVERRUN where none has arrived. The transfer channel's firing number rises with each LINE and PARTIAL firing, and the positions move on by their steps. A LINE firing whose lines fail their check is reported, and the router fires no further train. -/
def Obligations.TrainsFire : Prop :=
  ∀ (s : State) (cid : CoreId) (slot : BitVec 10) (tr : Train) (k f : Nat),
    let c := (s.core cid).runTo (s.env cid) f
    let ch := (s.core cid).tables.channel tr.chan
    let m := AMap.get 0 (s.core cid).traffic.chanFired tr.chan
    let counted := (c.countFiring slot).countChannel tr.chan
    Runs s cid →
    (∀ d : Dest, (s.env cid).dest.resolve ch.dest = some d → (s.core cid).nextChannelFiring slot 0 = some (tr, k, f) →
      let there : Option Bad := match d with | .here r => (s.core r).destAligned ch.dh (ch.dpos + m * ch.dstep) | .away _ _ => none
      (∀ bytes : List Nat, counted.lineBytes ch.sh false (ch.spos + m * ch.sstep) 0 (tr.lines + 1) = .ok bytes → there = none →
        exec (.lineFiring cid slot) s =
          .next (became s cid ((List.range (tr.lines + 1)).foldl (fun (q : CoreState) j =>
            q.push (c.step.offset + j) (.lineRead (bytes.getD (64 * j) 0 / 64)
              { dest := d.split.1, destModule := d.split.2, ready := c.step.offset + 1 + j, link1 := tr.link1, order := slot.toNat, firing := m, site := tr.site,
                kind := .line ch.dh (ch.dpos + m * ch.dstep) j tr.lines ch.ten ch.tally ch.amount 0 0 } { site := tr.site, num := slot.toNat })) counted))) ∧
      (∀ b : Bad, counted.lineBytes ch.sh false (ch.spos + m * ch.sstep) 0 (tr.lines + 1) = .error b → there = none →
        exec (.lineFiring cid slot) s = .next (became s cid { counted.accessFault b { site := tr.site, num := slot.toNat } with traffic.routerStopped := true }))) ∧
    (∀ d : Dest, (s.env cid).dest.resolve ch.dest = some d → (s.core cid).nextChannelFiring slot 1 = some (tr, k, f) →
      let e := (ch.spos + m * ch.sstep) % 1024
      let row := (ch.spos + m * ch.sstep) / 1024
      let dp := ch.dpos + m * ch.dstep
      (counted.rangeOk ch.narrow e (e + ch.count) = true → (∀ j ≤ ch.count, (counted.group (entryGroup ch.narrow (e + j))).anchor = (counted.group (entryGroup ch.narrow e)).anchor) →
        (∀ j ≤ ch.count, counted.entryPending c.step.offset ch.narrow row (e + j) = false) →
        ∃ (out : FlitOut) (b : PartialBlock), exec (.partialFiring cid slot) s = .next (became s cid (counted.push c.step.offset (.partialRead row e ch.count ch.narrow out b))) ∧
          out.dest = d.split.1 ∧ out.destModule = d.split.2 ∧ out.ready = c.step.offset + 1 ∧ out.order = slot.toNat ∧ out.firing = m ∧ out.kind = .part 0 0 b ∧
          b.row = dp / 1024 ∧ b.entry = dp % 1024 ∧ b.sender = cid ∧ b.tallyEn = ch.ten ∧ b.tally = ch.tally ∧ b.amount = ch.amount ∧ b.train = slot.toNat)) ∧
    ((s.core cid).nextFiring slot 3 = some (tr, k, f) → exec (.landFiring cid slot) s = .next (became s cid (c.countFiring slot))) ∧
    ((s.core cid).nextFiring slot 4 = some (tr, k, f) →
      exec (.recvFiring cid slot) s =
        .next ((List.range (tr.lines + 1)).foldl (fun (q : State) j => q.releaseOne cid ((s.core cid).owner.getD 0) (tr.port.setWidth 3) tr.link1 (f + j)) (s.setCore cid ((s.core cid).countFiring slot))))

/-- SIGNAL_LANDS and SCHEDULED_FLIT_LANDS answer a next state with the flit landed. A flit at the router of its core, with its plot running there and its input passing it. A signal raises its tally in its fc. A partial block's flit is received, the last one starting the merge 2 fc later. A line flit whose bytes pass their checks, with no other write on a common word and a write port in its fc, writes its 64 bytes there, and as the last of a whole firing it raises the tally; one whose check fails is discarded with its report, and its firing is broken. In each of these the flit leaves the mesh. Where another write of the fc touches a common word, another landing on one goes first, or no write port is left, the landing is held to the next fc, and its bytes are judged in the fc in which it lands. -/
def Obligations.ScheduledFlitsLand : Prop :=
  ∀ (s : State) (n : Nat) (f : Flit),
    let u := if f.delayed then s else s.passInput f
    AMap.find s.mesh.flits n = some f → s.atDest f = true → s.routerRuns f.dest = true →
    (∀ (tally : BitVec 6) (amount : Nat), f.kind = .sig tally amount → s.laneHeld n f = false →
      exec (.signalLands n) s = .next (((s.passInput f).dropFlit n).onCore f.dest (fun e k => (k.runTo e f.ready).push (k.runTo e f.ready).step.offset (.tally tally amount)))) ∧
    ((f.delayed = true ∨ s.laneHeld n f = false) →
      (∀ (j last : Nat) (b : PartialBlock), f.kind = .part j last b →
        exec (.scheduledFlitLands n) s = .next ((u.dropFlit n).onCore f.dest (fun e k => (k.runTo e f.ready).receivePart f j last b))) ∧
      (∀ (h : BitVec 6) (pos j last amount : Nat) (ten : Bool) (tally : BitVec 6) (data : BitVec 512) (bruise : BitVec 8), f.kind = .line h pos j last ten tally amount data bruise →
        let v := u.onCore f.dest (fun e k => k.runTo e f.ready)
        let c := v.core f.dest
        let o : Origin := { site := f.site, num := f.order, port := f.inPort.toNat }
        let blocked : Prop := v.landsFirst f.dest c.step.offset f.landRank (c.lineWords h pos j) = true ∨ c.wordTaken (c.lineWords h pos j) = true
        (∀ (bytes : List Nat) (k : CoreState), ¬ blocked → c.lineBytes h true pos j 1 = .ok bytes → c.landPort (v.env f.dest) = some k →
          exec (.scheduledFlitLands n) s =
            .next ((v.setCore f.dest
              (let w := (k.push k.step.offset (.write (bytes.zipIdx.map (fun p => { addr := p.1, val := data.extractLsb' (8 * p.2) 8, bruise := bruise.getLsbD (p.2 / 8) })) true o)).settleDelay f
               if j = last ∧ ten = true ∧ v.firingBroken f = false then w.push w.step.offset (.tally tally amount) else w)).dropFlit n)) ∧
        (blocked ∨ c.landPort (v.env f.dest) = none → exec (.scheduledFlitLands n) s = .next ((v.setCore f.dest c).holdLanding n f c.step.offset)) ∧
        (∀ (b : Bad) (k : CoreState), ¬ blocked → c.landPort (v.env f.dest) = some k → c.lineBytes h true pos j 1 = .error b →
          exec (.scheduledFlitLands n) s = .next (((v.setCore f.dest ((c.accessFault b o).settleDelay f)).dropFlit n).breakFiring f))))

/-- POSTED_MESSAGE_LANDS, ACTIVE_MESSAGE_ARRIVES, GRANARY_SPILL and GRANARY_DRAIN_LANDS answer a next state with the message delivered. A posted message first on its link at the router of its core: with its ring not enabled it is discarded with RING_STATE; with SPILL 0 and a free entry it lands; with SPILL 0 and a full ring it is held, counted in HELD; with SPILL above 0 and room in the core it spills at once. A held one spills once it has been held 256 fc, where the ring is still full or has spilled entries and the core has room. An active message joins the queue while active messages are enabled, its handler exists and fewer than four wait; where they are not enabled or the handler does not exist it is discarded with AM_DISABLED. A drain lands as a delivery in its landing fc, a unit found uncorrectable landing with every word bruised and DEEP_UE reported. -/
def Obligations.MessagesArrive : Prop :=
  (∀ (s : State) (n : Nat) (f : Flit),
    AMap.find s.mesh.flits n = some f → s.atDest f = true → s.routerRuns f.dest = true → s.flitAhead n f = false →
    (∀ (ring : BitVec 3) (e : RingEntry), f.kind = .posted ring e →
      let v := s.onCore f.dest (fun env k => k.runTo env f.ready)
      let c := v.core f.dest
      let gone := (v.dropFlit n).setCore f.dest { c with traffic.held := c.traffic.held.filter (fun x => x.1 != n) }
      ((c.ring ring).enable = false → exec (.postedMessageLands n) s = .next (gone.modCore f.dest (fun k => k.fault 0x201A { site := f.site } 0 0 0))) ∧
      ((c.ring ring).enable = true → (c.ringPtr ring).spill = 0 → c.ringRoom ring = true →
        exec (.postedMessageLands n) s = .next (gone.onCore f.dest (fun _ k => k.landEntry ring (if f.inPort = 4 then 1 else 2 + f.inPort.toNat) e false))) ∧
      ((c.ring ring).enable = true → (c.ringPtr ring).spill = 0 → c.ringRoom ring = false → (∀ x ∈ c.traffic.held, x.1 ≠ n) →
        exec (.postedMessageLands n) s = .next (v.setCore f.dest { c with traffic.held := c.traffic.held ++ [(n, c.step.offset)], work.sync.held := satAdd c.work.sync.held 1 })) ∧
      ((c.ring ring).enable = true → (c.ringPtr ring).spill ≠ 0 → c.traffic.spillWait.length < 4 →
        exec (.postedMessageLands n) s = .next (gone.modCore f.dest (fun k => k.spill ring e f.src f.site)))) ∧
    (∀ m : Message, f.kind = .active m →
      let c := s.core f.dest
      let exists1 := (AMap.get 0 c.tables.handler m.handler.toNat).getLsbD 16
      ((s.env f.dest).amOn = true → exists1 = true → c.traffic.amQueue.length < 4 →
        exec (.activeMessageArrives n) s =
          .next ((s.dropFlit n).onCore f.dest (fun env k => { k.runTo env f.ready with traffic.amQueue := (k.runTo env f.ready).traffic.amQueue ++ [m] }))) ∧
      ((s.env f.dest).amOn = false ∨ exists1 = false →
        exec (.activeMessageArrives n) s = .next ((s.dropFlit n).onCore f.dest (fun env k => (k.runTo env f.ready).fault 0x201B { site := f.site } 0 0 0)))) ∧
    (∀ (ring : BitVec 3) (e : RingEntry) (since : Nat), f.kind = .posted ring e → (s.core f.dest).traffic.held = [(n, since)] → s.hasCore f.dest = true →
      let v := s.onCore f.dest (fun env k => k.runTo env (since + 256))
      let c := v.core f.dest
      (c.traffic.spillWait.length < 4 → (c.ringRoom ring = false ∨ (c.ringPtr ring).spill ≠ 0) →
        exec (.granarySpill f.dest ring) s =
          .next ((v.dropFlit n).setCore f.dest (({ c with traffic.held := c.traffic.held.filter (fun x => x != (n, since)) } : CoreState).spill ring e f.src f.site))) ∧
      (4 ≤ c.traffic.spillWait.length ∨ (c.ringRoom ring = true ∧ (c.ringPtr ring).spill = 0) → exec (.granarySpill f.dest ring) s = .next v))) ∧
  (∀ (s : State) (cid : CoreId) (d : Drain) (rest : List Drain), Runs s cid → (s.core cid).traffic.drains = d :: rest →
      exec (.granaryDrainLands cid d.ring) s =
        .next (s.onCore cid (fun env k =>
          let w := k.runTo env d.land
          let w := { w with traffic.drains := w.traffic.drains.erase d }
          let w := if d.bad then w.note 0x3005 { site := d.site } (1#1 ++ 0#22 ++ d.ordinal ++ 0#32) (BitVec.ofNat 64 d.unit) 0 else w
          w.landEntry d.ring 0 (if d.bad then { d.e with bruise := 0xFF } else d.e) true)))


namespace Sys2Proof.Claims

open Sys2Proof.Machine

/-- The landing offset of R258 in field `g`: the largest, over the fields that hold members with the offset `a` of their last arrival, of `a + 24` for `g` itself and of the earliest receive of the notice that left at `a + 24`, 20 fc for each further edge. -/
def LandsAt (g : Nat) (last : List (Nat × Nat)) (r : Nat) : Prop :=
  let term (x : Nat × Nat) : Nat :=
    if x.1 = g then x.2 + 24
    else (x.2 + 24) + (((x.2 + 24) * 12 + 99) / 100 + 24) + 20 * ((x.1 / 2 - g / 2) + (g / 2 - x.1 / 2) + (x.1 % 2 - g % 2) + (g % 2 - x.1 % 2) - 1)
  (∀ x ∈ last, term x ≤ r) ∧ (last ≠ [] → ∃ x ∈ last, term x = r)

end Sys2Proof.Claims

/-- A completed round raises the group's tally by 1 in every member of the field at the landing offset of R258. BARRIER_COMPLETION_LANDS with a round of the group in which every member has arrived and that has not landed in the field, where no member's offset has passed the landing offset: the round is marked landed in the field, and every member there runs to the landing offset and has its tally raised by 1 at the end of that fc; no round of another group changes. The landing offset is the one that barrier_landing of R258 gives for the last arrivals. -/
def Obligations.BarrierCompletionsLand : Prop :=
  ∀ (s : State) (fn : Fn) (group : BitVec 6) (field : FieldId) (key : Nat) (r : BarRound) (l : List (Nat × Nat)),
    let p := s.plot fn
    let g := group.toNat
    let land := (barrierLanding field.toNat l).1
    let ms := (p.members g).filter (fun c => fieldOfCore c == field)
    p.stepping = true → p.dueRound g field = some (key, r, l) → (∀ c ∈ ms, (s.core c).step.offset ≤ land) →
    exec (.barrierCompletionLands fn group field) s =
      .next (ms.foldl (fun (q : State) c => q.onCore c (fun env k => (k.runTo env land).push (k.runTo env land).step.offset (.tally ((AMap.get 0 p.bar (3 * g + 2)).extractLsb' 0 6) 1)))
        (s.setPlot fn { p with rounds := AMap.set p.rounds key { r with landed := r.landed ||| BitVec.ofNat 8 (2 ^ field.toNat) } })) ∧
    key % 64 = g ∧ LandsAt field.toNat l land


namespace Sys2Proof.Claims

open Sys2Proof.Machine

/-! ### Deep store -/

/-- A firing of the entry stands at offset `f` of the core `cid` that it names, whose plot runs there, and no firing of the channel comes before it; `m` is its number and `a` its plot-space address (R316, R320). -/
def Fires (s : State) (ch : ChanId) (entry : BitVec 6) (kind : Nat) (e : DsEntry) (m f : Nat) (cid : CoreId) : Prop :=
  ch.toNat < s.grade.channels ∧ (s.channel ch).nextFiring entry kind = some (e, m, f) ∧ (s.channel ch).firingBefore f entry = false ∧ (s.channel ch).owner.isSome = true ∧ cid = s.entryCore (s.channel ch) e ∧ s.routerRuns cid = true

/-- The state in which the core has run to the firing and the firing is counted. -/
def firedAt (s : State) (ch : ChanId) (entry : BitVec 6) (cid : CoreId) (f : Nat) : State :=
  let u := s.onCore cid (fun env c => c.runTo env f)
  u.setChannel ch ((u.channel ch).countFiring entry)

/-- The unit as the channel keeps it: data, bruise bits, damage. -/
def unitOf (k : Channel) (u : Nat) : BitVec 512 × BitVec 8 × Damage := (k.data u, AMap.get 0 k.bruise u, AMap.get .sound k.damage u)

end Sys2Proof.Claims

/-- DS_READ_FIRING, DS_WRITE_FIRING and DS_GRANARY_FIRING answer a next state with the firing counted and its units under way. For an entry with a firing still to come at offset f, whose core runs, the core runs to f and the firing is counted. With units in the channel's share, READ requests one unit in each fc from f on, each to land 512 fc after its request, when the position lies on a line of the receiver; WRITE reads source line j in fc f + j; units outside the share are reported as DS_RANGE and nothing is requested. A granary firing drains the oldest entry of the lowest-numbered ring with SPILL above 0, a queue and a free entry, with what its unit holds after every write requested before, landing 512 fc on; with no such ring it requests the write of the waiting spill of the lowest-numbered ring, whose entry joins the ring's queue; with neither it does nothing. -/
def Obligations.ChannelEntriesFire : Prop :=
  ∀ (s : State) (ch : ChanId) (entry : BitVec 6) (e : DsEntry) (m f : Nat) (cid : CoreId),
    let k := s.channel ch
    let u := firedAt s ch entry cid f
    let c := u.core cid
    let a := (u.plot (k.owner.getD 0)).unitAddress e m
    (Fires s ch entry 0 e m f cid →
      (k.inShare a e.lines = true → c.destAligned e.h (e.hpos + m * e.hstep) = none →
        exec (.dsReadFiring ch entry) s = .next ((List.range (e.lines + 1)).foldl (fun q j => q.requestRead ch entry e m cid a.toNat c.step.offset j) u)) ∧
      (k.inShare a e.lines = false →
        exec (.dsReadFiring ch entry) s = .next (u.modCore cid (fun q => q.fault 0x2020 { site := e.site, num := entry.toNat } (1#1 ++ 0#22 ++ k.ordinal ++ 0#32) (BitVec.ofInt 64 a) 0)))) ∧
    (Fires s ch entry 1 e m f cid →
      (k.inShare a e.lines = true →
        exec (.dsWriteFiring ch entry) s =
          .next (u.setCore cid ((List.range (e.lines + 1)).foldl (fun (q : CoreState) j =>
            q.push (q.step.offset + j) (.sourceRead { chan := ch, entry := entry, firing := m, handle := e.h, pos := e.hpos + m * e.hstep, j := j, last := e.lines, unit := a.toNat,
                                                      tallyEn := e.ten, tally := e.tally, amount := e.amount, site := e.site })) c))) ∧
      (k.inShare a e.lines = false →
        exec (.dsWriteFiring ch entry) s = .next (u.modCore cid (fun q => q.fault 0x2020 { site := e.site, num := entry.toNat } (1#1 ++ 0#22 ++ k.ordinal ++ 0#32) (BitVec.ofInt 64 a) 0)))) ∧
    (Fires s ch entry 2 e m f cid →
      (∀ (r : BitVec 3) (g : GranaryEntry) (rest : List GranaryEntry), c.drainRing = some r → AMap.get [] c.work.queues r.toNat = g :: rest →
        let q := (u.channel ch).readOrdered (g.unit % shareUnits) c.step.offset entry
        exec (.dsGranaryFiring ch entry) s =
          .next ((u.setChannel ch q.1).setCore cid { c with
            work.queues := AMap.put [] c.work.queues r.toNat rest
            traffic.drains := c.traffic.drains ++ [{ ring := r, e := { line := q.2.1, bruise := q.2.2.1 }, ordinal := k.ordinal, unit := g.unit, bad := q.2.2.2, land := c.step.offset + 512, site := e.site }] })) ∧
      (∀ w : SpillWait, c.drainRing = none → c.spillRing = some w →
        exec (.dsGranaryFiring ch entry) s =
          .next ((u.setChannel ch ((u.channel ch).addWrite { chan := ch, entry := entry, req := c.step.offset, unit := w.unit, data := w.e.line, bruise := w.e.bruise, spill := true, core := cid, ring := w.ring, sender := w.sender, site := e.site })).setCore cid
            { c with
              work.queues := AMap.put [] c.work.queues w.ring.toNat (AMap.get [] c.work.queues w.ring.toNat ++ [{ e := w.e, unit := w.unit }])
              traffic.spillWait := c.traffic.spillWait.erase w })) ∧
      (c.drainRing = none → c.spillRing = none → exec (.dsGranaryFiring ch entry) s = .next u))

/-- DS_READ_UNIT_LANDS and DS_WRITE_PERFORMED answer a next state with the unit landed or written and no other unit touched. Each waits until all that was to be requested of the channel before it has been. A channel with one READ unit under way whose bytes pass their checks, with no other write or earlier landing on a common word and not yet delayed: the receiver runs to the landing fc and writes the unit's 64 bytes, as it stood after every write requested before it; as the last of a whole firing it raises the tally; and the unit is under way no more. The oldest WRITE unit of a channel with no read under way is written: its unit holds the data and bruise bits of the write and is sound, every other unit of the channel holds what it held, the journal holds the unit's content from before, except for a granary spill, which is not journaled. -/
def Obligations.DeepStoreUnitsLand : Prop :=
  ∀ (s : State) (ch : ChanId), ch.toNat < s.grade.channels →
    let k := s.channel ch
    (∀ u : ReadUnit, k.reads = [u] → s.routerRuns u.core = true → u.taken = false → u.delayed = false →
      let v := s.onCore u.core (fun env c => c.runTo env u.land)
      let c := v.core u.core
      let q := (v.channel ch).readOrdered (u.unit % shareUnits) u.req u.entry
      let w : ReadUnit := { u with data := q.2.1, bruise := q.2.2.1, bad := q.2.2.2, taken := true }
      ∀ bytes : List Nat, v.requestsBefore ch u.req u.entry = false → v.unitFirst ch w c.step.offset = false →
        c.wordTaken (c.lineWords u.handle u.pos u.j) = false → c.lineBytes u.handle true u.pos u.j 1 = .ok bytes →
        ∃ t : State, exec (.dsReadUnitLands ch) s = .next t ∧
          (t.channel ch).reads = [] ∧
          let wr : CoreEv := .write (bytes.zipIdx.map (fun p => { addr := p.1, val := q.2.1.extractLsb' (8 * p.2) 8, bruise := q.2.2.1.getLsbD (p.2 / 8) })) true { site := u.site, num := u.entry.toNat, port := 5 }
          let raise : Prop := u.j = u.last ∧ u.tallyEn = true ∧ (u.entry.toNat, u.firing) ∉ k.failedFirings
          (raise → (t.core u.core).step.events = c.step.events ++ [{ fc := c.step.offset, ev := wr }, { fc := c.step.offset, ev := .tally u.tally u.amount }]) ∧
          (¬ raise → (t.core u.core).step.events = c.step.events ++ [{ fc := c.step.offset, ev := wr }])) ∧
    (∀ (w : WriteUnit) (rest : List WriteUnit), k.writes = w :: rest → k.reads = [] → s.requestsBefore ch w.req w.entry = false →
      ∃ t : State, exec (.dsWritePerformed ch) s = .next t ∧
        let x := w.unit % shareUnits
        unitOf (t.channel ch) x = (w.data, w.bruise, .sound) ∧ (∀ y, y ≠ x → unitOf (t.channel ch) y = unitOf k y) ∧ (t.channel ch).writes = rest ∧
        (w.spill = false → ∃ j : JournalEntry, (t.channel ch).journal = k.journal ++ [j] ∧ j.unit = x ∧ j.data = k.data x ∧
          j.bruise = (if AMap.get .sound k.damage x = .uncorrectable then 0xFF else AMap.get 0 k.bruise x)) ∧
        (w.spill = true → (t.channel ch).journal = k.journal ∧ t.cores = s.cores))

/-- DEEP_STALL, DEEP_STALL_END, DS_REFRESH, DS_SCRUB and CHANNEL_ZERO_DONE answer a next state with the stall, count or units they name. On a channel of the grade. DEEP_STALL stalls an owned channel with a READ unit that has not reached it by its landing fc or with more than 512 writes waiting. DEEP_STALL_END, with room for the writes again, ends the stall, counts its periods in STALL and enters them in the plot's events. DS_REFRESH raises REFRESH by 1 with each 256th refresh. DS_SCRUB rewrites a correctable unit corrected, counted in CE; an uncorrectable one with all bruise bits set and its data as read, counted in UE and raised as SCRUB_BRUISE; a sound unit is left; a READ of the unit that was requested before takes it first, so that the READ meets the error and the scrub finds nothing. CHANNEL_ZERO_DONE leaves every byte of a released channel zero and every bruise bit clear, and the channel free. -/
def Obligations.DeepStoreUpkeep : Prop :=
  ∀ (s : State) (ch : ChanId), ch.toNat < s.grade.channels →
    let k := s.channel ch
    (k.owner.isSome = true → ((∃ u ∈ k.reads, u.land ≤ (s.core u.core).step.offset) ∨ 512 < k.writes.length) → exec (.deepStall ch) s = .next (s.setChannel ch { k with stalled := true })) ∧
    (k.stalled = true → k.writes.length ≤ 512 → ∀ periods : Nat,
      ∃ t : State, exec (.deepStallEnd ch periods) s = .next t ∧
        t.channel ch = { k with stalled := false, stalledInStep := true, stat.stall := satAdd k.stat.stall periods } ∧ t.cores = s.cores ∧
        (k.stalledInStep = false → ∃ ev : EventEntry, (t.plot (k.owner.getD 0)).run.events = (s.plot (k.owner.getD 0)).run.events ++ [ev] ∧ ev.code = 0x0004 ∧ ev.d0 = ch.setWidth 64 ∧ ev.d1 = BitVec.ofNat 64 periods)) ∧
    (∃ t : State, exec (.dsRefresh ch) s = .next t ∧
      t = s.setChannel ch { k with stat.refreshSub := (k.stat.refreshSub + 1) % 256, stat.refresh := if k.stat.refreshSub = 255 then satAdd k.stat.refresh 1 else k.stat.refresh }) ∧
    (∀ (u : Nat) (x : ReadUnit), k.reads = [x] → k.writes = [] → x.unit % shareUnits = u → x.taken = false → s.requestsBefore ch x.req x.entry = false → AMap.get .sound k.damage u = .uncorrectable →
      ∃ t : State, exec (.dsScrub ch u) s = .next t ∧ t.plots = s.plots ∧ t.hub = s.hub ∧ (t.channel ch).reads = [{ x with taken := true, data := k.data u, bruise := 0xFF, bad := true }]) ∧
    (∀ u : Nat, (∀ x ∈ k.reads, x.unit % shareUnits ≠ u) →
      (AMap.get .sound k.damage u = .sound → exec (.dsScrub ch u) s = .next (s.setChannel ch k)) ∧
      (AMap.get .sound k.damage u = .correctable →
        ∃ t : State, exec (.dsScrub ch u) s = .next t ∧ t.plots = s.plots ∧ t.hub = s.hub ∧
          unitOf (t.channel ch) u = (k.data u, AMap.get 0 k.bruise u, .sound) ∧ (∀ y, y ≠ u → unitOf (t.channel ch) y = unitOf k y) ∧ (t.channel ch).stat = { k.stat with ce := satAdd k.stat.ce 1 }) ∧
      (AMap.get .sound k.damage u = .uncorrectable →
        ∃ t : State, exec (.dsScrub ch u) s = .next t ∧
          unitOf (t.channel ch) u = (k.data u, 0xFF, .sound) ∧ (∀ y, y ≠ u → unitOf (t.channel ch) y = unitOf k y) ∧ (t.channel ch).stat = { k.stat with ue := satAdd k.stat.ue 1 } ∧
          (∀ fn : Fn, k.owner = some fn → ∃ ev : EventEntry, (t.plot fn).run.events = (s.plot fn).run.events ++ [ev] ∧ ev.code = 0x0002 ∧ ev.kind = 1) ∧
          (k.owner = none → ∃ r : Report, t.hub.faults.log.getLast? = some r ∧ r.code = 0x0002))) ∧
    (k.zeroing = true →
      ∃ t : State, exec (.channelZeroDone ch) s = .next t ∧ (t.channel ch).zeroing = false ∧ (∀ u, unitOf (t.channel ch) u = (0, 0, .sound)) ∧ (t.channel ch).owner = k.owner)

/-- CORE_ARRIVES, FIELD_ARRIVAL_REGISTERED, STEP_RELEASE and BELL_IN_EDGE answer a next state with the arrival, release or edge registered. A core whose streams have both stopped, with nothing in flight, no posted message of its own on its way and every commons request accepted, arrives in its present fc, once. When every core of a plot in a field has arrived the field is in, and with the plot's last field a plot of one module waits for its bell from then on. A release that reaches a field of a running plot lets that field's cores run, and changes no other plot. An edge reaches every domain whose polarity it has, of a group only at the domain root: a plot of one module in frame mode with an empty latch and its gaps clear takes it into the latch with its time, one that may not take it counts it as rejected, and one in free mode is unchanged. -/
def Obligations.CoresAndFieldsArrive : Prop :=
  (∀ (s : State) (cid : CoreId),
    let c := s.core cid
    Runs s cid → c.step.main.stopped = true → c.step.fill.stopped = true → c.step.haltAt = none → c.step.events = [] → c.traffic.sendQueue = [] → c.traffic.outbox = [] → s.postedOut cid = false →
    (∀ r ∈ (s.plot (c.owner.getD 0)).commons.requests, r.core = cid → r.accepted = true) → c.totals.arrived = false →
    exec (.coreArrives cid) s = .next (became s cid { c with totals.arrived := true, totals.arriveFc := c.step.offset })) ∧
  (∀ (s : State) (fn : Fn) (field : FieldId) (dh : Nat),
    let u := s.advance dh
    let p := u.plot fn
    let inn := p.step.fieldsIn ||| BitVec.ofNat 8 (2 ^ field.toNat)
    p.step.phase = .running → (∃ c ∈ p.cores, fieldOfCore c = field) → (∀ c ∈ p.cores, fieldOfCore c = field → (u.core c).totals.arrived = true) →
    (inn ≠ p.fieldMask → exec (.fieldArrivalRegistered fn field dh) s = .next (u.setPlot fn { p with step.fieldsIn := inn })) ∧
    (inn = p.fieldMask → p.group.joined = false →
      exec (.fieldArrivalRegistered fn field dh) s = .next (u.setPlot fn { p with step := { p.step with fieldsIn := inn, phase := .arrived, lastArrival := u.hub.time } }))) ∧
  (∀ (s : State) (fn : Fn) (field : FieldId), (s.plot fn).step.phase = .running → (∃ c ∈ (s.plot fn).cores, fieldOfCore c = field) →
    exec (.stepRelease fn field) s = .next (s.setPlot fn { s.plot fn with step.released := (s.plot fn).step.released ||| BitVec.ofNat 8 (2 ^ field.toNat) })) ∧
  (∀ (s : State) (falling : Bool) (dh : Nat),
    exec (.bellInEdge falling dh) s =
      .next ((s.advance dh).plotNumbers.foldl (fun (q : State) fn =>
        if (q.plot fn).bell.ctlUse.getLsbD 2 = falling ∧ ((q.plot fn).group.joined = false ∨ (q.plot fn).group.root = q.system.module) then q.plotEdge fn else q) (s.advance dh))) ∧
  (∀ (s : State) (fn : Fn),
    let p := s.plot fn
    let t := s.hub.time
    let gap := 1000 * (p.bell.ctlUse.extractLsb' 32 12).toNat
    let clear : Prop := (∀ e, p.bell.lastEdge = some e → e + gap ≤ t) ∧ (∀ e, p.bell.lastLate = some e → e + gap ≤ t) ∧ p.bell.latch = none ∧ p.step.holds.reference = false
    (p.bell.ctlUse.extractLsb' 0 2 ≠ 1 → s.plotEdge fn = s) ∧
    (p.bell.ctlUse.extractLsb' 0 2 = 1 → p.group.joined = false → p.step.windowFrom = none →
      (clear → s.plotEdge fn = s.setPlot fn { p with bell := { p.bell with lastEdge := some t, latch := some t, latchStamp := s.stamp } }) ∧
      (¬ clear → s.plotEdge fn = s.setPlot fn { p with bell := { p.bell with rejected := satAdd p.bell.rejected 1 } })))

/-- BELL_RINGS, BELL_INTERVAL_ELAPSED and SYNC_LATE commit the step of a plot of one module and raise its bell number by one. A plot of one module, running and unpaired, whose cores have all arrived, with nothing of its step still to land, no fault that abandons the attempt, no packet due at this bell, no core of it waiting for a remap, no commons request out of its turn, and this not its last bell. Where its bell may ring, or in frame mode the hold window ends with no edge accepted in it: the bell number rises by one, the attempt number is 0, and the working state of every core at the bell is its bell image, less what R345 resets and with the SNEXT and SOWN requests taken. Where besides no hold stands, at most six records wait for delivery, no stop awaits the bell and unsigned records are allowed, the next step is opened: it runs once released, every core at offset 0. -/
def Obligations.BellsCommitTheirStep : Prop :=
  ∀ (s : State) (fn : Fn) (dh : Nat) (row : Instr),
    let u := (s.advance dh).tryDomains
    let p := u.plot fn
    p.step.phase = .arrived → p.step.rung = false → p.group.joined = false → u.hub.faults.lockEnable = false → p.place.state = 3 → p.cores.Nodup →
    u.strandedFlits fn = [] → verdictOf (u.attemptReports fn) p.bell.attempt.toNat = .commit → u.testDue fn = false → u.quiet fn = true → u.commonsTurn fn = true → u.waitingCores (some fn) = [] → p.bell.bell ≠ 0xFFFFFFFFFFFE → u.duePackets fn (p.bell.bell + 1).toNat = [] →
    ((row = .bellRings fn dh ∨ row = .bellIntervalElapsed fn dh) ∧ p.mayRing u.hub.time = true ∨
      row = .syncLate fn dh ∧ p.bell.frame = true ∧ (∀ e, p.bell.latch = some e → p.step.moment + p.bell.window < e) ∧ p.step.moment + p.bell.window ≤ u.hub.time) →
    ∃ t : State, exec row s = .next t ∧ (t.plot fn).bell.bell = p.bell.bell + 1 ∧ (t.plot fn).bell.attempt = 0 ∧
      (∀ c ∈ p.cores, (t.core c).work = (u.core c).commitStep.work ∧ (t.core c).image = (u.core c).commitStep.work) ∧
      (u.hub.refs.holdover = false → u.hub.records.length ≤ 6 → u.backlogFull fn = false → (∀ f ∈ p.fieldList, (AMap.get {} u.fieldHold f).held = false) → p.step.holds.partner = false →
        p.step.stopAtBell = none → p.regs.requireSigned = false →
        (t.plot fn).step.phase = .running ∧ (t.plot fn).step.released = 0 ∧ ∀ c ∈ p.cores, (t.core c).step.offset = 0)

namespace Sys2Proof.Claims

open Sys2Proof.Machine

/-- No management packet is staged that was accepted since the first abandoned attempt of the step: one would take effect at a stop of the plot (R44). -/
def NoLatePackets (p : Plot) : Prop := ∀ st ∈ p.packets.staged, isMgmt st.type = true → ∀ since, p.step.retriedAt = some since → st.acceptedAt < since

end Sys2Proof.Claims

/-- STEP_ABANDON, RETRY_RELEASE and STEP_LIMIT answer a next state with the attempt undone, retried or stopped. STEP_ABANDON on a plot of one module in an attempt whose bell has not rung, with reports that retry it: every core's working state is its bell image again, what cannot be read of it bruised, every channel of the plot holds its journaled units again with nothing in flight, the commons requests are dropped, the plot waits, and its bell and attempt numbers stand. Where its reports stop it, with no management packet staged that was accepted since the step's first abandoned attempt: the same, with the plot in state 5 and the attempt number raised. RETRY_RELEASE on the waiting plot with no column test due and no class S report: the attempt number rises by 1, up to 255, the bell number stands, a core that waits for a remap is rebuilt from its bell image, and the plot runs again from offset 0 once released. STEP_LIMIT on a running plot of one module with no other report and no such management packet, a core of which has reached offset 0xFFFFFF without arriving: the plot stops with STOPCODE 0x200B and the working states of its opening bell. -/
def Obligations.AttemptsAreUndoneAndRetried : Prop :=
  (∀ (s : State) (fn : Fn) (dh : Nat),
    let u := s.advance dh
    let p := u.plot fn
    let undone (t : State) : Prop := (∀ c ∈ p.cores, (t.core c).work = (u.core c).image.heal ∧ (t.core c).image = (u.core c).image.heal ∧ (t.core c).step.events = []) ∧
      (∀ ch : ChanId, (u.channel ch).owner = some fn → t.channel ch = (u.channel ch).restoreStep) ∧ (t.plot fn).bell.bell = p.bell.bell
    p.group.joined = false → p.cores.Nodup → (p.step.phase = .running ∨ (p.step.phase = .arrived ∧ p.step.rung = false)) →
    (∀ k, verdictOf (u.attemptReports fn) p.bell.attempt.toNat = .retry k →
      ∃ t : State, exec (.stepAbandon fn dh) s = .next t ∧ undone t ∧ (t.plot fn).step.phase = .abandoned ∧ (t.plot fn).bell.attempt = p.bell.attempt ∧ (t.plot fn).commons.requests = []) ∧
    (∀ k, verdictOf (u.attemptReports fn) p.bell.attempt.toNat = .stop k → NoLatePackets p →
      ∃ t : State, exec (.stepAbandon fn dh) s = .next t ∧ undone t ∧ (t.plot fn).place.state = 5 ∧ (t.plot fn).bell.attempt = satAdd p.bell.attempt 1)) ∧
  (∀ (s : State) (fn : Fn) (dh : Nat),
    let u := s.advance dh
    let p := u.plot fn
    p.step.phase = .abandoned → u.testDue fn = false → (∀ r ∈ u.attemptReports fn, r.cls ≠ .system) → p.cores.Nodup →
    ∃ t : State, exec (.retryRelease fn dh) s = .next t ∧ (t.plot fn).bell.attempt = satAdd p.bell.attempt 1 ∧ (t.plot fn).bell.bell = p.bell.bell ∧ (t.plot fn).step.phase = .running ∧
      (t.plot fn).step.released = 0 ∧ ∀ c ∈ p.cores, (t.core c).step.offset = 0 ∧
        ((∀ w ∈ u.waitingCores (some fn), fieldCore w.1 w.2.1 w.2.2 ≠ c) → (t.core c).work = (u.core c).work) ∧
        ((∃ w ∈ u.waitingCores (some fn), fieldCore w.1 w.2.1 w.2.2 = c) → (t.core c).work = (u.core c).image.heal)) ∧
  (∀ (s : State) (fn : Fn), (s.plot fn).group.joined = false → NoLatePackets (s.plot fn) → (s.plot fn).cores.Nodup → (s.plot fn).step.phase = .running → s.attemptReports fn = [] →
    (∃ c ∈ (s.plot fn).cores, (s.core c).totals.arrived = false ∧ 0xFFFFFF ≤ (s.core c).step.offset) →
    ∃ t : State, exec (.stepLimit fn) s = .next t ∧ (t.plot fn).place.state = 5 ∧ (t.plot fn).faults.stopCode = 0x200B ∧ (t.plot fn).bell.bell = (s.plot fn).bell.bell ∧
      ∀ c ∈ (s.plot fn).cores, (t.core c).work = (s.core c).image.heal)

/-- IDLE_BELL and EMPTY_BELL answer a next state with the bell number moved on and the packets that were due in effect. IDLE_BELL at or past the idle domain's next grid point, with no packet due and no start-up plot to come back: the idle bell number rises by one and the repairs that wait for it are made; with no repair waiting and no plot stopped nothing else changes. EMPTY_BELL on a plot of one module in state 1 or 2 that may ring, this not its last bell: with no packet due nothing rings; with one NOP due, the plot's bell number rises by one, the packet leaves the staging area and its COMPLETION, code 0, joins the submitting function's backlog unless it is QUIET; with one BUDGET due that the plot's floor and state allow, the plot's budget is the one it names. That a bell without effects leaves its number one above it is the model's reading (log entry 32). -/
def Obligations.EmptyAndIdleBellsTakePackets : Prop :=
  (∀ (s : State) (dh : Nat),
    let u := s.advance dh
    u.hub.boot.bellZero = true → u.hub.boot.zeroAt + 2000 * (u.hub.idleBell.toNat + 1) ≤ u.hub.time → u.hub.idleStaged = [] → u.hub.boot.reload = false →
    let v : State := { u with hub := { u.hub with idleBell := u.hub.idleBell + 1 } }
    exec (.idleBell dh) s = .next v.idleChanges ∧
    ((∀ fn ∈ u.plotNumbers, (u.plot fn).place.state ≠ 5) → (∀ f ∈ u.fields, (∀ r ∈ f.2.rows, r.2.serving = []) ∧ ∀ a ∈ f.2.arrays, a.2.next = none) → (∀ e ∈ u.edges, e.2.next = []) →
      exec (.idleBell dh) s = .next v)) ∧
  (∀ (s : State) (fn : Fn) (dh : Nat),
    let u := s.advance dh
    let p := u.plot fn
    let due := u.duePackets fn p.bell.bell.toNat
    u.mayEmptyRing fn = true → p.group.joined = false → p.bell.bell ≠ 0xFFFFFFFFFFFF →
    (due = [] → exec (.emptyBell fn dh) s = .next u) ∧
    (∀ st : Staged, due = [st] → st.type = 1 → st.p.plot = fn →
      ∃ t : State, exec (.emptyBell fn dh) s = .next t ∧ (t.plot fn).bell.bell = p.bell.bell + 1 ∧ (t.plot fn).place = p.place ∧ st ∉ (t.plot fn).packets.staged ∧
        (st.p.flags.getLsbD 2 = true → (t.plot st.p.fn).packets.completions = (u.plot st.p.fn).packets.completions) ∧
        (st.p.flags.getLsbD 2 = false → ∃ d : DevPacket, (t.plot st.p.fn).packets.completions = (u.plot st.p.fn).packets.completions ++ [d] ∧ d.type = 0x81 ∧ d.tag = st.p.tag ∧ d.bell = p.bell.bell ∧
          d.param.extractLsb' 0 16 = 0)) ∧
    (∀ st : Staged, due = [st] → st.type = 0x26 → st.p.plot = fn → u.floorMw fn ≤ 100 * (st.p.param.extractLsb' 0 16).toNat →
      ∃ t : State, exec (.emptyBell fn dh) s = .next t ∧ (t.plot fn).clock.budget = st.p.param.extractLsb' 0 16 ∧ (t.plot fn).place = p.place))

/-- DROOP_TRIP, DROOP_RECOVERY, DROOP_FLOOR, DROOP_CEILING_RESTORE and VSET_SETTLED answer a next state with the field's oscillator and ceiling changed. DROOP_TRIP slows a field's oscillator and counts it, once until DROOP_RECOVERY ends it. DROOP_FLOOR on a tripped field counts it, lowers the droop limit to 100 MHz below the ceiling, 1,100 MHz at least, until 1,024 idle bells on, and gives each plot of the field in an attempt a DROOP_FLOOR report and event, or with none there the reeve's log a report; the ceiling falls at once to the lowest limit, in a field with a plot inside a step to the lowest of those of droop, stack and temperature. DROOP_CEILING_RESTORE, once that idle bell has come, raises the limit by 100 MHz, to 1,600 at most, and waits for 1,024 idle bells more. VSET_SETTLED gives each field whose ceiling waits to rise its new ceiling, its lowest limit at most, at once where no plot of the field is inside a step; elsewhere the settled rise is kept for that plot's bell. -/
def Obligations.FieldClocksFollowTheirLimits : Prop :=
  (∀ (s : State) (field : FieldId),
    let f := s.field field
    (f.tripped = false → exec (.droopTrip field) s = .next (s.setField field { f with tripped := true, droops := satAdd f.droops 1 })) ∧
    (f.tripped = true → exec (.droopTrip field) s = .next s) ∧
    exec (.droopRecovery field) s = .next (s.setField field { f with tripped := false }) ∧
    (f.tripped = true →
      ∃ t : State, exec (.droopFloor field) s = .next t ∧ (t.field field).floors = satAdd f.floors 1 ∧ (t.field field).droopCeil.toNat = max 1100 (f.ceiling.toNat - 100) ∧
        (t.field field).restoreBells = s.hub.idleBell.toNat + 1024 ∧ (t.field field).ceiling.toNat = min f.ceiling.toNat (if s.stepsIn field then (t.field field).urgent else (t.field field).limit) ∧
        ((∀ fn ∈ s.plotsIn field, (s.plot fn).step.attempting = false) → t.hub.faults.logLast = 0x4004) ∧
        ∀ fn ∈ s.plotsIn field, (s.plot fn).step.attempting = true →
          (∃ r ∈ (t.plot fn).faults.attemptReports, r.code = 0x4004 ∧ r.bell = (s.plot fn).bell.bell) ∧ ∃ e ∈ (t.plot fn).run.events, e.code = 0x4004 ∧ e.d0 = BitVec.ofNat 64 (2 ^ field.toNat)) ∧
    (f.droopCeil ≠ 1600 → f.restoreBells ≤ s.hub.idleBell.toNat →
      ∃ t : State, exec (.droopCeilingRestore field) s = .next t ∧ (t.field field).droopCeil.toNat = min 1600 (f.droopCeil.toNat + 100) ∧ (t.field field).restoreBells = f.restoreBells + 1024)) ∧
  (∀ s : State, (s.hub.power.pendingRise.map (·.1)).Nodup →
    ∃ t : State, exec .vsetSettled s = .next t ∧ t.hub.power.pendingRise = [] ∧
      ∀ f : FieldId,
        let k := s.field f
        (∀ v, AMap.find s.hub.power.pendingRise f.toNat = some v →
          (s.stepsIn f = false → t.field f = { k with ceiling := BitVec.ofNat 11 (min (max k.ceiling.toNat v.toNat) k.limit) }) ∧
          (s.stepsIn f = true → t.field f = k ∧ AMap.find t.hub.power.settledRise f.toNat = some v)) ∧
        (AMap.find s.hub.power.pendingRise f.toNat = none → AMap.find s.hub.power.settledRise f.toNat = none → t.field f = k))

/-- SYSREF_LOSS, SYSREF_RELOCK, HOLDOVER_EXPIRY, PCIE_REFCLK_LOSS and PCIE_REFCLK_RELOCK answer a next state with the reference's status. SYSREF_LOSS after phase 0 begins holdover, counts the loss, asserts FAULT_N and reports REF_LOSS in the reeve's log and on the management bus. SYSREF_RELOCK ends holdover, and FAULT_N stays only for a loss of the host reference; the plots held for it are released, in free mode at once. HOLDOVER_EXPIRY 10 ms after the loss brings every optical port that is in use down, and a running plot of a group is to stop at its next bell. PCIE_REFCLK_LOSS counts the loss, takes the host link down and reports REF_LOSS; PCIE_REFCLK_RELOCK marks the reference good again. Steps go on in each. -/
def Obligations.ReferencesAreWatched : Prop :=
  ∀ (s : State) (dh : Nat),
    let u := s.advance dh
    let r := u.hub.refs
    (u.hub.boot.phase ≠ 0 → r.holdover = false →
      ∃ t : State, exec (.sysrefLoss dh) s = .next t ∧ t.hub.refs = { r with sysrefOk := false, holdover := true, sysrefLosses := satAdd r.sysrefLosses 1, lostAt := u.hub.time, faultN := true } ∧
        t.hub.i3c.ibi = u.hub.i3c.ibi ++ [0x4001] ∧ t.hub.faults.logLast = 0x4001 ∧ t.plots = u.plots) ∧
    exec (.sysrefRelock dh) s =
      .next (let v : State := { u with hub := { u.hub with refs := { r with sysrefOk := true, holdover := false, faultN := if r.holdover then r.pcieLost else r.faultN } } }
        if r.holdover then v.plotNumbers.foldl State.relockPlot v else v) ∧
    (r.holdover = true → r.lostAt + 10000000 ≤ u.hub.time → (∀ fn ∈ u.plotNumbers, (u.plot fn).step.phase = .held → (u.plot fn).step.retriedAt = none) →
      ∃ t : State, exec (.holdoverExpiry dh) s = .next t ∧ (∀ k : PortId, (t.port k).state = if (u.port k).state = 0 then 0 else 3) ∧
        ∀ fn ∈ u.plotNumbers, (u.plot fn).group.joined = true → (u.plot fn).place.state = 3 → (u.plot fn).step.phase ≠ .held → ∃ q : Report, (t.plot fn).step.stopAtBell = some q ∧ q.code = 0x3006) ∧
    (r.pcieOk = true →
      ∃ t : State, exec (.pcieRefclkLoss dh) s = .next t ∧ t.hub.refs = { r with pcieOk := false, pcieLosses := satAdd r.pcieLosses 1, faultN := true, pcieLost := true } ∧ t.hub.pins.pcieUp = false ∧
        t.hub.i3c.ibi = u.hub.i3c.ibi ++ [0x4001] ∧ t.plots = u.plots) ∧
    exec (.pcieRefclkRelock dh) s = .next { u with hub := { u.hub with refs := { r with pcieOk := true, faultN := r.holdover, pcieLost := false } } }


namespace Sys2Proof.Claims

open Sys2Proof.Machine

/-! ### Failures of the part -/

/-- The row map after physical column f failed with the spare g: f is cleared and marked, g is enabled (R31). -/
def Spared (r r2 : RowMap) (f g : Nat) : Prop :=
  (∀ j < 36, r2.enable.getLsbD j = if j = f then false else if j = g then true else r.enable.getLsbD j) ∧ (∀ j < 36, r2.bad.getLsbD j = (r.bad.getLsbD j || j == f)) ∧ r2.live = satAdd r.live 1

/-- Physical column `g` is the lowest healthy spare above `f` in the row (R31). -/
def NextSpare (r : RowMap) (f g : Nat) : Prop :=
  f < g ∧ g < 36 ∧ r.bad.getLsbD g = false ∧ r.enable.getLsbD g = false ∧ ∀ h, f < h → h < g → r.bad.getLsbD h = true ∨ r.enable.getLsbD h = true

end Sys2Proof.Claims

/-- CORE_LOST, POWER_DOMAIN_FAULT, LOGIC_CHECK_EVENT and BRIDGE_LINK_FAILURE answer a next state with the spare in service. CORE_LOST and POWER_DOMAIN_FAULT on a core whose physical column f is healthy and has a healthy spare east of it: the row enables the lowest such spare for f and no other bit changes, f is marked bad, f still serves the core until its plot's next bell or restart where the plot is not repaired at once, and CORE_LOST is reported with the row's new mask. LOGIC_CHECK_EVENT that no other preceded within 1,024 bells of the core's domain reports CORE_LOST with D1 0 and marks nothing; a second one within them fails the core in the same way as CORE_LOST. BRIDGE_LINK_FAILURE on a healthy link that serves nothing and is to serve nothing only marks it bad and reports LINK_DOWN; on one for logical link k, with a healthy spare that serves nothing, the lowest such spare is to serve k from the next bell or restart. -/
def Obligations.FailedPartsAreReplaced : Prop :=
  (∀ (s : State) (c : CoreId) (cause : LostCause) (g : Nat),
    let f := s.physOf c
    let r := s.rowMap c
    s.hasCore c = true → f < 36 → r.bad.getLsbD f = false → NextSpare r f g →
    ∀ row : Instr, (row = .coreLost c cause ∨ row = .powerDomainFault c) →
      ∃ r2 : RowMap, Spared r r2 f g ∧ r2.serving = r.serving ∧ ((∀ fn, (s.core c).owner = some fn → (s.plot fn).repairsNow = false) → (s.remapRow (fieldOfCore c) (rowOf c % 16) r2).physOf c = f) ∧
        exec row s = .next ((s.remapRow (fieldOfCore c) (rowOf c % 16) r2).partReport c (s.core c).owner false 0x3002 (s.coreLostD0 c) (r2.enable.setWidth 64) (s.faultOffset c))) ∧
  (∀ (s : State) (c : CoreId),
    let k := s.physCore c
    let now := s.bellsOf c
    let u := s.setPhysCore c { k with lastLogic := some ((s.core c).owner, now) }
    let again : Prop := ∃ b, k.lastLogic = some ((s.core c).owner, b) ∧ b ≤ now ∧ now ≤ b + 1024
    s.hasCore c = true →
    (¬ again → exec (.logicCheckEvent c) s = .next (u.partReport c (s.core c).owner false 0x3002 (s.coreLostD0 c) 0 (s.faultOffset c))) ∧
    (again → exec (.logicCheckEvent c) s = exec (.coreLost c .heartbeat) u)) ∧
  (∀ (s : State) (field : FieldId) (side : BitVec 2) (link : BitVec 6) (e : Nat),
    let g := AMap.get {} s.edges e
    edgeNumber field side = some e → link.toNat < 36 → g.bad.getLsbD link.toNat = false →
    ((∀ k < 32, g.planned k ≠ link.toNat) →
      exec (.bridgeLinkFailure field side link) s =
        .next (({ s with edges := AMap.put {} s.edges e { g with bad := g.bad ||| BitVec.ofNat 36 (2 ^ link.toNat) } } : State).partReport 0 none true 0x3006 (BitVec.ofNat 64 (field.toNat + 8 * side.toNat)) (link.setWidth 64) none)) ∧
    (∀ k i : Nat, k < 32 → g.planned k = link.toNat → (∀ q < k, g.planned q ≠ link.toNat) → 32 ≤ i → i < 36 → i ≠ link.toNat → g.bad.getLsbD i = false → (∀ l ∈ g.serves ++ g.next, l.2 ≠ i) →
      (∀ q, 32 ≤ q → q < i → q = link.toNat ∨ g.bad.getLsbD q = true ∨ ∃ l ∈ g.serves ++ g.next, l.2 = q) → (∀ fn ∈ s.linkPlots e k, (s.plot fn).repairsNow = false) →
      ∃ t : State, exec (.bridgeLinkFailure field side link) s = .next t ∧ AMap.get {} t.edges e = { g with bad := g.bad ||| BitVec.ofNat 36 (2 ^ link.toNat), next := AMap.set g.next k i } ∧
        (s.linkPlots e k = [] → t.hub.faults.logLast = 0x3006)))

/-- IMAGE_SCRUB_PASS, LASER_AGEING and LOCKSTEP_DIGEST_RECEIVED answer a next state with the pass, the second or the exchange recorded. IMAGE_SCRUB_PASS over a block that matches its signature records the bell as the block's clean bell; a mismatch on a block that was not reloaded, or not within the three passes before, reports SIG_MISMATCH with object, block and clean bell and reloads it, and where the copy it is reloaded from is uncorrectable DEEP_UE as well. LASER_AGEING reads the second's corrected symbols of every lane of the port into CORR, 24 bits at most, starts the next second, and marks and reports LASER_AGEING once for each lane above THRESH. LOCKSTEP_DIGEST_RECEIVED in a module that is paired keeps the exchange with the plot; with the plot's bell rung the two digests are judged, unless the plot's commons requests would commit out of their turn in this hub cycle, and a plot held for its partner goes on or stops with it; in a module that is not paired it changes nothing. -/
def Obligations.ImagesLasersAndPartnersAreChecked : Prop :=
  (∀ (s : State) (c : CoreId) (object : BitVec 4) (block : BitVec 12) (copyBad : Bool),
    let k := s.core c
    let key := 4096 * object.toNat + block.toNat
    s.hasCore c = true →
    (∃ t : State, exec (.imageScrubPass c object block false copyBad) s = .next t ∧ AMap.find (t.core c).tables.cleanBell key = some (s.bellOf c) ∧ (t.core c).work = k.work ∧
      (∀ n, AMap.find k.tables.passesSinceReload key = some n → AMap.find (t.core c).tables.passesSinceReload key = some (n + 1))) ∧
    ((∀ n, AMap.find k.tables.passesSinceReload key = some n → 3 ≤ n) →
      exec (.imageScrubPass c object block true copyBad) s =
        .next
          (let u := (s.setCore c { k with tables.passesSinceReload := AMap.set k.tables.passesSinceReload key 0 }).partReport c k.owner (object == 7) 0x3004
            (BitVec.ofNat 64 (object.toNat + 16 * block.toNat)) ((AMap.get 0 k.tables.cleanBell key).setWidth 64) (s.faultOffset c)
           if copyBad then u.partReport c k.owner true 0x3005 (BitVec.ofNat 64 (2 ^ 63)) 0 (s.faultOffset c) else u))) ∧
  (∀ (s : State) (port : PortId),
    let p := s.port port
    ∃ t : State, exec (.laserAgeing port) s = .next t ∧
      (∀ k < 9, (AMap.get {} (t.port port).lanes k).corr.toNat = min (AMap.get {} p.lanes k).corrNow (2 ^ 24 - 1) ∧ (AMap.get {} (t.port port).lanes k).corrNow = 0) ∧
      (∀ k < 9, (t.port port).overCount.getLsbD k = (p.overCount.getLsbD k || decide (p.thresh.toNat < (AMap.get {} p.lanes k).corrNow))) ∧
      ((∃ k < 9, p.overCount.getLsbD k = false ∧ p.thresh.toNat < (AMap.get {} p.lanes k).corrNow) → t.hub.faults.logLast = 0x4007) ∧
      ((∀ k < 9, p.overCount.getLsbD k = true ∨ (AMap.get {} p.lanes k).corrNow ≤ p.thresh.toNat) → t.hub = s.hub)) ∧
  (∀ (s : State) (fn : Fn) (x : LockstepExchange),
    let u := s.setPlot fn { s.plot fn with step.partner := some x }
    (s.hub.faults.lockEnable = false → exec (.lockstepDigestReceived fn x) s = .next s) ∧
    ((s.plot fn).step.rung = true → s.commonsTurn fn = false → exec (.lockstepDigestReceived fn x) s = .next s) ∧
    (s.hub.faults.lockEnable = true → (s.plot fn).step.rung = true → s.commonsTurn fn = true → exec (.lockstepDigestReceived fn x) s = .next (u.compare fn)) ∧
    (s.hub.faults.lockEnable = true → (s.plot fn).step.rung = false → (s.plot fn).step.phase = .held →
      exec (.lockstepDigestReceived fn x) s = .next (match x with | .stopped _ => u.divergeHere fn | _ => (u.meetPartner fn).releaseHeld fn)) ∧
    (s.hub.faults.lockEnable = true → (s.plot fn).step.rung = false → (s.plot fn).step.phase ≠ .held → exec (.lockstepDigestReceived fn x) s = .next u))

/-- The seven commands of optical lanes and training answer a next state with the new state of the lane or port. The rows are CODEWORD_RECEIVED, NAK_RECEIVED, ACK_RECEIVED, SPARE_LANE_TRAINED, LINK_TRAINING, LINKS_DONE and OPTICAL_LINK_DOWN. On a physical lane from 0 to 8. A codeword with at most 15 symbol errors is corrected, its errors counted, and taken when it is in sequence or none is being discarded; one with more is counted as uncorrectable, a NAK is due for the first of them, and codewords are discarded until it comes again. A NAK starts a replay and counts its codewords; the eighth failed replay of one SEQ marks the lane failed and has the spare trained where the port has it. An ACK at or past the SEQ of a replay ends it. A trained spare serves the failed lane's number. A port that trains holds its neighbour's numbers, all lanes on their own numbers, its counts kept, and takes its role once the module has its number: state 2 for a tree link or a direct link that R514 admits, else state 3; a port that does not train is down. LINKS_DONE gives the module its number and depth. A port that goes down with no group and no pair on it is logged as LINK_DOWN. -/
def Obligations.LanesCorrectAndReplay : Prop :=
  (∀ (s : State) (port : PortId) (lane : BitVec 4) (q : BitVec 12) (n : Nat), lane.toNat ≤ 8 →
    let p := s.port port
    let l := AMap.get {} p.lanes lane.toNat
    (n ≤ 15 → (l.discarding = false ∨ q = l.recvSeq) →
      exec (.codewordReceived port lane q n) s = .next (s.setLane port lane { l with corrNow := l.corrNow + n, recvSeq := q + 1, discarding := false, nakDue := none })) ∧
    (n ≤ 15 → l.discarding = true → q ≠ l.recvSeq → exec (.codewordReceived port lane q n) s = .next (s.setLane port lane { l with corrNow := l.corrNow + n })) ∧
    (15 < n →
      exec (.codewordReceived port lane q n) s =
        .next (s.setLane port lane { l with uncorr := satAdd l.uncorr 1, discarding := true, nakDue := if l.discarding = false ∨ q = l.recvSeq then some q else l.nakDue })) ∧
    ((l.retryFrom ≠ some q ∨ l.replays < 8) →
      exec (.nakReceived port lane q n) s =
        .next (s.setLane port lane { l with retryFrom := some q, replays := if l.retryFrom = some q then l.replays + 1 else 1, replay := satAdd l.replay (min n 256) })) ∧
    (l.retryFrom = some q → 8 ≤ l.replays → p.spareIn = false → p.spareTraining = none →
      ∃ t : State, exec (.nakReceived port lane q n) s = .next t ∧ (t.port port).spareTraining = some lane ∧ (AMap.get {} (t.port port).lanes lane.toNat).failed = true ∧ (t.port port).state = p.state) ∧
    (∀ r, l.retryFrom = some r → (q - r).toNat < 2048 → exec (.ackReceived port lane q) s = .next (s.setLane port lane { l with ackSeq := q + 1, retryFrom := none, replays := 0 })) ∧
    (l.retryFrom = none → ∃ t : State, exec (.ackReceived port lane q) s = .next t ∧ t = s.setLane port lane { l with ackSeq := q + 1 })) ∧
  (∀ (s : State) (port : PortId) (k : BitVec 4), (s.port port).spareTraining = some k →
    exec (.spareLaneTrained port true) s = .next (s.setPort port { s.port port with failedLane := k, spareIn := true, spareTraining := none })) ∧
  (∀ (s : State) (port : PortId) (r : TrainResult),
    let pair : Prop := s.hub.faults.lockEnable = true ∧ port = s.hub.faults.lockPort
    let role := linkRole s.system.module port r.neighbour r.nport
    (r.ok = false → exec (.linkTraining port r) s = .next (s.setPort port { s.port port with state := 3 })) ∧
    (r.ok = true → ((s.port port).lanes.map (·.1)).Nodup → ∃ t : State, exec (.linkTraining port r) s = .next t ∧ (t.port port).neighbour = r.neighbour ∧ (t.port port).nport = r.nport ∧ (t.port port).delay = r.delay ∧
      (t.port port).failedLane = 0xF ∧ (t.port port).spareIn = false ∧
      (∀ k, (AMap.get {} (t.port port).lanes k).failed = false ∧ (AMap.get {} (t.port port).lanes k).uncorr = (AMap.get {} (s.port port).lanes k).uncorr) ∧
      (pair → (t.port port).state = if r.neighbour = s.hub.faults.partner ∧ r.namesUs = true ∧ r.nport = port then 4 else 3) ∧
      (¬ pair → s.hub.boot.linked = false → (t.port port).state = 1) ∧
      (¬ pair → s.hub.boot.linked = true → (role = 3 ∨ (role ≠ 0 ∧ r.delay.toNat ≤ 960)) → (t.port port).state = 2 ∧ (t.port port).role = role) ∧
      (¬ pair → s.hub.boot.linked = true → (role = 0 ∨ (role ≠ 3 ∧ 960 < r.delay.toNat)) → (t.port port).state = 3 ∧ t.hub.faults.logLast = 0x3006))) ∧
  (∀ (s : State) (r : LinksResult), s.testing = true → s.hub.boot.linked = false → r.ok = true →
    ∃ t : State, exec (.linksDone r) s = .next t ∧ t.system.module = (if s.system.root || !r.lit then 0 else r.module) ∧ t.system.depth = BitVec.ofNat 3 (depthOf t.system.module) ∧
      t.system.standalone = (!s.system.root && !r.lit) ∧ t.hub.boot.linked = true ∧ (s.hub.boot.fieldTested = true → t.hub.boot.phase = 6)) ∧
  (∀ (s : State) (port : PortId), s.portGroups port = [] → (s.hub.faults.lockEnable = false ∨ port ≠ s.hub.faults.lockPort) →
    ∃ t : State, exec (.opticalLinkDown port) s = .next t ∧ (t.port port).state = 3 ∧ t.plots = s.plots ∧ t.hub.faults.logLast = 0x3006)

/-- The fourteen commands of bell words, joins and gates answer a next state with the word taken and its effect. The rows are BELL_FRAME_RECEIVED, SYNC, ARRIVE, EDGE, RING, HALT, STOP, CONTROL, BELL_EPOCH, JOIN_CONFIRMED, JOIN_TIMEOUT, TRANSIT_FLIT, GATE_RELEASE and CREDIT_RETURN. A good bell frame's word waits at its port. A word of its kind that waits there leaves the queue: SYNC from the parent takes up the correction, with SKEW set above 1 hc, and from a child is answered with the module's time; ARRIVE registers the child's subtree; EDGE goes toward the root, or acts at it; RING of group 0xFF goes to every child and sets the epoch of bell zero while that has not rung, RING of a group goes down its branches and sets the epoch of the group's plot here; HALT from the parent discards the running attempt of the group's plot, which waits; STOP from the parent stops the group's plot that stands at the bell it names, where no management packet is staged that takes effect at the stop; CONTROL from the parent goes down and is kept for the members' next bell. BELL_EPOCH, once system time has reached it, joins a plot whose join is confirmed, with bell number 0 and its COMPLETION. JOIN_CONFIRMED at a member marks its join; JOIN_TIMEOUT refuses one that is not confirmed with SIZE_UNAVAILABLE. A flit in transit for another module leaves the module. A flit at its gate enters the mesh at its earliest receive plus CROSS, in the first fc from there on that the gate has not used. CREDIT_RETURN adds credit, to 512 at most. -/
def Obligations.BellWordsAndGatesAct : Prop :=
  (∀ (s : State) (port : PortId) (w : Word), (s.port port).bellIn.length < 64 →
    exec (.bellFrameReceived port w true) s = .next (s.setPort port { s.port port with bellIn := (s.port port).bellIn ++ [w] })) ∧
  (∀ (s : State) (port : PortId) (w : Word),
    let p := s.port port
    let u := s.setPort port { p with bellIn := p.bellIn.erase w }
    let g : BitVec 8 := w.extractLsb' 4 8
    let kind (n : BitVec 4) : Prop := w.extractLsb' 0 4 = n
    w ∈ p.bellIn →
    (∀ correction : Int, kind 0 →
      (p.role = 1 → exec (.sync port w correction) s =
        .next (({ u with system := { u.system with slew := correction } } : State).setPort port { u.port port with skew := p.skew || decide (8 < correction.natAbs) })) ∧
      (p.role = 2 → exec (.sync port w correction) s = .next (u.sendWord port (bellWord 0 0xFF 0 u.system.stime.toNat)))) ∧
    (kind 1 →
      let key := (g, w.extractLsb' 12 12, port)
      exec (.arrive port w) s =
        .next (({ u with system := { u.system with arrivedWords := if key ∈ u.system.arrivedWords then u.system.arrivedWords else u.system.arrivedWords ++ [key] } } : State).afterArrival g (w.extractLsb' 12 12).toNat)) ∧
    (kind 2 →
      (s.system.root = false → exec (.edge port w) s = .next (u.sendWord 0 w)) ∧
      (s.system.root = true → exec (.edge port w) s = .next (u.groupEdge g (w.extractLsb' 12 12).toNat (nearestTime u.system.stime.toNat (w.extractLsb' 24 40).toNat)))) ∧
    (kind 3 →
      let e := nearestTime u.system.stime.toNat (w.extractLsb' 24 40).toNat
      (g = 0xFF → s.hub.boot.bellZero = false → exec (.ring port w) s = .next (({ u with system := { u.system with ringFrom := some e } } : State).sendAll w)) ∧
      (g ≠ 0xFF → ∃ t : State, exec (.ring port w) s = .next t ∧ (∀ fn, s.groupPlot g = some fn → (t.plot fn).step.epoch = some e) ∧
        ∀ a ∈ t.system.arrivedWords, a.1 = g → a.2.1 ≠ w.extractLsb' 12 12)) ∧
    (kind 4 → p.role = 1 → ∀ fn, s.groupPlot g = some fn → (s.plot fn).step.attempting = true → (s.plot fn).cores.Nodup →
      ∃ t : State, exec (.halt port w) s = .next t ∧ (t.plot fn).step.phase = .abandoned ∧ (t.plot fn).bell.bell = (s.plot fn).bell.bell ∧ ∀ c ∈ (s.plot fn).cores, (t.core c).work = (s.core c).image.heal) ∧
    (kind 5 → p.role = 1 → ∀ fn, s.groupPlot g = some fn → (s.plot fn).place.state = 3 → NoLatePackets (s.plot fn) → (s.plot fn).bell.bell.toNat % 4096 = (w.extractLsb' 12 12).toNat →
      ∃ t : State, exec (.stop port w) s = .next t ∧ (t.plot fn).place.state = 5 ∧ (t.plot fn).bell.bell = (s.plot fn).bell.bell) ∧
    (kind 6 → p.role = 1 →
      ∃ t : State, exec (.control port w) s = .next t ∧ t.plots = s.plots ∧
        t.system.control = if (s.groupPlot g).isSome then s.system.control ++ [(g, w.extractLsb' 24 40)] else s.system.control)) ∧
  (∀ (s : State) (fn : Fn) (dh e : Nat) (st : Staged),
    let u := s.advance dh
    (u.plot fn).step.epoch = some e → e ≤ u.system.stime.toNat → (u.plot fn).group.joining = some st →
    ∃ t : State, exec (.bellEpoch fn dh) s = .next t ∧ (t.plot fn).group.joined = true ∧ (t.plot fn).bell.bell = 0 ∧ (t.plot fn).step.lastBell = u.hub.time ∧
      (st.p.flags.getLsbD 2 = false → ∃ d : DevPacket, (t.plot st.p.fn).packets.completions = (u.plot st.p.fn).packets.completions ++ [d] ∧ d.type = 0x81 ∧ d.tag = st.p.tag)) ∧
  (∀ (s : State) (g : BitVec 8), s.system.root = false →
    ∃ t : State, exec (.joinConfirmed g) s = .next t ∧ ∀ fn ∈ s.joiners g, (t.plot fn).group.confirmed = true) ∧
  (∀ (s : State) (g : BitVec 8) (fn : Fn) (st : Staged), s.joiners g = [fn] → (s.plot fn).group.joining = some st → (s.plot fn).group.confirmed = false →
    ∃ t : State, exec (.joinTimeout g) s = .next t ∧ (t.plot fn).group = {} ∧ (t.plot st.p.fn).host.errCode = 0x100B ∧ ∀ j ∈ t.system.joins, j.groupId ≠ g) ∧
  (∀ (s : State) (n : Nat) (f : Flit), AMap.find s.mesh.flits n = some f → f.stage = .transit → s.leaves f = true → exec (.transitFlit n) s = .next (s.dropFlit n)) ∧
  (∀ (s : State) (gate : CoreId) (n periods sent : Nat) (f : Flit),
    let r := earliestReceive sent + (s.plot f.fn).group.cross.toNat
    s.hasCore gate = true → AMap.find s.mesh.flits n = some f → f.stage = .gate sent → s.leaves f = false → f.router = gate →
    ∃ (t : State) (fc : Nat), exec (.gateRelease gate n periods) s = .next t ∧ r ≤ fc ∧ (gate.toNat, fc) ∉ s.system.gateUse ∧ (∀ q, r ≤ q → q < fc → (gate.toNat, q) ∈ s.system.gateUse) ∧
      AMap.find t.mesh.flits n = some { f with stage := .router, inPort := if colOf gate = 0 then 3 else 1, ready := fc, arrived := fc } ∧ (gate.toNat, fc) ∈ t.system.gateUse) ∧
  (∀ (s : State) (gate : CoreId) (n periods : Nat), s.hasCore gate = true →
    ∃ t : State, exec (.creditReturn gate n periods) s = .next t ∧ AMap.get 512 t.system.credits gate.toNat = min 512 (AMap.get 512 s.system.credits gate.toNat + n))

/-- The nine commands of start-up answer a next state with the phase that follows. The rows are RESET_PHASE_DONE, HUB_TEST_DONE, KEYS_DONE, FLASH_PHASE_DONE, FIELD_TEST_DONE, LOAD_PHASE_DONE, LOADED_N_RISE, LOADED_N_FALL and BELL_ZERO. With power good and no failure. Phase 0 ends with the references good and the controller out of reset where PERST_N and the host reference allow. A hub test that passes ends phase 1, one that fails halts the module there. Phase 2 ends with JTAG locked. Phase 3 ends with the newer valid boot header's catalogue and configuration in use. The field test ends phase 4: with no finding the module goes to phase 5, or 6 once its links are done, with LIVE counts 0 and deep store cleared. Phase 6 ends in phase 7 with LOADED_N released, unless a start-up plot failed under LOADED_POLICY, which halts the module. The line risen in phase 7 is taken once; a fall before that restarts the count. Bell zero of a module in no system, the line risen: phase 8, idle bell number 0, BOOT_MS the ms since phase 0. -/
def Obligations.StartUpRunsThroughItsPhases : Prop :=
  ∀ s : State, s.hub.pins.pwrOk = true → s.hub.pins.powerLatched = false → s.hub.boot.failed = false →
    (s.hub.boot.phase = 0 →
      ∃ t : State, exec .resetPhaseDone s = .next t ∧ t.hub.boot.phase = 1 ∧ t.hub.refs.sysrefOk = true ∧ t.hub.pins.pcieUp = (s.hub.pins.perstN && s.hub.refs.pcieOk) ∧ t.plots = s.plots) ∧
    (s.hub.boot.phase = 1 →
      exec (.hubTestDone true) s = .next { s with hub := { s.hub with boot := { s.hub.boot with phase := 2 } } } ∧
      exec (.hubTestDone false) s = .next { s with hub := { s.hub with boot := { s.hub.boot with failed := true } } }) ∧
    (s.hub.boot.phase = 2 → exec .keysDone s = .next { s with hub := { s.hub with boot := { s.hub.boot with phase := 3 }, jtag := { s.hub.jtag with isOpen := false } } }) ∧
    (s.hub.boot.phase = 3 →
      ∃ t : State, exec .flashPhaseDone s = .next t ∧ t.hub.boot.phase = 4 ∧
        (∀ b, newerCopy (s.hub.flash.headerGen false) (s.hub.flash.headerGen true) = some b → t.hub.boot.headerB = b ∧ t.hub.flash.generation = BitVec.ofNat 32 ((s.hub.flash.headerGen b).getD 0)) ∧
        (newerCopy (s.hub.flash.headerGen false) (s.hub.flash.headerGen true) = none → t.hub.flash.catalogue = []) ∧
        (newerCopy (s.hub.flash.configGenOf false) (s.hub.flash.configGenOf true) = none → t.hub.flash.start = [] ∧ t.hub.flash.loadedPolicy = false ∧ t.hub.faults.lockEnable = false)) ∧
    ((s.hub.boot.phase = 4 ∨ s.hub.boot.phase = 5) → s.hub.boot.fieldTested = false →
      ∃ t : State, exec (.fieldTestDone []) s = .next t ∧ t.hub.boot.fieldTested = true ∧ t.hub.boot.phase = (if s.hub.boot.linked then 6 else 5) ∧
        (∀ (ch : ChanId), (t.channel ch).mem = [] ∧ (t.channel ch).bruise = []) ∧ ∀ (f : FieldId) (row : Nat), (AMap.get {} (t.field f).rows row).live = 0) ∧
    (s.hub.boot.phase = 6 →
      let v := s.loadStarts true
      let stays : Prop := v.hub.boot.plotsFailed ≠ 0 ∧ v.hub.flash.loadedPolicy = true
      (stays → exec .loadPhaseDone s = .next { v with hub := { v.hub with boot := { v.hub.boot with failed := true } } }) ∧
      (¬ stays → exec .loadPhaseDone s = .next { v with hub := { v.hub with boot := { v.hub.boot with phase := 7, released := true } } })) ∧
    (∀ dh : Nat, s.hub.boot.phase = 7 → s.hub.boot.risen = false →
      (s.system.root = false → exec (.loadedNRise dh) s = .next { s.advance dh with hub := { (s.advance dh).hub with boot := { s.hub.boot with line := true, risen := true } } }) ∧
      (s.system.root = true → ∃ t : State, exec (.loadedNRise dh) s = .next t ∧ t.hub.boot.risen = true ∧ t.system.ringFrom = some ((s.advance dh).system.stime.toNat + 10000))) ∧
    (s.hub.boot.risen = false → s.hub.boot.bellZero = false → exec .loadedNFall s = .next { s with hub := { s.hub with boot := { s.hub.boot with line := false } } }) ∧
    (∀ dh : Nat, s.hub.boot.phase = 7 → s.hub.boot.risen = true → s.system.standalone = true → s.hub.idleStaged = [] →
      ∃ t : State, exec (.bellZero dh) s = .next t ∧ t.hub.boot.phase = 8 ∧ t.hub.boot.bellZero = true ∧ t.hub.boot.zeroAt = s.hub.time + dh ∧ t.hub.idleBell = 0 ∧
        t.hub.boot.bootMs.toNat = min ((s.hub.time + dh) / 1000000) (2 ^ 24 - 1))

namespace Sys2Proof.Claims

open Sys2Proof.Machine

/-- What a loss of power keeps of a state (R479, R541): flash, counter, keys, calendar, grade and waiting commands; the rest of the module is at reset. -/
def KeptThroughPowerLoss (s t : State) : Prop :=
  t.hub.flash.mem = s.hub.flash.mem ∧ t.hub.counter = { s.hub.counter with warnedNow := false } ∧ t.hub.keys = { s.hub.keys with withheld := false } ∧
    t.hub.battery.seconds = s.hub.battery.seconds ∧ t.hub.battery.usec = s.hub.battery.usec ∧ t.hub.battery.ended = s.hub.battery.ended ∧ t.hub.battery.valid = s.hub.battery.valid ∧
    t.plots = [] ∧ t.cores = [] ∧ t.channels = [] ∧ t.fields = [] ∧ t.mesh = {} ∧ t.commons = {} ∧ t.ports = [] ∧ t.system = {} ∧ t.hub.boot = {} ∧ t.hub.time = 0 ∧ t.grade = s.grade ∧ t.pending = s.pending

/-- Pins, calendar and battery key of a state replaced. -/
def withSupply (s : State) (pins : Pins) (battery : Battery) (key : Option (BitVec 256)) : State :=
  { s with hub := { s.hub with pins := pins, battery := battery, keys := { s.hub.keys with batteryKey := key } } }

end Sys2Proof.Claims

/-- PWR_OK_FALL, PWR_OK_RISE, RAIL_TRIP, THERMTRIP, VBAT_LOSS, VBAT_APPLIED and CALENDAR_END answer a next state with what power keeps. A fall of PWR_OK leaves the fuses, the counter, the flash, the calendar and the battery key, and everything else of the module at reset, with the cause in HUB.PWRCAUSE. A trip of a rail from 0 to 9 or of a sensor while power is good does the same, holds FAULT_N and ignores PWR_OK until it falls, and that fall keeps the trip's cause. A rise starts phase 0 and samples the tree root strap. VBAT lost or applied anew restarts the calendar in its lost state and zeroises the battery key. The calendar runs on to its last instant and stops there. An event that has happened already changes nothing. That a rise or a fall begins a new second of the calendar is the model's choice (log entry 124). -/
def Obligations.PowerAndBatteryAreKept : Prop :=
  (∀ s : State, s.hub.pins.pwrOk = true →
    ∃ t : State, exec .pwrOkFall s = .next t ∧ KeptThroughPowerLoss s t ∧ t.hub.pins.pwrOk = false ∧ t.hub.pins.powerLatched = false ∧ t.hub.battery.lost = false ∧
      (s.hub.pins.powerLatched = false → t.hub.battery.pwrok = true ∧ t.hub.battery.brownout = false ∧ t.hub.battery.thermtrip = false ∧ t.hub.battery.rail = 0xF) ∧
      (s.hub.pins.powerLatched = true → t.hub.battery.pwrok = s.hub.battery.pwrok ∧ t.hub.battery.brownout = s.hub.battery.brownout ∧ t.hub.battery.thermtrip = s.hub.battery.thermtrip ∧ t.hub.battery.rail = s.hub.battery.rail)) ∧
  (∀ s : State, s.hub.pins.pwrOk = false →
    exec .pwrOkRise s = .next { withSupply s { s.hub.pins with pwrOk := true } { s.hub.battery with sub := 0 } s.hub.keys.batteryKey with system := { s.system with root := !s.hub.pins.treeRootN } }) ∧
  (∀ (s : State) (rail : BitVec 4), s.hub.pins.pwrOk = true → s.hub.pins.powerLatched = false → rail.toNat ≤ 9 →
    ∃ t : State, exec (.railTrip rail) s = .next t ∧ KeptThroughPowerLoss s t ∧ t.hub.pins.pwrOk = true ∧ t.hub.pins.powerLatched = true ∧ t.hub.faultN = true ∧ t.hub.battery.brownout = true ∧ t.hub.battery.rail = rail ∧
      t.hub.battery.pwrok = false ∧ t.hub.battery.thermtrip = false) ∧
  (∀ (s : State) (sensor : Nat), s.hub.pins.pwrOk = true → s.hub.pins.powerLatched = false →
    ∃ t : State, exec (.thermtrip sensor) s = .next t ∧ KeptThroughPowerLoss s t ∧ t.hub.pins.pwrOk = true ∧ t.hub.pins.powerLatched = true ∧ t.hub.faultN = true ∧ t.hub.pins.thermtripN = false ∧ t.hub.battery.thermtrip = true ∧
      t.hub.battery.rail = 0xF ∧ t.hub.battery.pwrok = false ∧ t.hub.battery.brownout = false) ∧
  (∀ s : State, exec .vbatLoss s = .next (withSupply s { s.hub.pins with vbat := false } { lost := true } none)) ∧
  (∀ s : State, s.hub.pins.vbat = false → exec .vbatApplied s = .next (withSupply s { s.hub.pins with vbat := true } { lost := true } none)) ∧
  (∀ (s : State) (dh : Nat),
    let b := s.hub.battery
    ∃ t : State, exec (.calendarEnd dh) s = .next t ∧ t = s.advance dh ∧ t.plots = s.plots ∧ t.cores = s.cores ∧
      (b.ended = true → t.hub.battery = b) ∧
      (b.ended = false → s.hub.pins.hubOn = true → 12622780799999999 ≤ b.seconds.toNat * 1000000 + b.usec.toNat + (b.sub + dh) / 1000 →
        t.hub.battery.seconds = 12622780799 ∧ t.hub.battery.usec = 999999 ∧ t.hub.battery.ended = true) ∧
      (b.ended = false → s.hub.pins.hubOn = false → 12622780799 < b.seconds.toNat + (b.sub + dh) / 1000000000 →
        t.hub.battery.seconds = 12622780799 ∧ t.hub.battery.usec = 999999 ∧ t.hub.battery.ended = true)) ∧
  (∀ s : State,
    (s.hub.pins.pwrOk = false → exec .pwrOkFall s = .next s ∧ (∀ rail, exec (.railTrip rail) s = .next s) ∧ ∀ sensor, exec (.thermtrip sensor) s = .next s) ∧
    (s.hub.pins.powerLatched = true → (∀ rail, exec (.railTrip rail) s = .next s) ∧ ∀ sensor, exec (.thermtrip sensor) s = .next s) ∧
    (s.hub.pins.pwrOk = true → exec .pwrOkRise s = .next s) ∧ (s.hub.pins.vbat = true → exec .vbatApplied s = .next s))

/-- THERMAL_SAMPLE, THERMAL, THERMAL_HOLD_END and POWER_SAMPLE answer a next state with the readings and limits they give. THERMAL_SAMPLE sets each field's junction temperature, its highest one, and the thermal ceiling: 1,600 MHz to 95 °C, 50 MHz less for each °C above, 1,100 MHz above 105 °C; and the hub die's. THERMAL on a field with ten hot samples begins its thermal hold and tells its plots; THERMAL_HOLD_END after ten cool ones ends it, and a plot that no other hold keeps is released. POWER_SAMPLE above the envelope or above 1,250 A lowers every field's power limit to 25 MHz below the field's ceiling, 1,100 MHz at least, with ILIMIT set; the tenth sample in a row below 97% of both raises it by 25 MHz. -/
def Obligations.TemperaturesAndPowerLimitTheFields : Prop :=
  (∀ (s : State) (r : ThermalReading), (∀ x ∈ r.optical, x < 90) → (∀ t ∈ r.junction, t < 256) →
    ∃ t : State, exec (.thermalSample r) s = .next t ∧ t.hub.power.hubTj = BitVec.ofNat 8 r.hub ∧ t.plots = s.plots ∧
      ∀ f : FieldId,
        let tj := r.junction.getD f.toNat 0
        (t.field f).tj.toNat = tj ∧ (t.field f).tjMax.toNat = max (s.field f).tjMax.toNat tj ∧
        (t.field f).thermCeil.toNat = (if tj ≤ 95 then 1600 else if tj ≤ 105 then 1600 - 50 * (tj - 95) else 1100)) ∧
  (∀ (s : State) (field : FieldId),
    let h := AMap.get {} s.fieldHold field.toNat
    (h.held = false → (10 ≤ h.hot ∨ ∃ n ∈ h.stackHot, 10 ≤ n) →
      ∃ t : State, exec (.thermal field) s = .next t ∧ AMap.get {} t.fieldHold field.toNat = { h with held := true } ∧ t.cores = s.cores) ∧
    (h.held = true → 10 ≤ h.cool →
      ∃ t : State, exec (.thermalHoldEnd field) s = .next t ∧ AMap.get {} t.fieldHold field.toNat = { h with held := false } ∧
        ∀ fn ∈ s.plotsIn field, (s.plot fn).step.phase = .held → (s.plot fn).step.holds = { thermal := true } → (∀ g ∈ (s.plot fn).fieldList, g ≠ field.toNat → (AMap.get {} s.fieldHold g).held = false) →
          (t.plot fn).step.phase = .running)) ∧
  (∀ (s : State) (watts amps : Nat),
    let env := if s.grade = .mt4096 then 1500 else 1350
    ((env < watts ∨ 1250 < amps) →
      ∃ t : State, exec (.powerSample watts amps) s = .next t ∧ t.hub.power.ilimit = true ∧ ∀ f : FieldId, (t.field f).powerCeil.toNat = max 1100 (min (s.field f).powerCeil.toNat (s.field f).ceiling.toNat - 25)) ∧
    (¬ (env < watts ∨ 1250 < amps) →
      ∃ t : State, exec (.powerSample watts amps) s = .next t ∧ t.hub.power.ilimit = false ∧
        ∀ f : FieldId, (t.field f).powerCeil.toNat = if (100 * watts < 97 * env ∧ 100 * amps < 97 * 1250) ∧ s.hub.power.belowFor = 9 then min 1600 ((s.field f).powerCeil.toNat + 25) else (s.field f).powerCeil.toNat))

/-- The seven commands of the debug port and of the management bus answer a next state with the transfer made. The rows are JTAG_INSTRUCTION, DEBUG_UNLOCK, I3C_DYNAMIC_ADDRESS, I3C_SET_OFFSET, I3C_READ, I3C_WRITE and LOGPORT_READ. An instruction that the debug level allows is loaded; another loads BYPASS with DEBUG_LOCKED in the log. An unlock attempt uses up its nonce: one with the device's debug key over this attempt's nonce, at level 1 or 2 and before three failures, raises the level, and at level 2 zeroises the battery key and withholds the other keys; any other counts a failure. From phase 1 on the bus takes its address and offset, a read answers the registers from the offset on and moves it by the whole words read, a write reaches HUB.FAULTSUM alone, and a read of 64 bytes at HUB.LOGPORT takes the oldest report of the log that the bus has not read. -/
def Obligations.DebugPortAndBusAnswer : Prop :=
  (∀ (s : State) (ins : JtagInstr),
    (s.hub.jtag.allows ins = true → exec (.jtagInstruction ins) s = .next { s with hub := { s.hub with jtag := { s.hub.jtag with instruction := ins } } }) ∧
    (s.hub.jtag.allows ins = false →
      ∃ t : State, exec (.jtagInstruction ins) s = .next t ∧ t.hub.jtag = { s.hub.jtag with instruction := .bypass } ∧ t.hub.faults.logLast = 0x5003 ∧ t.plots = s.plots)) ∧
  (∀ (s : State) (level : BitVec 8) (key signature : Nat),
    let d := s.hub.jtag
    let good : Prop := d.fails ≠ 3 ∧ (level = 1 ∨ level = 2) ∧ keyDigest (bytesOfNat 96 key) = Config.debugDigest ∧ Config.ecdsaVerify key signature (unlockDigest s.grade (Config.debugNonce d.attempts) level) = true
    ∃ t : State, exec (.debugUnlock level key signature) s = .next t ∧ t.hub.jtag.attempts = d.attempts + 1 ∧
      (good → t.hub.jtag.fails = d.fails ∧ t.hub.jtag.level.toNat = max d.level.toNat level.toNat ∧ (level = 2 → t.hub.keys.batteryKey = none ∧ t.hub.keys.withheld = true) ∧ (level = 1 → t.hub.keys = s.hub.keys)) ∧
      (¬ good → t.hub.jtag.fails = satAdd d.fails 1 ∧ t.hub.jtag.level = d.level ∧ t.hub.keys = s.hub.keys)) ∧
  (∀ s : State, s.hub.boot.phase ≠ 0 →
    (∀ a : BitVec 7, exec (.i3cDynamicAddress a) s = .next { s with hub := { s.hub with i3c := { s.hub.i3c with addr := some a } } }) ∧
    (∀ o : BitVec 32, exec (.i3cSetOffset o) s = .next { s with hub := { s.hub with i3c := { s.hub.i3c with offset := o } } }) ∧
    (∀ len : Nat, ∃ t : State, exec (.i3cRead len) s = .next t ∧
      t.hub.i3c.readData = (List.range ((len + 7) / 8)).map (fun k => s.busReg (s.hub.i3c.offset.toNat + 8 * k)) ∧ t.hub.i3c.offset = BitVec.ofNat 32 (s.hub.i3c.offset.toNat + len / 8 * 8)) ∧
    (∀ v : Word, exec (.i3cWrite 0x10 [v]) s = .next (({ s with hub := { s.hub with i3c := { s.hub.i3c with offset := 0x10 } } } : State).writeFaultsum v)) ∧
    (∀ (o : BitVec 32) (v : Word), o ≠ 0x10 → exec (.i3cWrite o [v]) s = .next { s with hub := { s.hub with i3c := { s.hub.i3c with offset := o } } }) ∧
    (∀ r : Report, s.hub.faults.log[s.hub.faults.logRead]? = some r →
      ∃ t : State, exec .logportRead s = .next t ∧ t.hub.i3c.readData = (List.range 8).map (fun k => BitVec.ofNat 64 (fieldBytes r.bytes (8 * k) 8)) ∧ t.hub.faults.logRead = s.hub.faults.logRead + 1 ∧ t.hub.faults.log = s.hub.faults.log))


namespace Sys2Proof.Claims

open Sys2Proof.Machine

/-- The packet rows: the TYPE of each, and the packet whose PARAM names the row where its TYPE alone does not (R419, R420, R465, R494, R525). -/
def packetOf : Instr → Option (BitVec 8 × PacketIn)
  | .nop p => some (0x01, p)
  | .state p => some (0x02, p)
  | .request p => some (0x03, p)
  | .fetch p => some (0x04, p)
  | .steparg p => some (0x05, p)
  | .runStart p => some (0x06, p)
  | .runEnd p => some (0x07, p)
  | .recordClose p => some (0x08, p)
  | .loadImage p => some (0x09, p)
  | .plotCreate p => some (0x20, p)
  | .plotResize p => some (0x21, p)
  | .plotPreempt p => some (0x22, p)
  | .plotResume p => some (0x23, p)
  | .plotReset p => some (0x24, p)
  | .quota p => some (0x25, p)
  | .budget p => some (0x26, p)
  | .commonsAssign p => some (0x27, withParam p 32 2 0)
  | .commonsGrant p => some (0x27, withParam p 32 2 1)
  | .commonsRevoke p => some (0x27, withParam p 32 2 2)
  | .plotJoin p => some (0x28, withParam p 53 1 0)
  | .plotLeave p => some (0x28, withParam p 53 1 1)
  | .calendar p => some (0x29, p)
  | .flashBegin p => some (0x2A, withParam p 4 4 0)
  | .flashWrite p => some (0x2A, withParam p 4 4 1)
  | .flashCommit p => some (0x2A, withParam p 4 4 2)
  | .flashDelete p => some (0x2A, withParam p 4 4 3)
  | .flashConfig p => some (0x2A, withParam p 4 4 4)
  | .flashRaise p => some (0x2A, withParam p 4 4 5)
  | .flashKeyload p => some (0x2A, withParam p 4 4 6)
  | _ => none

/-- The packet with the payload bytes that its LENGTH covers (R418). -/
def covered (p : PacketIn) : PacketIn := { p with payload := sliceBytes p.payload 0 p.length.toNat }

/-- A packet as it is staged (R423): its header's unit, the time, its explicit target. -/
def stagedAs (s : State) (type : BitVec 8) (p : PacketIn) : Staged :=
  { type := type, p := p, unit := (s.plot p.fn).sq.head, acceptedAt := s.hub.time, target := p.bell.setWidth 48, epoch := (s.plot p.plot).epochFor (fieldOf p.bell 0 48) }

/-- The state with SQHEAD advanced past a packet (R418). -/
def skipped (s : State) (p : PacketIn) : State := s.modPlot p.fn (fun q => { q with sq.head := q.sq.head + BitVec.ofNat 32 (packetUnits p) })

/-- A function's submission or completion ring. -/
def ringOf (s : State) (fn : Fn) (completion : Bool) : Ring := if completion then (s.plot fn).cq else (s.plot fn).sq

/-- The state with a function's ring replaced; a submission ring that does not run is not paused (R433). -/
def withRing (s : State) (fn : Fn) (completion : Bool) (r : Ring) : State :=
  let p := s.plot fn
  s.setPlot fn (if completion then { p with cq := r } else { p with sq := r, counts.readPaused := p.counts.readPaused && p.sq.enable && r.enable })

/-- The state with a write of a function's window counted as ignored (R467). -/
def ignoredAt (s : State) (fn : Fn) (off : BitVec 16) : State :=
  let p := s.plot fn
  s.setPlot fn { p with counts.ignored := satAdd p.counts.ignored 1, counts.ignoredLast := off }

/-- Units that a ring holds between its HEAD and its TAIL (R416). -/
def heldUnits (r : Ring) : Nat := (r.tail - r.head).toNat

end Sys2Proof.Claims

/-- Every packet row answers a next state: the packet waits, pauses its ring, halts it, is refused, or is accepted and staged. For each of the 29 packet rows: a ring that is not read, or does not yet hold every unit of the packet, leaves the state as it is; a LENGTH beyond the ring refuses the packet with BAD_LENGTH and halts the ring with CAUSE 1; a packet that would break a limit of the staging pauses the ring. Otherwise SQHEAD advances past the packet, and the first check that fails refuses it: CODE, TYPE, UNIT and REFUSED of PLT.HOSTERR and one COMPLETION are what the refusal writes, and no other plot, core, channel or staged packet changes. A packet that passes is accepted: packets that are no management packets join the staged packets of their plot, module packets and management packets of a plot that rests join those of the idle domain, a management packet of a held plot takes effect at once, and a FETCH of a stopped plot answers its RESULT with STOPPED set. That a packet whose LENGTH is beyond the ring leaves SQHEAD in place is the model's choice (log entry 48), and so is the bit that a row of a shared TYPE sets in PARAM (log entry 30). -/
def Obligations.PacketsAreReadFromTheirRing : Prop :=
  (∀ (c : Instr) (type : BitVec 8) (p0 : PacketIn) (s : State), packetOf c = some (type, p0) →
    let p := covered p0
    let n := packetUnits p
    let ring := (s.plot p.fn).sq
    let st := stagedAs s type p
    let u := skipped s p
    (s.reading p.fn = false ∨ heldUnits ring = 0 ∨ (n ≤ 2 ^ ring.logsize.toNat ∧ heldUnits ring < n) → exec c s = .next s) ∧
    (s.reading p.fn = true → heldUnits ring ≠ 0 → 2 ^ ring.logsize.toNat < n →
      exec c s = .next ((s.refuse st 0x1002).modPlot p.fn (fun q => ({ q with sq.halted := true, sq.cause := 1 } : Plot).vector2))) ∧
    (s.reading p.fn = true → n ≤ 2 ^ ring.logsize.toNat → n ≤ heldUnits ring →
      (s.mustPause type p = true → exec c s = .next (s.modPlot p.fn (fun q => { q with counts.readPaused := true }))) ∧
      (s.mustPause type p = false →
        (∀ code, u.checkPacket type p = some code → exec c s = .next (u.refuse st code)) ∧
        (u.checkPacket type p = none → exec c s = .next ((u.carryPacket st).acceptPacket st))))) ∧
  (∀ (s : State) (st : Staged) (code : Code), code ≠ 0 →
    let t := s.refuse st code
    let p := s.plot st.p.fn
    let q := t.plot st.p.fn
    (q.host.errCode = code ∧ q.host.errType = st.type ∧ q.host.errUnit = st.unit ∧ q.host.errRefused = satAdd p.host.errRefused 1) ∧
    (∃ d : DevPacket, q.packets.completions = p.packets.completions ++ [d] ∧ d.type = 0x81 ∧ d.plot = st.p.plot ∧ d.tag = st.p.tag ∧ d.bell = 0 ∧ fieldOf d.param 0 16 = code.toNat ∧ fieldOf d.param 16 8 = st.type.toNat ∧ fieldOf d.param 32 32 = st.unit.toNat) ∧
    (q.sq = p.sq ∧ q.packets.staged = p.packets.staged ∧ q.place = p.place ∧ q.step = p.step ∧ q.run = p.run ∧ q.bell = p.bell) ∧
    (∀ g : Fn, g ≠ st.p.fn → t.plot g = s.plot g) ∧ t.hub = { s.hub with seq := s.hub.seq + 1 } ∧ ({ t with plots := s.plots, hub := s.hub } : State) = s) ∧
  (∀ (s : State) (st : Staged),
    let q := s.plot st.p.plot
    let rests := q.place.state = 0 ∨ q.place.state = 5 ∨ q.place.state = 6 ∨ q.moving.saving = true
    let t := (s.carryPacket st).acceptPacket st
    q.group.joined = false ∨ isGroupType st.type = false →
    (isMgmt st.type = false → ¬(st.type = 4 ∧ q.place.state = 5) → t = s.modPlot st.p.plot (fun p => { p with packets.staged := p.packets.staged ++ [st] })) ∧
    (isModuleType st.type = true ∨ (isMgmt st.type = true ∧ rests) → t = s.modHub (fun h => { h with idleStaged := h.idleStaged ++ [st] })) ∧
    (isMgmt st.type = true → isModuleType st.type = false → ¬ rests → q.stateNow = 4 → t = (s.takeMgmt st).1.settle st q.bell.bell (s.takeMgmt st).2) ∧
    (isMgmt st.type = true → isModuleType st.type = false → ¬ rests → q.stateNow ≠ 4 → t = s.modPlot st.p.plot (fun p => { p with packets.staged := p.packets.staged ++ [st] })) ∧
    (st.type = 4 → q.place.state = 5 →
      ∃ (d : DevPacket) (l : List DevPacket), (t.plot st.p.fn).packets.results = (s.plot st.p.fn).packets.results ++ d :: l ∧ d.type = 0x82 ∧ d.tag = st.p.tag ∧ d.bell = q.bell.bell ∧ d.param = st.p.param ∧ d.flags.getLsbD 3 = true))

/-- SQTAIL_DOORBELL, CQHEAD_WRITE, DEVICE_PACKET_WRITE and RECORD_DELIVERY keep both rings within their size. A doorbell that leaves at most 2^LOGSIZE units unread, and no fewer than before, moves SQTAIL and nothing else of the ring; any other is ignored and counted. A write of CQHEAD from the old HEAD to CQTAIL moves HEAD; any other is ignored and counted. DEVICE_PACKET_WRITE writes the packet that was produced first, and RECORD_DELIVERY the first record that may be delivered, each only when the completion ring runs and holds room for every unit of it: the packet is appended, CQTAIL advances by its units, and the ring then holds at most 2^LOGSIZE units not consumed; without room nothing changes. -/
def Obligations.RingCountersTakeOnlyWhatFits : Prop :=
  (∀ (s : State) (fn : Fn) (tail : BitVec 32),
    let r := (s.plot fn).sq
    let n := (tail - r.head).toNat
    (n ≤ 2 ^ r.logsize.toNat ∧ heldUnits r ≤ n → exec (.sqtailDoorbell fn tail) s = .next (withRing s fn false { r with tail := tail })) ∧
    (¬(n ≤ 2 ^ r.logsize.toNat ∧ heldUnits r ≤ n) → exec (.sqtailDoorbell fn tail) s = .next (ignoredAt s fn 0x10))) ∧
  (∀ (s : State) (fn : Fn) (head : BitVec 32),
    let r := (s.plot fn).cq
    ((head - r.head).toNat ≤ heldUnits r → exec (.cqheadWrite fn head) s = .next (withRing s fn true { r with head := head })) ∧
    (heldUnits r < (head - r.head).toNat → exec (.cqheadWrite fn head) s = .next (ignoredAt s fn 0x30))) ∧
  (∀ (s : State) (fn : Fn),
    let r := (s.plot fn).cq
    (oldest (s.waiting fn) = none → exec (.devicePacketWrite fn) s = .next s) ∧
    (∀ (k : Backlog) (d : DevPacket), oldest (s.waiting fn) = some (k, d) →
      let fits := r.enable = true ∧ r.halted = false ∧ s.hub.pins.pcieUp = true ∧ heldUnits r + d.units ≤ 2 ^ r.logsize.toNat
      (¬ fits → exec (.devicePacketWrite fn) s = .next s) ∧
      (fits → ∃ u : State, exec (.devicePacketWrite fn) s = .next u.easeHolds ∧ (u.plot fn).packets.written = (s.plot fn).packets.written ++ [d] ∧
        (u.plot fn).cq = { r with tail := r.tail + BitVec.ofNat 32 d.units } ∧ heldUnits (u.plot fn).cq ≤ 2 ^ r.logsize.toNat ∧ (∀ g : Fn, g ≠ fn → u.plot g = s.plot g) ∧
        (k = .result → (u.plot fn).packets.results = (s.plot fn).packets.results.drop 1) ∧ (k = .completion → (u.plot fn).packets.completions = (s.plot fn).packets.completions.drop 1) ∧
        (k = .report → (u.plot fn).faults.queue = (s.plot fn).faults.queue.drop 1) ∧ (k = .log → u.hub.faults.logSent = s.hub.faults.logSent + 1)))) ∧
  (∀ s : State,
    ((∀ r ∈ s.hub.records, s.deliverable r = false) → exec .recordDelivery s = .next s) ∧
    (∀ (k : Nat) (x : RecordPlace), s.hub.records[k]? = some x → s.deliverable x = true → (∀ (i : Nat) (y : RecordPlace), i < k → s.hub.records[i]? = some y → s.deliverable y = false) →
      let r := (s.plot x.fn).cq
      let d := x.packet s.grade
      heldUnits r + d.units ≤ 2 ^ r.logsize.toNat ∧
        ∃ u : State, exec .recordDelivery s = .next u.easeHolds ∧ u.hub.records = s.hub.records.eraseIdx k ∧ (u.plot x.fn).packets.written = (s.plot x.fn).packets.written ++ [d] ∧
          (u.plot x.fn).cq = { r with tail := r.tail + BitVec.ofNat 32 d.units } ∧ heldUnits (u.plot x.fn).cq ≤ 2 ^ r.logsize.toNat ∧ ∀ g : Fn, g ≠ x.fn → u.plot g = s.plot g))

/-- The ten commands of ring control, of the host link and of its resets answer a next state as the rules leave it. The rows are RING_ENABLE, RING_DISABLE, SQ_READ_RESUME, DMA_ERROR, IRQ_HOLDOFF_EXPIRY, PCIE_LINK_DOWN, PCIE_LINK_RETRAIN, FLR, PERST_N and PERST_N_DEASSERT. RING_ENABLE of a stopped ring with LOGSIZE from 10 to 24 sets ENABLE with both counters 0 and HALTED and CAUSE cleared; with another LOGSIZE it is ignored and counted; a ring that runs keeps its LOGSIZE. RING_DISABLE clears ENABLE alone, and accepted packets stay staged. A DMA error halts its ring with CAUSE 2. The hold-off fires vector 0 when units are unsignalled and the vector is enabled. Loss of the link and its retraining change only whether the link is up. An FLR gives the rings, interrupt and mailbox registers of the function their reset values, discards its backlog and its staged packets, and leaves one PLOT_RESET for a placed plot; an FLR of function 0 does so for every function, and so does PERST_N after bell zero, which also brings back the start-up plots. The packet that stands for the reset is the model's (log entry 49). -/
def Obligations.RingsAndTheHostLinkStartAndStop : Prop :=
  (∀ (s : State) (fn : Fn) (completion : Bool) (v : Word),
    let r := ringOf s fn completion
    let size : BitVec 5 := v.extractLsb' 1 5
    let legal := 10 ≤ size.toNat ∧ size.toNat ≤ 24
    let off : BitVec 16 := if completion then 0x28 else 0x08
    (r.enable = false → legal → exec (.ringEnable fn completion v) s = .next (withRing s fn completion { r with enable := true, logsize := size, tail := 0, head := 0, halted := false, cause := 0 })) ∧
    (r.enable = false → ¬ legal → exec (.ringEnable fn completion v) s = .next (ignoredAt s fn off)) ∧
    (r.enable = true → size = r.logsize → exec (.ringEnable fn completion v) s = .next (withRing s fn completion r)) ∧
    (r.enable = true → size ≠ r.logsize → exec (.ringEnable fn completion v) s = .next (ignoredAt s fn off)) ∧
    (size = r.logsize ∨ (r.enable = false ∧ legal) → exec (.ringDisable fn completion v) s = .next (withRing s fn completion { r with enable := false, logsize := size })) ∧
    (size ≠ r.logsize → r.enable = true ∨ ¬ legal → exec (.ringDisable fn completion v) s = .next (ignoredAt s fn off)) ∧
    exec (.dmaError fn completion) s =
      .next (s.modPlot fn (fun p => (if completion then { p with cq.halted := true, cq.cause := 2 } else { p with sq.halted := true, sq.cause := 2 } : Plot).vector2))) ∧
  (∀ (s : State) (fn : Fn),
    let p := s.plot fn
    exec (.sqReadResume fn) s = .next (s.setPlot fn { p with counts.readPaused := false }) ∧
    (p.host.cqEn = true → 0 < p.host.unsignalled → exec (.irqHoldoffExpiry fn) s = .next (s.setPlot fn { p with host.unsignalled := 0, counts.vector0 := p.counts.vector0 + 1 })) ∧
    (p.host.cqEn = false ∨ p.host.unsignalled = 0 → exec (.irqHoldoffExpiry fn) s = .next (s.setPlot fn p))) ∧
  (∀ s : State,
    exec .pcieLinkDown s = .next { s with hub.pins.pcieUp := false } ∧
    exec .pcieLinkRetrain s = .next { s with hub.pins.pcieUp := s.hub.pins.perstN && s.hub.refs.pcieOk } ∧
    exec .perstNDeassert s = .next { s with hub.pins.perstN := true, hub.pins.pcieUp := s.hub.refs.pcieOk && decide (s.hub.boot.phase ≠ 0) } ∧
    (s.hub.boot.bellZero = false → exec .perstN s = .next { s with hub.pins.perstN := false, hub.pins.pcieUp := false })) ∧
  (∀ s : State,
    let cleared (t : State) (fn : Fn) : Prop :=
      (t.plot fn).sq = {} ∧ (t.plot fn).cq = {} ∧ (t.plot fn).host = {} ∧ (t.plot fn).packets.results = [] ∧ (t.plot fn).packets.completions = [] ∧ (t.plot fn).faults.queue = [] ∧
        (t.plot fn).place = (s.plot fn).place ∧ (t.plot fn).moving.flr = decide ((s.plot fn).place.state ≠ 0) ∧
        ((s.plot fn).place.state = 0 → (t.plot fn).packets.staged = []) ∧
        ((s.plot fn).place.state ∈ [1, 2, 3, 4] → (s.plot fn).moving.saving = false → (t.plot fn).packets.staged = [resetPacket fn s.hub.time])
    (∀ fn : Fn, fn ≠ 0 → ∃ t : State, exec (.flr fn) s = .next t ∧ cleared t fn ∧ (∀ g : Fn, g ≠ fn → t.plot g = s.plot g) ∧ ({ t with plots := s.plots, hub := s.hub } : State) = s) ∧
    (∃ t : State, exec (.flr 0) s = .next t ∧ (∀ fn : Fn, cleared t fn) ∧ ({ t with plots := s.plots, hub := s.hub } : State) = s) ∧
    (s.hub.boot.bellZero = true →
      ∃ t : State, exec .perstN s = .next t ∧ (∀ fn : Fn, cleared t fn) ∧ t.hub.boot.reload = true ∧ t.hub.pins.perstN = false ∧ t.hub.pins.pcieUp = false ∧ ({ t with plots := s.plots, hub := s.hub } : State) = s))

/-- PREEMPT_SAVE_DONE, RESUME_RESTORE_DONE, CORE_CLEAR_DONE and FLASH_OP_DONE answer a next state with what was under way at its end. The end of a save leaves the plot in state 6 with ROWS and COLS 0, its image, saved blocks and bell number as they were, and its cores in no plot, being cleared. The end of a restore gives every core of a save block that block as its working state and its bell image, and the plot reads state 2, or 1 when it had no image. A core that was being cleared is free. Without a save or a restore under way, or with an empty queue, nothing changes. The oldest flash operation leaves the queue: a check of its turn that fails, or its own verdict, refuses it, and otherwise its effect stands and its COMPLETION carries the bell at which it was accepted: BEGIN leaves the slot pending with its length, WRITE programs its payload, COMMIT of a good container makes the slot valid, DELETE empties the slot, CONFIG takes the next generation, RAISE sets the minimum security version and KEYLOAD the battery key. -/
def Obligations.MovesAndFlashOperationsEnd : Prop :=
  (∀ (s : State) (fn : Fn),
    let p := s.plot fn
    (p.moving.saving = false → exec (.preemptSaveDone fn) s = .next s) ∧
    (p.moving.saving = true →
      ∃ t : State, exec (.preemptSaveDone fn) s = .next t ∧ t.plot fn = { p with moving.saving := false, place.state := 6, place.rows := 0, place.cols := 0 } ∧ (∀ g : Fn, g ≠ fn → t.plot g = s.plot g) ∧
        (∀ c ∈ p.cores, t.core c = { scrub := (s.core c).scrub, clearing := true }) ∧ (∀ c, c ∉ p.cores → t.core c = s.core c) ∧ t.hub = s.hub)) ∧
  (∀ (s : State) (fn : Fn),
    let p := s.plot fn
    (p.moving.restoring = false → exec (.resumeRestoreDone fn) s = .next s) ∧
    (p.moving.restoring = true → p.cores.Nodup → p.moving.saved.Pairwise (fun a b => a.rel ≠ b.rel) →
      ∃ t : State, exec (.resumeRestoreDone fn) s = .next t ∧ (t.plot fn).place = { p.place with state := if p.place.hadImage then 2 else 1 } ∧ (t.plot fn).moving = {} ∧
        (∀ k ∈ p.moving.saved, ∀ c, p.cores[k.rel]? = some c → t.core c = { s.core c with work := k.work, image := k.work }) ∧
        (∀ c, (∀ k ∈ p.moving.saved, p.cores[k.rel]? ≠ some c) → t.core c = s.core c))) ∧
  (∀ (s : State) (c : CoreId), s.hasCore c = true → exec (.coreClearDone c) s = .next (s.setCore c { s.core c with clearing := false })) ∧
  (∀ (s : State) (c : CoreId), s.hasCore c = false → exec (.coreClearDone c) s = .fault .noSuchCore) ∧
  (∀ s : State, s.hub.flash.ops = [] → exec .flashOpDone s = .next s) ∧
  (∀ (s : State) (o : FlashOp) (rest : List FlashOp), s.hub.flash.ops = o :: rest →
    let u : State := { s with hub.flash.ops := rest }
    let st : Staged := { type := 0x2A, p := o.p, unit := o.unit, acceptedAt := 0, target := 0, epoch := 0 }
    let slot := fieldOf o.p.param 0 4
    let arg := fieldOf o.p.param 8 32
    (∀ code, u.flashRefusal o.p = some code → exec .flashOpDone s = .next (u.refuse st code)) ∧
    (u.flashRefusal o.p = none →
      (∀ code, u.flashRun o.p = .error code → exec .flashOpDone s = .next (u.refuse st code)) ∧
      (∀ t, u.flashRun o.p = .ok t → exec .flashOpDone s = .next (t.complete st o.bell 0)) ∧
      (fieldOf o.p.param 4 4 = 3 → ∃ t : State, exec .flashOpDone s = .next t ∧ AMap.get {} t.hub.flash.catalogue slot = {} ∧ t.hub.flash.ops = rest) ∧
      (fieldOf o.p.param 4 4 = 5 → ∃ t : State, exec .flashOpDone s = .next t ∧ t.hub.keys.minSecurity.toNat = arg ∧ t.hub.flash.ops = rest) ∧
      (fieldOf o.p.param 4 4 = 1 → ∃ t : State, exec .flashOpDone s = .next t ∧ t.hub.flash.mem = (u.hub.flash.program ((AMap.get {} u.hub.flash.catalogue slot).offset.toNat + arg) o.p.payload).mem ∧ t.hub.flash.ops = rest) ∧
      (fieldOf o.p.param 4 4 = 2 → ((AMap.get {} u.hub.flash.catalogue slot).verify s.hub.keys u.hub.flash).verdict = 0 →
        ∃ t : State, exec .flashOpDone s = .next t ∧ (AMap.get {} t.hub.flash.catalogue slot).state = 1 ∧ t.hub.boot.headerB = !s.hub.boot.headerB ∧ t.hub.flash.ops = rest) ∧
      (fieldOf o.p.param 4 4 = 4 → ∃ t : State, exec .flashOpDone s = .next t ∧ t.hub.flash.configGen = s.hub.flash.configGen + 1 ∧ t.hub.flash.configB = !s.hub.flash.configB ∧ t.hub.flash.ops = rest) ∧
      (fieldOf o.p.param 4 4 = 6 → ∃ t : State, exec .flashOpDone s = .next t ∧ t.hub.keys.batteryKey = (s.hub.keys.source 0).bind (fun k => Config.kwUnwrap k o.p.payload) ∧ t.hub.flash.ops = rest) ∧
      (fieldOf o.p.param 4 4 = 0 → ∃ t : State, exec .flashOpDone s = .next t ∧ (AMap.get {} t.hub.flash.catalogue slot).state = 2 ∧ (AMap.get {} t.hub.flash.catalogue slot).length.toNat = arg ∧ t.hub.flash.ops = rest)))

/-- The twelve commands of mailboxes, registers and diagnostics answer a next state with the registers as the rules leave them. The rows are PING, STATUS, DRAIN, DRAIN_COMPLETE, MBOXFROM_READ, READ_CLEAR, REGISTER_WRITE, BELLCTL_WRITE, RWL_FIELD_WRITE, FAULTSUM_CLEAR, DIAG_GO and DIAG_STEP. A mailbox command is kept in PLT.MBOXTO and answered: PING with its argument, STATUS with the plot's state and bell number, DRAIN once the submission ring is idle and the backlog empty, with ENABLE cleared. A read of PLT.MBOXFROM returns the word and makes room for the next answer. A read returns what the register maps give and clears the RC fields of its register alone. A write of PLT.BELLCTL with MODE, WINDOW and MIN_GAP in range is what the register then reads, its reserved bits 0. A write of an RWL field before the load, in range, sets it and marks it as the host's, a value that it repeats included; one out of range that it repeats leaves it, of STEPS excepted; after the load, or otherwise out of range, the write is ignored and counted. FAULTSUM_CLEAR clears the bits written as 1 and sets MASK. A write of another access size, of a core window or of a read-only register changes nothing. DIAG_GO on a stopped plot starts its diagnostic steps at ENTRY; a diagnostic step that every core has arrived in, or that a fault of class P or S ends, leaves the stopped state, and such a fault cancels the rest; before that the command changes nothing. That the reeve answers in the same step is the model's choice (log entry 50), and so is what a whole write of a register counts as writing (log entry 51). -/
def Obligations.RegistersAndMailboxesAnswer : Prop :=
  (∀ (s : State) (fn : Fn) (arg : BitVec 56),
    let p := s.plot fn
    let kept (cmd : BitVec 8) : Plot := { p with host.mboxTo := arg ++ cmd }
    (p.host.toFull = true → exec (.ping fn arg) s = .next (ignoredAt s fn 0x50) ∧ exec (.status fn arg) s = .next (ignoredAt s fn 0x50) ∧ exec (.drain fn arg) s = .next (ignoredAt s fn 0x50)) ∧
    (p.host.toFull = false →
      exec (.ping fn arg) s = .next (s.setPlot fn ((kept 1).answer (answerWord 0 1 (arg.toNat % 2 ^ 40)))) ∧
      exec (.status fn arg) s = .next (s.setPlot fn ((kept 2).answer (answerWord 0 2 (p.stateNow + 8 * (p.bell.bell.toNat % 2 ^ 37))))) ∧
      exec (.drain fn arg) s = exec (.drainComplete fn) (s.setPlot fn { kept 3 with host.draining := true })) ∧
    (p.host.draining = true → p.sq.tail = p.sq.head → s.backlogEmpty fn = true →
      exec (.drainComplete fn) s = .next (s.setPlot fn (({ p with sq.enable := false, host.draining := false } : Plot).answer (answerWord 0 3 0)))) ∧
    (p.host.draining = false ∨ p.sq.tail ≠ p.sq.head ∨ s.backlogEmpty fn = false → exec (.drainComplete fn) s = .next s) ∧
    (∀ w, (p.host.fromFull = false → (p.answer w).host.mboxFrom = w ∧ (p.answer w).host.fromFull = true ∧ (p.answer w).counts.vector1 = p.counts.vector1 + b2n p.host.mboxEn) ∧
      (p.host.fromFull = true → p.answer w = { p with host.answers := p.host.answers ++ [w] })) ∧
    ∃ t : State, exec (.mboxfromRead fn) s = .next t ∧ t.hub = { s.hub with hostRead := if p.host.fromFull then p.host.mboxFrom else 0 } ∧
      (p.host.answers = [] → t.plot fn = { p with host.mboxFrom := 0, host.fromFull := false }) ∧
      (∀ w l, p.host.answers = w :: l → (t.plot fn).host.mboxFrom = w ∧ (t.plot fn).host.fromFull = true ∧ (t.plot fn).host.answers = l)) ∧
  (∀ (s : State) (fn : Fn) (addr : RegAddr),
    let p := s.plot fn
    ∃ t : State, exec (.readClear fn addr) s = .next t ∧ t.hub.hostRead = s.readReg fn addr ∧
      (addr = .function 0x110 → t.plot fn = { p with bell := { p.bell with late := 0, slip := 0, rejected := 0, overrun := 0, heldCount := 0 } }) ∧
      (addr = .function 0x48 → t.plot fn = { p with host.errRefused := 0 }) ∧
      (addr = .function 0x138 → t.plot fn = { p with commons.dropped := 0, commons.refused := 0 }) ∧
      (addr = .function 0x148 → t.plot fn = { p with faults.lost := 0, faults.retried := 0 }) ∧
      (addr = .function 0x1020 → t.plot fn = { p with counts.ignored := 0 }) ∧
      (∀ off, addr = .function off → off ∉ [0x48, 0x58, 0x110, 0x138, 0x148, 0x1020] → t = { s with hub.hostRead := s.readReg fn addr }) ∧
      (∀ y x off, addr = .core y x off → off.toNat ∉ [0x28, 0x30, 0x38, 0x40, 0x48, 0x50, 0x60] → ∀ c, t.core c = s.core c) ∧
      (∀ y x c, addr = .core y x 0x48 → s.windowCore fn y x = some c → t.core c = { s.core c with work.sync := {} })) ∧
  (∀ (s : State) (fn : Fn) (v : Word),
    let old := (s.plot fn).bell.ctl
    let bad (lo len top : Nat) : Prop := top < fieldOf v lo len ∧ fieldOf v lo len ≠ fieldOf old lo len
    (¬ bad 0 2 1 → ¬ bad 16 12 4000 → ¬ bad 32 12 4000 →
      ∃ t : State, exec (.bellctlWrite fn v) s = .next t ∧ t.readReg fn (.function 0x108) = v &&& 0x00000FFF0FFF0007 ∧ t = s.modPlot fn (fun p => { p with bell.ctl := v &&& 0x00000FFF0FFF0007 })) ∧
    (bad 0 2 1 ∨ bad 16 12 4000 ∨ bad 32 12 4000 → exec (.bellctlWrite fn v) s = .next (ignoredAt s fn 0x108))) ∧
  (∀ (s : State) (fn : Fn) (f : RwlField) (v : Word),
    let p := s.plot fn
    let within := (rwlRange f).1 ≤ v.toNat ∧ v.toNat ≤ (rwlRange f).2
    let ok := within ∨ (f ≠ .steps ∧ v.toNat = p.regs.rwl f)
    (p.place.image = none → ok → ∃ t : State, exec (.rwlFieldWrite fn f v) s = .next t ∧ (t.plot fn).regs.rwl f = v.toNat ∧ (∀ g : RwlField, g ≠ f → (t.plot fn).regs.rwl g = p.regs.rwl g) ∧ t = s.setPlot fn { p with regs := if within then p.regs.setRwl f v.toNat else p.regs }) ∧
    (p.place.image ≠ none ∨ ¬ ok → exec (.rwlFieldWrite fn f v) s = .next (ignoredAt s fn (BitVec.ofNat 16 (rwlBits f).1)))) ∧
  (∀ (s : State) (v : Word),
    ∃ t : State, exec (.faultsumClear v) s = .next t ∧ t = { s with hub.faults := t.hub.faults } ∧ t.hub.faults.mask = v.extractLsb' 8 5 ∧
      t.hub.faults = { s.hub.faults with sum := t.hub.faults.sum, mask := t.hub.faults.mask } ∧ ∀ k < 5, t.hub.faults.sum.getLsbD k = (s.hub.faults.sum.getLsbD k && !v.getLsbD k)) ∧
  (∀ (s : State) (fn : Fn) (v : Word) (size : AccessSize),
    exec (.registerWrite fn (.function 0x10) .whole v) s = exec (.sqtailDoorbell fn (v.setWidth 32)) s ∧
    exec (.registerWrite fn (.function 0x30) .whole v) s = exec (.cqheadWrite fn (v.setWidth 32)) s ∧
    exec (.registerWrite fn (.function 0x50) .whole (v.extractLsb' 8 56 ++ (1 : BitVec 8))) s = exec (.ping fn (v.extractLsb' 8 56)) s ∧
    exec (.registerWrite fn (.function 0x108) .whole v) s = exec (.bellctlWrite fn v) s ∧
    exec (.registerWrite fn (.function 0x1028) .whole (v ||| 0x1000000)) s = exec (.diagGo fn v) s ∧
    exec (.registerWrite 0 (.module 0x10) .whole v) s = exec (.faultsumClear v) s ∧
    (∀ addr, exec (.registerWrite fn addr .other v) s = .next s) ∧
    (∀ y x off, exec (.registerWrite fn (.core y x off) size v) s = .next s) ∧
    (∀ off : BitVec 16, off ∉ [0x00, 0x08, 0x10, 0x20, 0x28, 0x30, 0x40, 0x50, 0x108, 0x120, 0x128, 0x140, 0x1028] → exec (.registerWrite fn (.function off) size v) s = .next s)) ∧
  (∀ (s : State) (fn : Fn) (v : Word),
    let p := s.plot fn
    let steps := fieldOf v 16 8
    (p.place.state = 5 → p.counts.diagBusy = false → steps ≠ 0 →
      ∃ t : State, exec (.diagGo fn v) s = .next t ∧ (t.plot fn).counts.diagBusy = true ∧ (t.plot fn).counts.diagLeft = steps ∧ (t.plot fn).counts.diagEntry.toNat = fieldOf v 0 13 ∧ (t.plot fn).step.phase = .diagnostic ∧
        (∀ c ∈ p.cores, (t.core c).step.main.next = fieldOf v 0 13 ∧ (t.core c).step.fill.stopped = true ∧ (t.core c).work = (s.core c).work) ∧ (t.plot fn).bell = p.bell ∧ (t.plot fn).place = p.place) ∧
    (p.place.state ≠ 5 ∨ p.counts.diagBusy = true ∨ steps = 0 → exec (.diagGo fn v) s = .next (ignoredAt s fn 0x1028))) ∧
  (∀ (s : State) (fn : Fn) (fault : Option DiagFault),
    let p := s.plot fn
    (p.counts.diagBusy = false → exec (.diagStep fn fault) s = .next s) ∧
    let bad : Prop := (∃ r ∈ s.attemptReports fn, r.cls = .program ∨ r.cls = .system) ∨ ∃ f, fault = some f ∧ (codeClass f.code 0 = .program ∨ codeClass f.code 0 = .system)
    let arrived : Prop := ∀ c ∈ p.cores, (s.core c).totals.arrived = true
    (p.counts.diagBusy = true → ¬ bad → ¬ arrived → exec (.diagStep fn fault) s = .next s) ∧
    (p.counts.diagBusy = true → bad ∨ arrived →
      ∃ t : State, exec (.diagStep fn fault) s = .next t ∧ (t.plot fn).bell = p.bell ∧ (t.plot fn).place = p.place ∧ (p.run.isOpen = false → (t.plot fn).run = p.run) ∧
        (bad ∨ p.counts.diagLeft ≤ 1 → (t.plot fn).counts.diagBusy = false ∧ (t.plot fn).step = { lastBell := p.step.lastBell, everRung := p.step.everRung }) ∧
        (¬ bad → 1 < p.counts.diagLeft →
          (t.plot fn).counts.diagBusy = true ∧ (t.plot fn).counts.diagLeft = p.counts.diagLeft - 1 ∧ (t.plot fn).step.phase = .diagnostic)))
end

