-- ==== Sys2Proof/Laws/AMap.lean ====
section
/-! SUPPORT. Laws of sparse maps: a read after a write, and the canonical form that every write keeps. The read laws hold of every list, canonical or not. -/

namespace Sys2Proof.Machine

variable {α : Type}

@[simp] theorem AMap.get_nil (d : α) (k : Nat) : AMap.get d [] k = d := rfl

theorem AMap.get_cons (d : α) (a : Nat) (v : α) (m : AMap α) (k : Nat) : AMap.get d ((a, v) :: m) k = if a = k then v else AMap.get d m k := rfl

@[simp] theorem AMap.get_set_same (d : α) (m : AMap α) (k : Nat) (v : α) : AMap.get d (AMap.set m k v) k = v := by
  induction m with
  | nil => simp [AMap.set, AMap.get]
  | cons e m ih =>
    obtain ⟨a, x⟩ := e
    simp only [AMap.set]
    split
    · simp [AMap.get]
    · split
      · simp [AMap.get]
      · simp [AMap.get, *]

theorem AMap.get_set_ne (d : α) (m : AMap α) {k j : Nat} (v : α) (h : j ≠ k) : AMap.get d (AMap.set m k v) j = AMap.get d m j := by
  induction m with
  | nil => simp [AMap.set, AMap.get, Ne.symm h]
  | cons e m ih =>
    obtain ⟨a, x⟩ := e
    simp only [AMap.set]
    split
    · next he => subst he; simp [AMap.get, Ne.symm h]
    · split
      · simp [AMap.get, Ne.symm h]
      · simp [AMap.get, ih]

@[simp] theorem AMap.get_erase_same (d : α) (m : AMap α) (k : Nat) : AMap.get d (AMap.erase m k) k = d := by
  induction m with
  | nil => rfl
  | cons e m ih =>
    obtain ⟨a, x⟩ := e
    simp only [AMap.erase]
    split <;> simp [AMap.get, *]

theorem AMap.get_erase_ne (d : α) (m : AMap α) {k j : Nat} (h : j ≠ k) : AMap.get d (AMap.erase m k) j = AMap.get d m j := by
  induction m with
  | nil => rfl
  | cons e m ih =>
    obtain ⟨a, x⟩ := e
    simp only [AMap.erase]
    split
    · next he => subst he; simp [AMap.get, ih, Ne.symm h]
    · simp [AMap.get, ih]

section Put

variable [DecidableEq α]

/-- A read after a write to the same key gives the value written. -/
@[simp] theorem AMap.get_put_same (d : α) (m : AMap α) (k : Nat) (v : α) : AMap.get d (AMap.put d m k v) k = v := by
  unfold AMap.put
  split <;> simp [*]

/-- A write leaves every other key alone. -/
theorem AMap.get_put_ne (d : α) (m : AMap α) {k j : Nat} (v : α) (h : j ≠ k) : AMap.get d (AMap.put d m k v) j = AMap.get d m j := by
  unfold AMap.put
  split
  · exact AMap.get_erase_ne d m h
  · exact AMap.get_set_ne d m v h

theorem AMap.get_put (d : α) (m : AMap α) (k j : Nat) (v : α) : AMap.get d (AMap.put d m k v) j = if j = k then v else AMap.get d m j := by
  split
  · next h => rw [h, AMap.get_put_same]
  · next h => exact AMap.get_put_ne d m v h

end Put

/-! ### What is listed -/

/-- What a map reads as is listed, or the default. -/
theorem AMap.get_mem (d : α) (m : AMap α) (k : Nat) : AMap.get d m k = d ∨ (k, AMap.get d m k) ∈ m := by
  induction m with
  | nil => exact .inl rfl
  | cons e m ih =>
    obtain ⟨a, x⟩ := e
    simp only [AMap.get]
    split
    · next h => subst h; simp
    · rcases ih with h | h
      · exact .inl h
      · exact .inr (List.mem_cons_of_mem _ h)

theorem AMap.mem_erase {m : AMap α} {k : Nat} {e : Nat × α} (h : e ∈ AMap.erase m k) : e ∈ m ∧ e.1 ≠ k := by
  induction m with
  | nil => simp [AMap.erase] at h
  | cons a m ih =>
    obtain ⟨a, x⟩ := a
    simp only [AMap.erase] at h
    split at h
    · next => exact ⟨List.mem_cons_of_mem _ (ih h).1, (ih h).2⟩
    · next hne =>
      rcases List.mem_cons.1 h with rfl | h
      · exact ⟨by simp, hne⟩
      · exact ⟨List.mem_cons_of_mem _ (ih h).1, (ih h).2⟩

theorem AMap.mem_set {m : AMap α} {k : Nat} {v : α} {e : Nat × α} (h : e ∈ AMap.set m k v) : e = (k, v) ∨ e ∈ m := by
  induction m with
  | nil => simpa [AMap.set] using h
  | cons a m ih =>
    obtain ⟨a, x⟩ := a
    simp only [AMap.set] at h
    split at h
    · rcases List.mem_cons.1 h with rfl | h
      · exact .inl rfl
      · exact .inr (List.mem_cons_of_mem _ h)
    · split at h
      · rcases List.mem_cons.1 h with rfl | h
        · exact .inl rfl
        · exact .inr h
      · rcases List.mem_cons.1 h with rfl | h
        · exact .inr (by simp)
        · rcases ih h with h | h
          · exact .inl h
          · exact .inr (List.mem_cons_of_mem _ h)

/-- What a write leaves listed was listed before, or is what was written. -/
theorem AMap.mem_put [DecidableEq α] {d : α} {m : AMap α} {k : Nat} {v : α} {e : Nat × α} (h : e ∈ AMap.put d m k v) : e = (k, v) ∨ e ∈ m := by
  unfold AMap.put at h
  split at h
  · exact .inr (AMap.mem_erase h).1
  · exact AMap.mem_set h

/-! ### The canonical form -/

theorem AMap.rising_iff {m : AMap α} : AMap.rising m = true ↔ m.Pairwise (fun a b => a.1 < b.1) := by
  induction m with
  | nil => simp [AMap.rising]
  | cons a m ih =>
    obtain ⟨a, x⟩ := a
    cases m with
    | nil => simp [AMap.rising]
    | cons b m =>
      obtain ⟨b, y⟩ := b
      simp only [AMap.rising, Bool.and_eq_true, decide_eq_true_eq, ih]
      constructor
      · rintro ⟨hab, hp⟩
        refine List.pairwise_cons.2 ⟨?_, hp⟩
        intro e he
        rcases List.mem_cons.1 he with rfl | he
        · exact hab
        · exact Nat.lt_trans hab ((List.pairwise_cons.1 hp).1 e he)
      · intro hp
        exact ⟨(List.pairwise_cons.1 hp).1 (b, y) (by simp), (List.pairwise_cons.1 hp).2⟩

/-- The canonical form, as propositions. -/
theorem AMap.wf_iff [DecidableEq α] {d : α} {m : AMap α} : AMap.wf d m = true ↔ m.Pairwise (fun a b => a.1 < b.1) ∧ ∀ e ∈ m, e.2 ≠ d := by
  simp [AMap.wf, AMap.rising_iff]

theorem AMap.erase_sublist (m : AMap α) (k : Nat) : (AMap.erase m k).Sublist m := by
  induction m with
  | nil => exact List.Sublist.refl _
  | cons a m ih =>
    obtain ⟨a, x⟩ := a
    simp only [AMap.erase]
    split
    · exact ih.cons _
    · exact ih.cons_cons _

theorem AMap.set_pairwise {m : AMap α} (k : Nat) (v : α) (h : m.Pairwise (fun a b => a.1 < b.1)) : (AMap.set m k v).Pairwise (fun a b => a.1 < b.1) := by
  induction m with
  | nil => simp [AMap.set]
  | cons a m ih =>
    obtain ⟨a, x⟩ := a
    obtain ⟨ha, hm⟩ := List.pairwise_cons.1 h
    simp only [AMap.set]
    split
    · next he => subst he; exact List.pairwise_cons.2 ⟨ha, hm⟩
    · next hne =>
      split
      · next hlt =>
        refine List.pairwise_cons.2 ⟨?_, h⟩
        intro e he
        rcases List.mem_cons.1 he with rfl | he
        · exact hlt
        · exact Nat.lt_trans hlt (ha e he)
      · next hnlt =>
        refine List.pairwise_cons.2 ⟨?_, ih hm⟩
        intro e he
        rcases AMap.mem_set he with rfl | he
        · exact Nat.lt_of_le_of_ne (Nat.le_of_not_lt hnlt) hne
        · exact ha e he

section Wf

variable [DecidableEq α]

@[simp] theorem AMap.wf_nil (d : α) : AMap.wf d [] = true := rfl

/-- Part of a canonical map is canonical. -/
theorem AMap.wf_sublist {d : α} {m n : AMap α} (h : AMap.wf d m = true) (hs : n.Sublist m) : AMap.wf d n = true := by
  rw [AMap.wf_iff] at *
  exact ⟨h.1.sublist hs, fun e he => h.2 e (hs.subset he)⟩

/-- A write keeps the canonical form. -/
theorem AMap.wf_put {d : α} {m : AMap α} (k : Nat) (v : α) (h : AMap.wf d m = true) : AMap.wf d (AMap.put d m k v) = true := by
  unfold AMap.put
  split
  · exact AMap.wf_sublist h (AMap.erase_sublist m k)
  · next hv =>
    rw [AMap.wf_iff] at *
    refine ⟨AMap.set_pairwise k v h.1, ?_⟩
    intro e he
    rcases AMap.mem_set he with rfl | he
    · exact hv
    · exact h.2 e he

theorem AMap.wf_filter {d : α} {m : AMap α} (f : Nat × α → Bool) (h : AMap.wf d m = true) : AMap.wf d (m.filter f) = true :=
  AMap.wf_sublist h List.filter_sublist

/-- Any number of writes keep the canonical form. -/
theorem AMap.wf_foldl {β : Type} {d : α} {m : AMap α} (l : List β) (f : AMap α → β → AMap α) (h : AMap.wf d m = true)
    (hf : ∀ n x, AMap.wf d n = true → AMap.wf d (f n x) = true) : AMap.wf d (l.foldl f m) = true := by
  induction l generalizing m with
  | nil => exact h
  | cons x l ih => exact ih (hf m x h)

end Wf

end Sys2Proof.Machine
end

