-- ==== Sys2Proof/Laws/State.lean ====
section
/-! SUPPORT. What each update of the state and of a core leaves: one lemma for each field and each update, and the reads after the writes. -/

namespace Sys2Proof.Machine

variable (s : State)

/-! ### Updates that are written over others -/

@[simp] theorem State.modCore_eq (c : CoreId) (f : CoreState → CoreState) : s.modCore c f = s.setCore c (f (s.core c)) := rfl
@[simp] theorem State.modPlot_eq (f : Fn) (g : Plot → Plot) : s.modPlot f g = s.setPlot f (g (s.plot f)) := rfl

/-! ### Fields of the state -/

@[simp] theorem State.setCore_grade (c : CoreId) (v : CoreState) : (s.setCore c v).grade = s.grade := rfl
@[simp] theorem State.setCore_hub (c : CoreId) (v : CoreState) : (s.setCore c v).hub = s.hub := rfl
@[simp] theorem State.setCore_fields (c : CoreId) (v : CoreState) : (s.setCore c v).fields = s.fields := rfl
@[simp] theorem State.setCore_fieldHold (c : CoreId) (v : CoreState) : (s.setCore c v).fieldHold = s.fieldHold := rfl
@[simp] theorem State.setCore_edges (c : CoreId) (v : CoreState) : (s.setCore c v).edges = s.edges := rfl
@[simp] theorem State.setCore_plots (c : CoreId) (v : CoreState) : (s.setCore c v).plots = s.plots := rfl
@[simp] theorem State.setCore_channels (c : CoreId) (v : CoreState) : (s.setCore c v).channels = s.channels := rfl
@[simp] theorem State.setCore_mesh (c : CoreId) (v : CoreState) : (s.setCore c v).mesh = s.mesh := rfl
@[simp] theorem State.setCore_commons (c : CoreId) (v : CoreState) : (s.setCore c v).commons = s.commons := rfl
@[simp] theorem State.setCore_ports (c : CoreId) (v : CoreState) : (s.setCore c v).ports = s.ports := rfl
@[simp] theorem State.setCore_system (c : CoreId) (v : CoreState) : (s.setCore c v).system = s.system := rfl
@[simp] theorem State.setCore_pending (c : CoreId) (v : CoreState) : (s.setCore c v).pending = s.pending := rfl
@[simp] theorem State.setPlot_grade (f : Fn) (v : Plot) : (s.setPlot f v).grade = s.grade := rfl
@[simp] theorem State.setPlot_hub (f : Fn) (v : Plot) : (s.setPlot f v).hub = s.hub := rfl
@[simp] theorem State.setPlot_fields (f : Fn) (v : Plot) : (s.setPlot f v).fields = s.fields := rfl
@[simp] theorem State.setPlot_fieldHold (f : Fn) (v : Plot) : (s.setPlot f v).fieldHold = s.fieldHold := rfl
@[simp] theorem State.setPlot_edges (f : Fn) (v : Plot) : (s.setPlot f v).edges = s.edges := rfl
@[simp] theorem State.setPlot_cores (f : Fn) (v : Plot) : (s.setPlot f v).cores = s.cores := rfl
@[simp] theorem State.setPlot_channels (f : Fn) (v : Plot) : (s.setPlot f v).channels = s.channels := rfl
@[simp] theorem State.setPlot_mesh (f : Fn) (v : Plot) : (s.setPlot f v).mesh = s.mesh := rfl
@[simp] theorem State.setPlot_commons (f : Fn) (v : Plot) : (s.setPlot f v).commons = s.commons := rfl
@[simp] theorem State.setPlot_ports (f : Fn) (v : Plot) : (s.setPlot f v).ports = s.ports := rfl
@[simp] theorem State.setPlot_system (f : Fn) (v : Plot) : (s.setPlot f v).system = s.system := rfl
@[simp] theorem State.setPlot_pending (f : Fn) (v : Plot) : (s.setPlot f v).pending = s.pending := rfl
@[simp] theorem State.setChannel_grade (h : ChanId) (v : Channel) : (s.setChannel h v).grade = s.grade := rfl
@[simp] theorem State.setChannel_hub (h : ChanId) (v : Channel) : (s.setChannel h v).hub = s.hub := rfl
@[simp] theorem State.setChannel_fields (h : ChanId) (v : Channel) : (s.setChannel h v).fields = s.fields := rfl
@[simp] theorem State.setChannel_fieldHold (h : ChanId) (v : Channel) : (s.setChannel h v).fieldHold = s.fieldHold := rfl
@[simp] theorem State.setChannel_edges (h : ChanId) (v : Channel) : (s.setChannel h v).edges = s.edges := rfl
@[simp] theorem State.setChannel_cores (h : ChanId) (v : Channel) : (s.setChannel h v).cores = s.cores := rfl
@[simp] theorem State.setChannel_plots (h : ChanId) (v : Channel) : (s.setChannel h v).plots = s.plots := rfl
@[simp] theorem State.setChannel_mesh (h : ChanId) (v : Channel) : (s.setChannel h v).mesh = s.mesh := rfl
@[simp] theorem State.setChannel_commons (h : ChanId) (v : Channel) : (s.setChannel h v).commons = s.commons := rfl
@[simp] theorem State.setChannel_ports (h : ChanId) (v : Channel) : (s.setChannel h v).ports = s.ports := rfl
@[simp] theorem State.setChannel_system (h : ChanId) (v : Channel) : (s.setChannel h v).system = s.system := rfl
@[simp] theorem State.setChannel_pending (h : ChanId) (v : Channel) : (s.setChannel h v).pending = s.pending := rfl
@[simp] theorem State.setField_grade (d : FieldId) (v : Field) : (s.setField d v).grade = s.grade := rfl
@[simp] theorem State.setField_hub (d : FieldId) (v : Field) : (s.setField d v).hub = s.hub := rfl
@[simp] theorem State.setField_fieldHold (d : FieldId) (v : Field) : (s.setField d v).fieldHold = s.fieldHold := rfl
@[simp] theorem State.setField_edges (d : FieldId) (v : Field) : (s.setField d v).edges = s.edges := rfl
@[simp] theorem State.setField_cores (d : FieldId) (v : Field) : (s.setField d v).cores = s.cores := rfl
@[simp] theorem State.setField_plots (d : FieldId) (v : Field) : (s.setField d v).plots = s.plots := rfl
@[simp] theorem State.setField_channels (d : FieldId) (v : Field) : (s.setField d v).channels = s.channels := rfl
@[simp] theorem State.setField_mesh (d : FieldId) (v : Field) : (s.setField d v).mesh = s.mesh := rfl
@[simp] theorem State.setField_commons (d : FieldId) (v : Field) : (s.setField d v).commons = s.commons := rfl
@[simp] theorem State.setField_ports (d : FieldId) (v : Field) : (s.setField d v).ports = s.ports := rfl
@[simp] theorem State.setField_system (d : FieldId) (v : Field) : (s.setField d v).system = s.system := rfl
@[simp] theorem State.setField_pending (d : FieldId) (v : Field) : (s.setField d v).pending = s.pending := rfl
@[simp] theorem State.setPort_grade (q : PortId) (v : Port) : (s.setPort q v).grade = s.grade := rfl
@[simp] theorem State.setPort_hub (q : PortId) (v : Port) : (s.setPort q v).hub = s.hub := rfl
@[simp] theorem State.setPort_fields (q : PortId) (v : Port) : (s.setPort q v).fields = s.fields := rfl
@[simp] theorem State.setPort_fieldHold (q : PortId) (v : Port) : (s.setPort q v).fieldHold = s.fieldHold := rfl
@[simp] theorem State.setPort_edges (q : PortId) (v : Port) : (s.setPort q v).edges = s.edges := rfl
@[simp] theorem State.setPort_cores (q : PortId) (v : Port) : (s.setPort q v).cores = s.cores := rfl
@[simp] theorem State.setPort_plots (q : PortId) (v : Port) : (s.setPort q v).plots = s.plots := rfl
@[simp] theorem State.setPort_channels (q : PortId) (v : Port) : (s.setPort q v).channels = s.channels := rfl
@[simp] theorem State.setPort_mesh (q : PortId) (v : Port) : (s.setPort q v).mesh = s.mesh := rfl
@[simp] theorem State.setPort_commons (q : PortId) (v : Port) : (s.setPort q v).commons = s.commons := rfl
@[simp] theorem State.setPort_system (q : PortId) (v : Port) : (s.setPort q v).system = s.system := rfl
@[simp] theorem State.setPort_pending (q : PortId) (v : Port) : (s.setPort q v).pending = s.pending := rfl
@[simp] theorem State.modHub_grade (g : Hub → Hub) : (s.modHub g).grade = s.grade := rfl
@[simp] theorem State.modHub_fields (g : Hub → Hub) : (s.modHub g).fields = s.fields := rfl
@[simp] theorem State.modHub_fieldHold (g : Hub → Hub) : (s.modHub g).fieldHold = s.fieldHold := rfl
@[simp] theorem State.modHub_edges (g : Hub → Hub) : (s.modHub g).edges = s.edges := rfl
@[simp] theorem State.modHub_cores (g : Hub → Hub) : (s.modHub g).cores = s.cores := rfl
@[simp] theorem State.modHub_plots (g : Hub → Hub) : (s.modHub g).plots = s.plots := rfl
@[simp] theorem State.modHub_channels (g : Hub → Hub) : (s.modHub g).channels = s.channels := rfl
@[simp] theorem State.modHub_mesh (g : Hub → Hub) : (s.modHub g).mesh = s.mesh := rfl
@[simp] theorem State.modHub_commons (g : Hub → Hub) : (s.modHub g).commons = s.commons := rfl
@[simp] theorem State.modHub_ports (g : Hub → Hub) : (s.modHub g).ports = s.ports := rfl
@[simp] theorem State.modHub_system (g : Hub → Hub) : (s.modHub g).system = s.system := rfl
@[simp] theorem State.modHub_pending (g : Hub → Hub) : (s.modHub g).pending = s.pending := rfl
@[simp] theorem State.modHub_hub (g : Hub → Hub) : (s.modHub g).hub = g s.hub := rfl

/-! ### Parts of the state -/

@[simp] theorem State.setPlot_core (f : Fn) (v : Plot) (a : CoreId) : (s.setPlot f v).core a = s.core a := rfl
@[simp] theorem State.setChannel_core (h : ChanId) (v : Channel) (a : CoreId) : (s.setChannel h v).core a = s.core a := rfl
@[simp] theorem State.setField_core (d : FieldId) (v : Field) (a : CoreId) : (s.setField d v).core a = s.core a := rfl
@[simp] theorem State.setPort_core (q : PortId) (v : Port) (a : CoreId) : (s.setPort q v).core a = s.core a := rfl
@[simp] theorem State.modHub_core (g : Hub → Hub) (a : CoreId) : (s.modHub g).core a = s.core a := rfl
@[simp] theorem State.setCore_plot (c : CoreId) (v : CoreState) (a : Fn) : (s.setCore c v).plot a = s.plot a := rfl
@[simp] theorem State.setChannel_plot (h : ChanId) (v : Channel) (a : Fn) : (s.setChannel h v).plot a = s.plot a := rfl
@[simp] theorem State.setField_plot (d : FieldId) (v : Field) (a : Fn) : (s.setField d v).plot a = s.plot a := rfl
@[simp] theorem State.setPort_plot (q : PortId) (v : Port) (a : Fn) : (s.setPort q v).plot a = s.plot a := rfl
@[simp] theorem State.modHub_plot (g : Hub → Hub) (a : Fn) : (s.modHub g).plot a = s.plot a := rfl
@[simp] theorem State.setCore_channel (c : CoreId) (v : CoreState) (a : ChanId) : (s.setCore c v).channel a = s.channel a := rfl
@[simp] theorem State.setPlot_channel (f : Fn) (v : Plot) (a : ChanId) : (s.setPlot f v).channel a = s.channel a := rfl
@[simp] theorem State.setField_channel (d : FieldId) (v : Field) (a : ChanId) : (s.setField d v).channel a = s.channel a := rfl
@[simp] theorem State.setPort_channel (q : PortId) (v : Port) (a : ChanId) : (s.setPort q v).channel a = s.channel a := rfl
@[simp] theorem State.modHub_channel (g : Hub → Hub) (a : ChanId) : (s.modHub g).channel a = s.channel a := rfl
@[simp] theorem State.setCore_field (c : CoreId) (v : CoreState) (a : FieldId) : (s.setCore c v).field a = s.field a := rfl
@[simp] theorem State.setPlot_field (f : Fn) (v : Plot) (a : FieldId) : (s.setPlot f v).field a = s.field a := rfl
@[simp] theorem State.setChannel_field (h : ChanId) (v : Channel) (a : FieldId) : (s.setChannel h v).field a = s.field a := rfl
@[simp] theorem State.setPort_field (q : PortId) (v : Port) (a : FieldId) : (s.setPort q v).field a = s.field a := rfl
@[simp] theorem State.modHub_field (g : Hub → Hub) (a : FieldId) : (s.modHub g).field a = s.field a := rfl
@[simp] theorem State.setCore_port (c : CoreId) (v : CoreState) (a : PortId) : (s.setCore c v).port a = s.port a := rfl
@[simp] theorem State.setPlot_port (f : Fn) (v : Plot) (a : PortId) : (s.setPlot f v).port a = s.port a := rfl
@[simp] theorem State.setChannel_port (h : ChanId) (v : Channel) (a : PortId) : (s.setChannel h v).port a = s.port a := rfl
@[simp] theorem State.setField_port (d : FieldId) (v : Field) (a : PortId) : (s.setField d v).port a = s.port a := rfl
@[simp] theorem State.modHub_port (g : Hub → Hub) (a : PortId) : (s.modHub g).port a = s.port a := rfl
@[simp] theorem State.setCore_hasCore (c : CoreId) (v : CoreState) (a : CoreId) : (s.setCore c v).hasCore a = s.hasCore a := rfl
@[simp] theorem State.setPlot_hasCore (f : Fn) (v : Plot) (a : CoreId) : (s.setPlot f v).hasCore a = s.hasCore a := rfl
@[simp] theorem State.setChannel_hasCore (h : ChanId) (v : Channel) (a : CoreId) : (s.setChannel h v).hasCore a = s.hasCore a := rfl
@[simp] theorem State.setField_hasCore (d : FieldId) (v : Field) (a : CoreId) : (s.setField d v).hasCore a = s.hasCore a := rfl
@[simp] theorem State.setPort_hasCore (q : PortId) (v : Port) (a : CoreId) : (s.setPort q v).hasCore a = s.hasCore a := rfl
@[simp] theorem State.modHub_hasCore (g : Hub → Hub) (a : CoreId) : (s.modHub g).hasCore a = s.hasCore a := rfl

/-- The core that an update wrote. -/
@[simp] theorem State.setCore_core_same (a : CoreId) (v : CoreState) : (s.setCore a v).core a = v := by
  simp [State.setCore, State.core]

/-- Every other core stands. -/
theorem State.setCore_core_ne {a b : CoreId} (v : CoreState) (h : b ≠ a) : (s.setCore a v).core b = s.core b := by
  simp only [State.setCore, State.core]
  exact AMap.get_put_ne _ _ _ (fun e => h (BitVec.eq_of_toNat_eq e))

/-- The plot that an update wrote. -/
@[simp] theorem State.setPlot_plot_same (a : Fn) (v : Plot) : (s.setPlot a v).plot a = v := by
  simp [State.setPlot, State.plot]

/-- Every other plot stands. -/
theorem State.setPlot_plot_ne {a b : Fn} (v : Plot) (h : b ≠ a) : (s.setPlot a v).plot b = s.plot b := by
  simp only [State.setPlot, State.plot]
  exact AMap.get_put_ne _ _ _ (fun e => h (BitVec.eq_of_toNat_eq e))

/-- The channel that an update wrote. -/
@[simp] theorem State.setChannel_channel_same (a : ChanId) (v : Channel) : (s.setChannel a v).channel a = v := by
  simp [State.setChannel, State.channel]

/-- Every other channel stands. -/
theorem State.setChannel_channel_ne {a b : ChanId} (v : Channel) (h : b ≠ a) : (s.setChannel a v).channel b = s.channel b := by
  simp only [State.setChannel, State.channel]
  exact AMap.get_put_ne _ _ _ (fun e => h (BitVec.eq_of_toNat_eq e))

/-- The field that an update wrote. -/
@[simp] theorem State.setField_field_same (a : FieldId) (v : Field) : (s.setField a v).field a = v := by
  simp [State.setField, State.field]

/-- Every other field stands. -/
theorem State.setField_field_ne {a b : FieldId} (v : Field) (h : b ≠ a) : (s.setField a v).field b = s.field b := by
  simp only [State.setField, State.field]
  exact AMap.get_put_ne _ _ _ (fun e => h (BitVec.eq_of_toNat_eq e))

/-- The port that an update wrote. -/
@[simp] theorem State.setPort_port_same (a : PortId) (v : Port) : (s.setPort a v).port a = v := by
  simp [State.setPort, State.port]

/-- Every other port stands. -/
theorem State.setPort_port_ne {a b : PortId} (v : Port) (h : b ≠ a) : (s.setPort a v).port b = s.port b := by
  simp only [State.setPort, State.port]
  exact AMap.get_put_ne _ _ _ (fun e => h (BitVec.eq_of_toNat_eq e))

/-! ### Fields of a core -/

variable (c : CoreState)

@[simp] theorem CoreState.setDseq_image (n : Nat) (v : BitVec 27) : (c.setDseq n v).image = c.image := rfl
@[simp] theorem CoreState.setDseq_tables (n : Nat) (v : BitVec 27) : (c.setDseq n v).tables = c.tables := rfl
@[simp] theorem CoreState.setDseq_step (n : Nat) (v : BitVec 27) : (c.setDseq n v).step = c.step := rfl
@[simp] theorem CoreState.setDseq_traffic (n : Nat) (v : BitVec 27) : (c.setDseq n v).traffic = c.traffic := rfl
@[simp] theorem CoreState.setDseq_totals (n : Nat) (v : BitVec 27) : (c.setDseq n v).totals = c.totals := rfl
@[simp] theorem CoreState.setDseq_scrub (n : Nat) (v : BitVec 27) : (c.setDseq n v).scrub = c.scrub := rfl
@[simp] theorem CoreState.setDseq_scr (n : Nat) (v : BitVec 27) : (c.setDseq n v).scr = c.scr := rfl
@[simp] theorem CoreState.setDseq_mesh (n : Nat) (v : BitVec 27) : (c.setDseq n v).mesh = c.mesh := rfl
@[simp] theorem CoreState.setDseq_array (n : Nat) (v : BitVec 27) : (c.setDseq n v).array = c.array := rfl
@[simp] theorem CoreState.setDseq_owner (n : Nat) (v : BitVec 27) : (c.setDseq n v).owner = c.owner := rfl
@[simp] theorem CoreState.setDseq_clearing (n : Nat) (v : BitVec 27) : (c.setDseq n v).clearing = c.clearing := rfl
@[simp] theorem CoreState.setDseq_checkPending (n : Nat) (v : BitVec 27) : (c.setDseq n v).checkPending = c.checkPending := rfl
@[simp] theorem CoreState.setDseq_viewTallies (n : Nat) (v : BitVec 27) : (c.setDseq n v).viewTallies = c.viewTallies := rfl
@[simp] theorem CoreState.setDseq_viewMail (n : Nat) (v : BitVec 27) : (c.setDseq n v).viewMail = c.viewMail := rfl
@[simp] theorem CoreState.writeV_image (r : BitVec 5) (v : VReg) : (c.writeV r v).image = c.image := rfl
@[simp] theorem CoreState.writeV_tables (r : BitVec 5) (v : VReg) : (c.writeV r v).tables = c.tables := rfl
@[simp] theorem CoreState.writeV_step (r : BitVec 5) (v : VReg) : (c.writeV r v).step = c.step := rfl
@[simp] theorem CoreState.writeV_traffic (r : BitVec 5) (v : VReg) : (c.writeV r v).traffic = c.traffic := rfl
@[simp] theorem CoreState.writeV_totals (r : BitVec 5) (v : VReg) : (c.writeV r v).totals = c.totals := rfl
@[simp] theorem CoreState.writeV_scrub (r : BitVec 5) (v : VReg) : (c.writeV r v).scrub = c.scrub := rfl
@[simp] theorem CoreState.writeV_scr (r : BitVec 5) (v : VReg) : (c.writeV r v).scr = c.scr := rfl
@[simp] theorem CoreState.writeV_mesh (r : BitVec 5) (v : VReg) : (c.writeV r v).mesh = c.mesh := rfl
@[simp] theorem CoreState.writeV_array (r : BitVec 5) (v : VReg) : (c.writeV r v).array = c.array := rfl
@[simp] theorem CoreState.writeV_owner (r : BitVec 5) (v : VReg) : (c.writeV r v).owner = c.owner := rfl
@[simp] theorem CoreState.writeV_clearing (r : BitVec 5) (v : VReg) : (c.writeV r v).clearing = c.clearing := rfl
@[simp] theorem CoreState.writeV_checkPending (r : BitVec 5) (v : VReg) : (c.writeV r v).checkPending = c.checkPending := rfl
@[simp] theorem CoreState.writeV_viewTallies (r : BitVec 5) (v : VReg) : (c.writeV r v).viewTallies = c.viewTallies := rfl
@[simp] theorem CoreState.writeV_viewMail (r : BitVec 5) (v : VReg) : (c.writeV r v).viewMail = c.viewMail := rfl
@[simp] theorem CoreState.writeM_image (r : BitVec 3) (v : MReg) : (c.writeM r v).image = c.image := rfl
@[simp] theorem CoreState.writeM_tables (r : BitVec 3) (v : MReg) : (c.writeM r v).tables = c.tables := rfl
@[simp] theorem CoreState.writeM_step (r : BitVec 3) (v : MReg) : (c.writeM r v).step = c.step := rfl
@[simp] theorem CoreState.writeM_traffic (r : BitVec 3) (v : MReg) : (c.writeM r v).traffic = c.traffic := rfl
@[simp] theorem CoreState.writeM_totals (r : BitVec 3) (v : MReg) : (c.writeM r v).totals = c.totals := rfl
@[simp] theorem CoreState.writeM_scrub (r : BitVec 3) (v : MReg) : (c.writeM r v).scrub = c.scrub := rfl
@[simp] theorem CoreState.writeM_scr (r : BitVec 3) (v : MReg) : (c.writeM r v).scr = c.scr := rfl
@[simp] theorem CoreState.writeM_mesh (r : BitVec 3) (v : MReg) : (c.writeM r v).mesh = c.mesh := rfl
@[simp] theorem CoreState.writeM_array (r : BitVec 3) (v : MReg) : (c.writeM r v).array = c.array := rfl
@[simp] theorem CoreState.writeM_owner (r : BitVec 3) (v : MReg) : (c.writeM r v).owner = c.owner := rfl
@[simp] theorem CoreState.writeM_clearing (r : BitVec 3) (v : MReg) : (c.writeM r v).clearing = c.clearing := rfl
@[simp] theorem CoreState.writeM_checkPending (r : BitVec 3) (v : MReg) : (c.writeM r v).checkPending = c.checkPending := rfl
@[simp] theorem CoreState.writeM_viewTallies (r : BitVec 3) (v : MReg) : (c.writeM r v).viewTallies = c.viewTallies := rfl
@[simp] theorem CoreState.writeM_viewMail (r : BitVec 3) (v : MReg) : (c.writeM r v).viewMail = c.viewMail := rfl
@[simp] theorem CoreState.putByte_image (a : Nat) (v : Byte) : (c.putByte a v).image = c.image := rfl
@[simp] theorem CoreState.putByte_tables (a : Nat) (v : Byte) : (c.putByte a v).tables = c.tables := rfl
@[simp] theorem CoreState.putByte_step (a : Nat) (v : Byte) : (c.putByte a v).step = c.step := rfl
@[simp] theorem CoreState.putByte_traffic (a : Nat) (v : Byte) : (c.putByte a v).traffic = c.traffic := rfl
@[simp] theorem CoreState.putByte_totals (a : Nat) (v : Byte) : (c.putByte a v).totals = c.totals := rfl
@[simp] theorem CoreState.putByte_scrub (a : Nat) (v : Byte) : (c.putByte a v).scrub = c.scrub := rfl
@[simp] theorem CoreState.putByte_scr (a : Nat) (v : Byte) : (c.putByte a v).scr = c.scr := rfl
@[simp] theorem CoreState.putByte_mesh (a : Nat) (v : Byte) : (c.putByte a v).mesh = c.mesh := rfl
@[simp] theorem CoreState.putByte_array (a : Nat) (v : Byte) : (c.putByte a v).array = c.array := rfl
@[simp] theorem CoreState.putByte_owner (a : Nat) (v : Byte) : (c.putByte a v).owner = c.owner := rfl
@[simp] theorem CoreState.putByte_clearing (a : Nat) (v : Byte) : (c.putByte a v).clearing = c.clearing := rfl
@[simp] theorem CoreState.putByte_checkPending (a : Nat) (v : Byte) : (c.putByte a v).checkPending = c.checkPending := rfl
@[simp] theorem CoreState.putByte_viewTallies (a : Nat) (v : Byte) : (c.putByte a v).viewTallies = c.viewTallies := rfl
@[simp] theorem CoreState.putByte_viewMail (a : Nat) (v : Byte) : (c.putByte a v).viewMail = c.viewMail := rfl
@[simp] theorem CoreState.setWordClass_image (k : Nat) (w : Option WordClass) : (c.setWordClass k w).image = c.image := rfl
@[simp] theorem CoreState.setWordClass_tables (k : Nat) (w : Option WordClass) : (c.setWordClass k w).tables = c.tables := rfl
@[simp] theorem CoreState.setWordClass_step (k : Nat) (w : Option WordClass) : (c.setWordClass k w).step = c.step := rfl
@[simp] theorem CoreState.setWordClass_traffic (k : Nat) (w : Option WordClass) : (c.setWordClass k w).traffic = c.traffic := rfl
@[simp] theorem CoreState.setWordClass_totals (k : Nat) (w : Option WordClass) : (c.setWordClass k w).totals = c.totals := rfl
@[simp] theorem CoreState.setWordClass_scrub (k : Nat) (w : Option WordClass) : (c.setWordClass k w).scrub = c.scrub := rfl
@[simp] theorem CoreState.setWordClass_scr (k : Nat) (w : Option WordClass) : (c.setWordClass k w).scr = c.scr := rfl
@[simp] theorem CoreState.setWordClass_mesh (k : Nat) (w : Option WordClass) : (c.setWordClass k w).mesh = c.mesh := rfl
@[simp] theorem CoreState.setWordClass_array (k : Nat) (w : Option WordClass) : (c.setWordClass k w).array = c.array := rfl
@[simp] theorem CoreState.setWordClass_owner (k : Nat) (w : Option WordClass) : (c.setWordClass k w).owner = c.owner := rfl
@[simp] theorem CoreState.setWordClass_clearing (k : Nat) (w : Option WordClass) : (c.setWordClass k w).clearing = c.clearing := rfl
@[simp] theorem CoreState.setWordClass_checkPending (k : Nat) (w : Option WordClass) : (c.setWordClass k w).checkPending = c.checkPending := rfl
@[simp] theorem CoreState.setWordClass_viewTallies (k : Nat) (w : Option WordClass) : (c.setWordClass k w).viewTallies = c.viewTallies := rfl
@[simp] theorem CoreState.setWordClass_viewMail (k : Nat) (w : Option WordClass) : (c.setWordClass k w).viewMail = c.viewMail := rfl
@[simp] theorem CoreState.report_work (r : CoreReport) : (c.report r).work = c.work := rfl
@[simp] theorem CoreState.report_image (r : CoreReport) : (c.report r).image = c.image := rfl
@[simp] theorem CoreState.report_tables (r : CoreReport) : (c.report r).tables = c.tables := rfl
@[simp] theorem CoreState.report_step (r : CoreReport) : (c.report r).step = c.step := rfl
@[simp] theorem CoreState.report_totals (r : CoreReport) : (c.report r).totals = c.totals := rfl
@[simp] theorem CoreState.report_scrub (r : CoreReport) : (c.report r).scrub = c.scrub := rfl
@[simp] theorem CoreState.report_scr (r : CoreReport) : (c.report r).scr = c.scr := rfl
@[simp] theorem CoreState.report_mesh (r : CoreReport) : (c.report r).mesh = c.mesh := rfl
@[simp] theorem CoreState.report_array (r : CoreReport) : (c.report r).array = c.array := rfl
@[simp] theorem CoreState.report_owner (r : CoreReport) : (c.report r).owner = c.owner := rfl
@[simp] theorem CoreState.report_clearing (r : CoreReport) : (c.report r).clearing = c.clearing := rfl
@[simp] theorem CoreState.report_checkPending (r : CoreReport) : (c.report r).checkPending = c.checkPending := rfl
@[simp] theorem CoreState.report_viewTallies (r : CoreReport) : (c.report r).viewTallies = c.viewTallies := rfl
@[simp] theorem CoreState.report_viewMail (r : CoreReport) : (c.report r).viewMail = c.viewMail := rfl
@[simp] theorem CoreState.haltAfter_work (n : Nat) : (c.haltAfter n).work = c.work := rfl
@[simp] theorem CoreState.haltAfter_image (n : Nat) : (c.haltAfter n).image = c.image := rfl
@[simp] theorem CoreState.haltAfter_tables (n : Nat) : (c.haltAfter n).tables = c.tables := rfl
@[simp] theorem CoreState.haltAfter_traffic (n : Nat) : (c.haltAfter n).traffic = c.traffic := rfl
@[simp] theorem CoreState.haltAfter_totals (n : Nat) : (c.haltAfter n).totals = c.totals := rfl
@[simp] theorem CoreState.haltAfter_scrub (n : Nat) : (c.haltAfter n).scrub = c.scrub := rfl
@[simp] theorem CoreState.haltAfter_scr (n : Nat) : (c.haltAfter n).scr = c.scr := rfl
@[simp] theorem CoreState.haltAfter_mesh (n : Nat) : (c.haltAfter n).mesh = c.mesh := rfl
@[simp] theorem CoreState.haltAfter_array (n : Nat) : (c.haltAfter n).array = c.array := rfl
@[simp] theorem CoreState.haltAfter_owner (n : Nat) : (c.haltAfter n).owner = c.owner := rfl
@[simp] theorem CoreState.haltAfter_clearing (n : Nat) : (c.haltAfter n).clearing = c.clearing := rfl
@[simp] theorem CoreState.haltAfter_checkPending (n : Nat) : (c.haltAfter n).checkPending = c.checkPending := rfl
@[simp] theorem CoreState.haltAfter_viewTallies (n : Nat) : (c.haltAfter n).viewTallies = c.viewTallies := rfl
@[simp] theorem CoreState.haltAfter_viewMail (n : Nat) : (c.haltAfter n).viewMail = c.viewMail := rfl
@[simp] theorem CoreState.push_work (n : Nat) (e : CoreEv) : (c.push n e).work = c.work := rfl
@[simp] theorem CoreState.push_image (n : Nat) (e : CoreEv) : (c.push n e).image = c.image := rfl
@[simp] theorem CoreState.push_tables (n : Nat) (e : CoreEv) : (c.push n e).tables = c.tables := rfl
@[simp] theorem CoreState.push_traffic (n : Nat) (e : CoreEv) : (c.push n e).traffic = c.traffic := rfl
@[simp] theorem CoreState.push_totals (n : Nat) (e : CoreEv) : (c.push n e).totals = c.totals := rfl
@[simp] theorem CoreState.push_scrub (n : Nat) (e : CoreEv) : (c.push n e).scrub = c.scrub := rfl
@[simp] theorem CoreState.push_scr (n : Nat) (e : CoreEv) : (c.push n e).scr = c.scr := rfl
@[simp] theorem CoreState.push_mesh (n : Nat) (e : CoreEv) : (c.push n e).mesh = c.mesh := rfl
@[simp] theorem CoreState.push_array (n : Nat) (e : CoreEv) : (c.push n e).array = c.array := rfl
@[simp] theorem CoreState.push_owner (n : Nat) (e : CoreEv) : (c.push n e).owner = c.owner := rfl
@[simp] theorem CoreState.push_clearing (n : Nat) (e : CoreEv) : (c.push n e).clearing = c.clearing := rfl
@[simp] theorem CoreState.push_checkPending (n : Nat) (e : CoreEv) : (c.push n e).checkPending = c.checkPending := rfl
@[simp] theorem CoreState.push_viewTallies (n : Nat) (e : CoreEv) : (c.push n e).viewTallies = c.viewTallies := rfl
@[simp] theorem CoreState.push_viewMail (n : Nat) (e : CoreEv) : (c.push n e).viewMail = c.viewMail := rfl
@[simp] theorem CoreState.claim_work (cls : RegClass) (r n : Nat) (o : Origin) : (c.claim cls r n o).work = c.work := rfl
@[simp] theorem CoreState.claim_image (cls : RegClass) (r n : Nat) (o : Origin) : (c.claim cls r n o).image = c.image := rfl
@[simp] theorem CoreState.claim_tables (cls : RegClass) (r n : Nat) (o : Origin) : (c.claim cls r n o).tables = c.tables := rfl
@[simp] theorem CoreState.claim_traffic (cls : RegClass) (r n : Nat) (o : Origin) : (c.claim cls r n o).traffic = c.traffic := rfl
@[simp] theorem CoreState.claim_totals (cls : RegClass) (r n : Nat) (o : Origin) : (c.claim cls r n o).totals = c.totals := rfl
@[simp] theorem CoreState.claim_scrub (cls : RegClass) (r n : Nat) (o : Origin) : (c.claim cls r n o).scrub = c.scrub := rfl
@[simp] theorem CoreState.claim_scr (cls : RegClass) (r n : Nat) (o : Origin) : (c.claim cls r n o).scr = c.scr := rfl
@[simp] theorem CoreState.claim_mesh (cls : RegClass) (r n : Nat) (o : Origin) : (c.claim cls r n o).mesh = c.mesh := rfl
@[simp] theorem CoreState.claim_array (cls : RegClass) (r n : Nat) (o : Origin) : (c.claim cls r n o).array = c.array := rfl
@[simp] theorem CoreState.claim_owner (cls : RegClass) (r n : Nat) (o : Origin) : (c.claim cls r n o).owner = c.owner := rfl
@[simp] theorem CoreState.claim_clearing (cls : RegClass) (r n : Nat) (o : Origin) : (c.claim cls r n o).clearing = c.clearing := rfl
@[simp] theorem CoreState.claim_checkPending (cls : RegClass) (r n : Nat) (o : Origin) : (c.claim cls r n o).checkPending = c.checkPending := rfl
@[simp] theorem CoreState.claim_viewTallies (cls : RegClass) (r n : Nat) (o : Origin) : (c.claim cls r n o).viewTallies = c.viewTallies := rfl
@[simp] theorem CoreState.claim_viewMail (cls : RegClass) (r n : Nat) (o : Origin) : (c.claim cls r n o).viewMail = c.viewMail := rfl
@[simp] theorem CoreState.foldCheck_work (k : Nat) (m : Byte) (d : Word) (b : Bool) (l : Nat) : (c.foldCheck k m d b l).work = c.work := rfl
@[simp] theorem CoreState.foldCheck_image (k : Nat) (m : Byte) (d : Word) (b : Bool) (l : Nat) : (c.foldCheck k m d b l).image = c.image := rfl
@[simp] theorem CoreState.foldCheck_tables (k : Nat) (m : Byte) (d : Word) (b : Bool) (l : Nat) : (c.foldCheck k m d b l).tables = c.tables := rfl
@[simp] theorem CoreState.foldCheck_step (k : Nat) (m : Byte) (d : Word) (b : Bool) (l : Nat) : (c.foldCheck k m d b l).step = c.step := rfl
@[simp] theorem CoreState.foldCheck_traffic (k : Nat) (m : Byte) (d : Word) (b : Bool) (l : Nat) : (c.foldCheck k m d b l).traffic = c.traffic := rfl
@[simp] theorem CoreState.foldCheck_scrub (k : Nat) (m : Byte) (d : Word) (b : Bool) (l : Nat) : (c.foldCheck k m d b l).scrub = c.scrub := rfl
@[simp] theorem CoreState.foldCheck_scr (k : Nat) (m : Byte) (d : Word) (b : Bool) (l : Nat) : (c.foldCheck k m d b l).scr = c.scr := rfl
@[simp] theorem CoreState.foldCheck_mesh (k : Nat) (m : Byte) (d : Word) (b : Bool) (l : Nat) : (c.foldCheck k m d b l).mesh = c.mesh := rfl
@[simp] theorem CoreState.foldCheck_array (k : Nat) (m : Byte) (d : Word) (b : Bool) (l : Nat) : (c.foldCheck k m d b l).array = c.array := rfl
@[simp] theorem CoreState.foldCheck_owner (k : Nat) (m : Byte) (d : Word) (b : Bool) (l : Nat) : (c.foldCheck k m d b l).owner = c.owner := rfl
@[simp] theorem CoreState.foldCheck_clearing (k : Nat) (m : Byte) (d : Word) (b : Bool) (l : Nat) : (c.foldCheck k m d b l).clearing = c.clearing := rfl
@[simp] theorem CoreState.foldCheck_checkPending (k : Nat) (m : Byte) (d : Word) (b : Bool) (l : Nat) : (c.foldCheck k m d b l).checkPending = c.checkPending := rfl
@[simp] theorem CoreState.foldCheck_viewTallies (k : Nat) (m : Byte) (d : Word) (b : Bool) (l : Nat) : (c.foldCheck k m d b l).viewTallies = c.viewTallies := rfl
@[simp] theorem CoreState.foldCheck_viewMail (k : Nat) (m : Byte) (d : Word) (b : Bool) (l : Nat) : (c.foldCheck k m d b l).viewMail = c.viewMail := rfl

/-! ### Registers (R162, R197) -/

@[simp] theorem CoreState.readS_zero : c.readS 0 = 0 := rfl
@[simp] theorem CoreState.readA_zero : c.readA 0 = 0 := rfl
@[simp] theorem CoreState.writeS_zero (v : Word) : c.writeS 0 v = c := rfl
@[simp] theorem CoreState.writeA_zero (v : BitVec 32) : c.writeA 0 v = c := rfl

@[simp] theorem CoreState.keyWritten_s (r : BitVec 5) : (c.keyWritten r).work.s = c.work.s := by
  unfold CoreState.keyWritten
  split
  · rfl
  · split <;> rfl

/-- A scalar register other than S0 reads as written. -/
theorem CoreState.readS_writeS_same {r : BitVec 5} (v : Word) (h : r ≠ 0) : (c.writeS r v).readS r = v := by
  unfold CoreState.writeS CoreState.readS
  rw [if_neg h, if_neg h, CoreState.keyWritten_s, AMap.get_put_same]

/-- A write leaves every other scalar register alone. -/
theorem CoreState.readS_writeS_ne {r q : BitVec 5} (v : Word) (h : q ≠ r) : (c.writeS r v).readS q = c.readS q := by
  unfold CoreState.writeS CoreState.readS
  by_cases hr : r = 0
  · rw [if_pos hr]
  · rw [if_neg hr, CoreState.keyWritten_s, AMap.get_put_ne _ _ _ (fun e => h (BitVec.eq_of_toNat_eq e))]

/-- An address register other than A0 reads as written. -/
theorem CoreState.readA_writeA_same {r : BitVec 4} (v : BitVec 32) (h : r ≠ 0) : (c.writeA r v).readA r = v := by
  unfold CoreState.writeA CoreState.readA
  rw [if_neg h, if_neg h, AMap.get_put_same]

@[simp] theorem CoreState.readV_writeV_same (r : BitVec 5) (v : VReg) : (c.writeV r v).readV r = v := by
  simp [CoreState.writeV, CoreState.readV]

@[simp] theorem CoreState.readM_writeM_same (r : BitVec 3) (v : MReg) : (c.writeM r v).readM r = v := by
  simp [CoreState.writeM, CoreState.readM]

/-- A vector register stands when another is written. -/
theorem CoreState.readV_writeV_ne {r q : BitVec 5} (v : VReg) (h : q ≠ r) : (c.writeV r v).readV q = c.readV q :=
  AMap.get_put_ne _ _ _ (fun e => h (BitVec.eq_of_toNat_eq e))

/-! ### The scratchpad (R220, R221) -/

@[simp] theorem CoreState.byte_putByte_same (a : Nat) (v : Byte) : (c.putByte a v).byte a = v := by
  simp [CoreState.putByte, CoreState.byte]

/-- A byte stands when another is written. -/
theorem CoreState.byte_putByte_ne {a b : Nat} (v : Byte) (h : b ≠ a) : (c.putByte a v).byte b = c.byte b := AMap.get_put_ne _ _ _ h

@[simp] theorem CoreState.setWordClass_byte (k : Nat) (w : Option WordClass) (a : Nat) : (c.setWordClass k w).byte a = c.byte a := rfl

end Sys2Proof.Machine
end

