-- ==== Sys2Proof/Laws/Commands.lean ====
section
/-! SUPPORT. What the shared shapes of a command can do: each lemma says once everything that the shape answers, so that no proof about a command unfolds it. -/

namespace Sys2Proof.Machine

/-! ### A step -/

/-- On an empty queue the block idles. -/
theorem step_empty {s : State} (h : s.pending = []) : step s = .next s := by
  unfold step
  rw [h]

/-! ### What a core sends -/

/-- What leaves a core enters the mesh and the write queues of channels; nothing else of the module but that core changes. -/
theorem State.drainOutbox_frame (s : State) (c : CoreId) :
    ∃ (m : Mesh) (ch : AMap Channel), s.drainOutbox c = ({ s with mesh := m, channels := ch } : State).setCore c { s.core c with traffic.outbox := [], traffic.unitsOut := [] } := by
  unfold State.drainOutbox
  simp only
  generalize hm : List.foldl _ s.mesh _ = m
  have key : ∀ (l : List WriteUnit) (u : State), ∃ ch : AMap Channel,
      l.foldl (fun (u : State) (w : WriteUnit) => u.setChannel w.chan ((u.channel w.chan).addWrite { w with core := c })) u = { u with channels := ch } := by
    intro l
    induction l with
    | nil => intro u; exact ⟨u.channels, rfl⟩
    | cons w l ih =>
      intro u
      obtain ⟨ch, hch⟩ := ih (u.setChannel w.chan ((u.channel w.chan).addWrite { w with core := c }))
      exact ⟨ch, by rw [List.foldl_cons, hch]; rfl⟩
  obtain ⟨ch, hch⟩ := key (s.core c).traffic.unitsOut s
  exact ⟨m, ch, by rw [hch]⟩

/-- A change of one core keeps the hub, the plots, the fields, the ports, the commons, the other modules' side and the queue, and every other core. -/
theorem State.onCore_frame (s : State) (c : CoreId) (f : Env → CoreState → CoreState) :
    let t := s.onCore c f
    t.grade = s.grade ∧ t.hub = s.hub ∧ t.fields = s.fields ∧ t.fieldHold = s.fieldHold ∧ t.edges = s.edges ∧ t.plots = s.plots ∧ t.commons = s.commons ∧ t.ports = s.ports ∧
      t.system = s.system ∧ t.pending = s.pending ∧ ∀ a, a ≠ c → t.core a = s.core a := by
  obtain ⟨m, ch, h⟩ := (s.setCore c (f (s.env c) (s.core c))).drainOutbox_frame c
  refine ⟨?_, ?_, ?_, ?_, ?_, ?_, ?_, ?_, ?_, ?_, ?_⟩
  all_goals simp only [State.onCore, h]
  case refine_11 =>
    intro a ha
    rw [State.setCore_core_ne _ _ ha]
    exact State.setCore_core_ne s _ ha
  all_goals rfl

/-- The core that a change leaves: what it computes, with nothing left to send. -/
theorem State.onCore_core (s : State) (c : CoreId) (f : Env → CoreState → CoreState) :
    (s.onCore c f).core c = { f (s.env c) (s.core c) with traffic.outbox := [], traffic.unitsOut := [] } := by
  obtain ⟨m, ch, h⟩ := (s.setCore c (f (s.env c) (s.core c))).drainOutbox_frame c
  simp only [State.onCore, h, State.setCore_core_same]

/-! ### Commands of a core -/

/-- Everything a command of a core can answer. -/
theorem coreCommand_cases (s : State) (c : CoreId) (f : Env → CoreState → CoreState) :
    (s.hasCore c = false ∧ coreCommand s c f = .fault .noSuchCore) ∨
    (s.hasCore c = true ∧ (s.env c).running = false ∧ coreCommand s c f = .next s) ∨
    (s.hasCore c = true ∧ (s.env c).running = true ∧ coreCommand s c f = .next (s.onCore c f)) := by
  unfold coreCommand
  cases s.hasCore c <;> cases (s.env c).running <;> simp

theorem coreCommand_running {s : State} {c : CoreId} (f : Env → CoreState → CoreState) (h : s.hasCore c = true) (hr : (s.env c).running = true) :
    coreCommand s c f = .next (s.onCore c f) := by
  simp [coreCommand, h, hr]

/-- Everything a slot command can answer: a bundle that issues runs the operation, any other leaves what opening it left. -/
theorem slotCommand_running {s : State} {i : Issue} (slot : Nat) (word : Word) (act : Env → Origin → CoreState → CoreState) (h : s.hasCore i.core = true) (hr : (s.env i.core).running = true) :
    slotCommand s i slot word act = .next (s.onCore i.core (fun env c => c.inBundle env i slot word (act env))) := coreCommand_running _ h hr

/-- A slot operation acts from its slot's origin on the core with its bundle presented, when the bundle issues. -/
theorem CoreState.inBundle_live {c : CoreState} {env : Env} {i : Issue} (slot : Nat) (word : Word) (act : Origin → CoreState → CoreState)
    (h : (c.presented env i).bundleLive i.fill = true) :
    c.inBundle env i slot word act = act (((c.presented env i).stream i.fill).origin i.fill slot word) (c.presented env i) := by
  unfold CoreState.inBundle
  simp only
  rw [if_pos h]

/-- A slot operation of a bundle that does not issue leaves the core as the presentation of the bundle left it. -/
theorem CoreState.inBundle_held {c : CoreState} {env : Env} {i : Issue} (slot : Nat) (word : Word) (act : Origin → CoreState → CoreState)
    (h : (c.presented env i).bundleLive i.fill = false) : c.inBundle env i slot word act = c.presented env i := by
  unfold CoreState.inBundle
  simp [h]

/-- A slot operation that comes later in its bundle presents no bundle. -/
@[simp] theorem CoreState.presented_later {c : CoreState} {env : Env} {i : Issue} (hi : i.head = none) : c.presented env i = c := by
  simp [CoreState.presented, hi]

/-! ### Commands of a channel -/

/-- Everything a command of a channel can answer. -/
theorem channelCommand_cases (s : State) (ch : ChanId) (act : Channel → State) :
    (s.hasChannel ch = false ∧ channelCommand s ch act = .fault .noSuchChannel) ∨ (s.hasChannel ch = true ∧ channelCommand s ch act = .next (act (s.channel ch))) := by
  unfold channelCommand
  cases s.hasChannel ch <;> simp

/-! ### Writes of a ring (R414 to R416) -/

/-- A write that a ring ignores is counted; any other replaces the ring. -/
theorem State.writeRing_none {s : State} {fn : Fn} {completion : Bool} {off : Nat} {f : Ring → Option Ring}
    (h : f (if completion then (s.plot fn).cq else (s.plot fn).sq) = none) : s.writeRing fn completion off f = s.ignoreWrite fn off := by
  unfold State.writeRing
  simp only [h]

theorem State.writeRing_completion {s : State} {fn : Fn} {off : Nat} {f : Ring → Option Ring} {r : Ring} (h : f (s.plot fn).cq = some r) :
    s.writeRing fn true off f = s.setPlot fn { s.plot fn with cq := r } := by
  unfold State.writeRing
  simp [h]

theorem State.writeRing_submission {s : State} {fn : Fn} {off : Nat} {f : Ring → Option Ring} {r : Ring} (h : f (s.plot fn).sq = some r) :
    s.writeRing fn false off f = s.setPlot fn { s.plot fn with sq := r, counts.readPaused := (s.plot fn).counts.readPaused && (s.plot fn).sq.enable && r.enable } := by
  unfold State.writeRing
  simp [h]

/-! ### Packets (R417, R421) -/

/-- A COMPLETION changes the backlog of the submitting function and the hub's production count, and nothing else. -/
theorem State.complete_frame (s : State) (st : Staged) (bell : BitVec 48) (code : Code) :
    let t := s.complete st bell code
    t.grade = s.grade ∧ t.cores = s.cores ∧ t.channels = s.channels ∧ t.fields = s.fields ∧ t.commons = s.commons ∧ t.mesh = s.mesh ∧ t.ports = s.ports ∧ t.system = s.system ∧ t.pending = s.pending ∧
      ∀ g, g ≠ st.p.fn → t.plot g = s.plot g := by
  unfold State.complete
  simp only
  split
  · exact ⟨rfl, rfl, rfl, rfl, rfl, rfl, rfl, rfl, rfl, fun _ _ => rfl⟩
  · exact ⟨rfl, rfl, rfl, rfl, rfl, rfl, rfl, rfl, rfl, fun g hg => State.setPlot_plot_ne _ _ hg⟩

end Sys2Proof.Machine
end

