-- ==== Sys2Proof/Laws/Memory.lean ====
section
/-! SUPPORT. Every memory operation keeps the canonical form, and the memories of the reset state have it. -/

namespace Sys2Proof.Machine

/-- Memories in canonical form that read alike are the same list. -/
theorem Memory.ext {m n : AMap Byte} (hm : Memory.wf m = true) (hn : Memory.wf n = true) (h : ∀ a, AMap.get 0 m a = AMap.get 0 n a) : m = n := by
  have head : ∀ (m n : AMap Byte) (a b : Nat) (x y : Byte), Memory.wf ((a, x) :: m) = true → Memory.wf ((b, y) :: n) = true →
      (∀ k, AMap.get 0 ((a, x) :: m) k = AMap.get 0 ((b, y) :: n) k) → ¬ a < b := by
    intro m n a b x y hm hn h hab
    have hx : x ≠ 0 := (AMap.wf_iff.1 hm).2 (a, x) (by simp)
    have ha := h a
    rw [AMap.get_cons, if_pos rfl] at ha
    rcases AMap.get_mem 0 ((b, y) :: n) a with h0 | hin
    · exact hx (ha.trans h0)
    · rcases List.mem_cons.1 hin with he | he
      · exact absurd (congrArg Prod.fst he) (Nat.ne_of_lt hab)
      · exact absurd ((List.pairwise_cons.1 (AMap.wf_iff.1 hn).1).1 _ he) (Nat.lt_asymm hab)
  induction m generalizing n with
  | nil =>
    cases n with
    | nil => rfl
    | cons e n =>
      obtain ⟨b, y⟩ := e
      have hb := h b
      rw [AMap.get_cons, if_pos rfl] at hb
      exact absurd hb.symm ((AMap.wf_iff.1 hn).2 (b, y) (by simp))
  | cons e m ih =>
    obtain ⟨a, x⟩ := e
    cases n with
    | nil =>
      have ha := h a
      rw [AMap.get_cons, if_pos rfl] at ha
      exact absurd ha ((AMap.wf_iff.1 hm).2 (a, x) (by simp))
    | cons e n =>
      obtain ⟨b, y⟩ := e
      have hab : a = b := Nat.le_antisymm (Nat.le_of_not_lt (head n m b a y x hn hm (fun k => (h k).symm))) (Nat.le_of_not_lt (head m n a b x y hm hn h))
      subst hab
      have hx := h a
      rw [AMap.get_cons, AMap.get_cons, if_pos rfl, if_pos rfl] at hx
      subst hx
      have hm' := AMap.wf_iff.1 hm
      have hn' := AMap.wf_iff.1 hn
      rw [ih (AMap.wf_sublist hm (List.sublist_cons_self _ _)) (AMap.wf_sublist hn (List.sublist_cons_self _ _))]
      intro k
      have hk := h k
      rw [AMap.get_cons, AMap.get_cons] at hk
      split at hk
      · next e =>
        subst e
        have out : ∀ l : AMap Byte, (∀ e ∈ l, a < e.1) → AMap.get 0 l a = 0 := by
          intro l hl
          rcases AMap.get_mem 0 l a with h0 | hin
          · exact h0
          · exact absurd (hl _ hin) (Nat.lt_irrefl _)
        rw [out m (List.pairwise_cons.1 hm'.1).1, out n (List.pairwise_cons.1 hn'.1).1]
      · exact hk

/-! ### The scratchpad -/

theorem CoreState.putByte_memOk {c : CoreState} (a : Nat) (v : Byte) (h : c.memOk) : (c.putByte a v).memOk := ⟨AMap.wf_put a v h.1, h.2⟩

theorem CoreState.setWordClass_memOk {c : CoreState} (k : Nat) (w : Option WordClass) (h : c.memOk) : (c.setWordClass k w).memOk := h

/-- A bundle of byte writes keeps the canonical form. -/
theorem CoreState.putBytes_memOk {c : CoreState} (bs : List WByte) (h : c.memOk) : (bs.foldl (fun c b => c.putByte b.addr b.val) c).memOk := by
  induction bs generalizing c with
  | nil => exact h
  | cons b bs ih => exact ih (CoreState.putByte_memOk b.addr b.val h)

/-- What the memory of a core is: its working scratchpad and its bell image. -/
theorem CoreState.memOk_of_mem {c d : CoreState} (hw : d.work.mem = c.work.mem) (hi : d.image.mem = c.image.mem) (h : c.memOk) : d.memOk := by
  unfold CoreState.memOk CoreWork.memOk at *
  rw [hw, hi]
  exact h

theorem CoreState.note_memOk {c : CoreState} (code : Code) (o : Origin) (d0 d1 d2 : Word) (h : c.memOk) : (c.note code o d0 d1 d2).memOk := h

theorem CoreState.bruiseWord_memOk {c : CoreState} (k : Nat) (h : c.memOk) : (c.bruiseWord k).memOk := by
  unfold CoreState.bruiseWord
  simp only
  split
  · exact h
  · exact h

theorem CoreState.writeWordClass_memOk {c : CoreState} (k : Nat) (full bruise : Bool) (o : Origin) (h : c.memOk) : (c.writeWordClass k full bruise o).memOk := by
  unfold CoreState.writeWordClass
  simp only
  split
  · exact h
  · split
    · exact h
    · exact h
    · exact h
    · exact CoreState.note_memOk (c := (c.bruiseWord k).countUe) 0x3001 o _ _ _ (CoreState.bruiseWord_memOk k h)

/-- A write of bytes in one fc keeps the canonical form (R221, R225, R227). -/
theorem CoreState.writeBytes_memOk {c : CoreState} (bs : List WByte) (o : Origin) (h : c.memOk) : (c.writeBytes bs o).memOk := by
  unfold CoreState.writeBytes
  refine CoreState.putBytes_memOk bs ?_
  generalize wordsOf bs = ks
  induction ks generalizing c with
  | nil => exact h
  | cons k ks ih => exact ih (CoreState.writeWordClass_memOk k _ _ o h)

/-- A step restored or committed keeps the canonical form (R383). -/
theorem CoreState.restoreStep_memOk {c : CoreState} (h : c.memOk) : c.restoreStep.memOk := ⟨h.2, h.2⟩

/-! ### Deep-store shares -/

theorem Channel.write_mem {k : Channel} (u : Nat) (d : BitVec 512) (b : BitVec 8) (h : Memory.wf k.mem = true) : Memory.wf (k.write u d b).mem = true :=
  AMap.wf_foldl _ _ h (fun _ i hm => AMap.wf_put (64 * u + i) _ hm)

theorem Channel.readUnit_mem {k : Channel} (u : Nat) (h : Memory.wf k.mem = true) : Memory.wf (k.readUnit u).1.mem = true := by
  unfold Channel.readUnit
  generalize k.data u = d
  simp only
  split
  · exact h
  · exact h
  · show Memory.wf (k.write u d 0xFF).mem = true
    exact Channel.write_mem u d 0xFF h

/-! ### The configuration flash -/

theorem Flash.program_mem {f : Flash} (lo : Nat) (bs : List Byte) (h : Memory.wf f.mem = true) : Memory.wf (f.program lo bs).mem = true :=
  AMap.wf_foldl _ _ h (fun _ p hm => AMap.wf_put (lo + p.2) p.1 hm)

theorem Flash.eraseRange_mem {f : Flash} (lo n : Nat) (h : Memory.wf f.mem = true) : Memory.wf (f.eraseRange lo n).mem = true := AMap.wf_filter _ h

theorem Flash.writeCatalogue_mem {f : Flash} (inB : Bool) (cat : AMap CatEntry) (h : Memory.wf f.mem = true) : Memory.wf (f.writeCatalogue inB cat).mem = true := by
  unfold Flash.writeCatalogue
  generalize headerBytes _ cat = bs
  generalize headerOffset _ = lo
  show Memory.wf (f.program lo bs).mem = true
  exact Flash.program_mem lo bs h

/-! ### The images that load -/

theorem loadedCore_memOk (code cs data slots : List Byte) : (loadedCore code cs data slots).work.memOk := by
  refine AMap.wf_foldl _ _ (AMap.wf_nil 0) (fun m i hm => ?_)
  split
  · exact AMap.wf_put _ _ hm
  · exact hm

theorem CoreState.load_memOk {c l : CoreState} (fn : Fn) (pos plot : Word) (keep : Bool) (hc : c.memOk) (hl : l.work.memOk) : (c.load l fn pos plot keep).memOk := by
  unfold CoreState.load
  generalize CoreTables.signAll _ = g
  cases keep
  · exact ⟨hl, hl⟩
  · exact hc

/-! ### The module -/

/-- A core, a channel and a plot that the module holds have canonical memories. -/
theorem State.MemOk.core {s : State} (h : s.MemOk) (c : CoreId) : (s.core c).memOk := by
  rcases AMap.get_mem {} s.cores c.toNat with h0 | hin
  · unfold State.core
    rw [h0]
    exact ⟨rfl, rfl⟩
  · exact h.1 _ hin

theorem State.MemOk.channel {s : State} (h : s.MemOk) (ch : ChanId) : Memory.wf (s.channel ch).mem = true := by
  rcases AMap.get_mem {} s.channels ch.toNat with h0 | hin
  · unfold State.channel
    rw [h0]
    rfl
  · exact h.2.1 _ hin

theorem State.MemOk.saved {s : State} (h : s.MemOk) (fn : Fn) : ∀ k ∈ (s.plot fn).moving.saved, k.work.memOk := by
  rcases AMap.get_mem {} s.plots fn.toNat with h0 | hin
  · unfold State.plot
    rw [h0]
    intro k hk
    exact absurd hk (by simp)
  · exact h.2.2.2 _ hin

theorem State.MemOk.setCore {s : State} (h : s.MemOk) (c : CoreId) {v : CoreState} (hv : v.memOk) : (s.setCore c v).MemOk := by
  refine ⟨fun e he => ?_, h.2.1, h.2.2.1, h.2.2.2⟩
  rcases AMap.mem_put he with rfl | he
  · exact hv
  · exact h.1 e he

theorem State.MemOk.setChannel {s : State} (h : s.MemOk) (ch : ChanId) {v : Channel} (hv : Memory.wf v.mem = true) : (s.setChannel ch v).MemOk := by
  refine ⟨h.1, fun e he => ?_, h.2.2.1, h.2.2.2⟩
  rcases AMap.mem_put he with rfl | he
  · exact hv
  · exact h.2.1 e he

theorem State.MemOk.setPlot {s : State} (h : s.MemOk) (fn : Fn) {v : Plot} (hv : ∀ k ∈ v.moving.saved, k.work.memOk) : (s.setPlot fn v).MemOk := by
  refine ⟨h.1, h.2.1, h.2.2.1, fun e he => ?_⟩
  rcases AMap.mem_put he with rfl | he
  · exact hv
  · exact h.2.2.2 e he

theorem State.MemOk.setPort {s : State} (h : s.MemOk) (p : PortId) (v : Port) : (s.setPort p v).MemOk := h
theorem State.MemOk.setField {s : State} (h : s.MemOk) (f : FieldId) (v : Field) : (s.setField f v).MemOk := h

theorem State.MemOk.modHub {s : State} (h : s.MemOk) {g : Hub → Hub} (hg : Memory.wf (g s.hub).flash.mem = true) : (s.modHub g).MemOk := ⟨h.1, h.2.1, hg, h.2.2.2⟩

/-- The memories of the reset state list nothing. -/
theorem reset_memories : State.reset.cores = [] ∧ State.reset.channels = [] ∧ State.reset.plots = [] ∧ Memory.wf State.reset.hub.flash.mem = true := ⟨rfl, rfl, rfl, rfl⟩

end Sys2Proof.Machine
end

