-- ==== Sys2Proof/Tests/Slice0.lean ====
section
/-! SUPPORT. Tests: slot words written out from the encoding tables, one ill-formed command for each check of `Instr.wf`, and for every statement a small state and operands that meet its hypotheses (`test_can_…`). -/

namespace Sys2Proof.Tests

open Sys2Proof.Machine Sys2Proof.Claims

set_option Elab.async false

/-! ### Words of each slot, field by field (R109, R149, R165, R199, R239, R248) -/

/-- SSHIFT S7, S1 by S2 arithmetic right, from the register: opcode 0x05, KIND 2, REG 1 (R199). -/
theorem test_word_scalar : decodeScalar (0x05#6 ++ 7#5 ++ 1#5 ++ 2#5 ++ 2#2 ++ 1#1 ++ 0#6 ++ 0#2 ++ 0#8) = some (.sshift 7 1 2 2 1 0 0) := by decide

/-- VMOVI V3: OPC, VD 3, and 32 immediate bits after 3 zero bits. -/
theorem test_word_vector : decodeVector (encodeVector (.vmovi 3 0xDEADBEEF)) = some (.vmovi 3 0xDEADBEEF) := by decide

/-- TADD T63 by 1 with NEG: OPC 3, TALLY 63, NEG 1, REG 0, AMOUNT. -/
theorem test_word_sync : decodeSync (0b00011#5 ++ 63#6 ++ 1#1 ++ 0#1 ++ 1#19) = some (.tadd 63 1 1) := by decide

/-- MNOP with WARM: OPC 0, WARM in the bit below OPC. -/
theorem test_word_matrix : decodeMatrix (encodeMatrix (.mnop 1)) = some (.mnop 1) ∧ encodeMatrix (.mnop 0) = 0 := by decide

/-- LDS S9, H2, A3, OFF -1 and STS: the raw forms of the load and store slots. -/
theorem test_word_load_store : decodeLoad (encodeLoad (.lds 9 2 3 0x1FFFF)) = some (.lds 9 2 3 0x1FFFF) ∧ decodeStore (encodeStore (.sts 31 63 15 0)) = some (.sts 31 63 15 0) := by decide

/-! ### Ill-formed commands, one for each check -/

/-- A packet whose LENGTH is not its payload's. -/
def badPacket : PacketIn := { fn := 0, flags := 0, plot := 0, byte3 := 0, length := 8, tag := 0, bell := 0, param := 0, digest := 0, payload := [1] }

/-- A training result of no link. -/
def goodLinks : LinksResult := { ok := true, lit := true, module := 1, depth := 4 }

theorem test_ill_formed_packet : (Instr.nop badPacket).wf = false ∧ (Instr.nop { badPacket with length := 1 }).wf = true := by decide
theorem test_ill_formed_scrub : (Instr.imageScrubPass 0 8 0 false false).wf = false ∧ (Instr.imageScrubPass 0 7 0 false false).wf = true := by decide
theorem test_ill_formed_link : (Instr.bridgeLinkFailure 0 0 36).wf = false ∧ (Instr.bridgeLinkFailure 0 0 35).wf = true := by decide
theorem test_ill_formed_codeword : (Instr.codewordReceived 0 9 0 0).wf = false ∧ (Instr.codewordReceived 0 8 0 545).wf = false ∧ (Instr.codewordReceived 0 8 0 544).wf = true := by decide
theorem test_ill_formed_nak : (Instr.nakReceived 0 9 0 0).wf = false ∧ (Instr.nakReceived 0 8 0 4097).wf = false ∧ (Instr.ackReceived 0 9 0).wf = false := by decide
theorem test_ill_formed_rail : (Instr.railTrip 10).wf = false ∧ (Instr.railTrip 9).wf = true := by decide
theorem test_ill_formed_unlock : (Instr.debugUnlock 3 0 0).wf = false ∧ (Instr.debugUnlock 1 (2 ^ 768) 0).wf = false ∧ (Instr.debugUnlock 2 0 (2 ^ 768)).wf = false := by decide +kernel
theorem test_ill_formed_bus : (Instr.i3cRead 0).wf = false ∧ (Instr.i3cRead 1).wf = true ∧ (Instr.creditReturn 0 0 0).wf = false := by decide
theorem test_ill_formed_links : (Instr.linksDone { goodLinks with depth := 5 }).wf = false ∧ (Instr.linksDone goodLinks).wf = true := by decide
theorem test_ill_formed_slot :
    (Instr.sadd { core := 0, fill := false, head := some { dt := 0, header := 0, slots := 0 } } 0).wf = false ∧ (Instr.sadd { core := 0, fill := false, head := some { dt := 0, header := 0, slots := 2 ^ 34 } } 0).wf = true ∧
      (Instr.synop { core := 0, fill := false, head := some { dt := 0, header := 0, slots := 0 } } 1).wf = false ∧ (Instr.synop { core := 0, fill := false, head := none } 1).wf = true := by decide
theorem test_ill_formed_diag : (Instr.diagStep 0 (some { code := 0x9000, core := 0, offset := 0, site := 0 })).wf = false ∧ (Instr.diagStep 0 (some { code := 0x2007, core := 0, offset := 0, site := 0 })).wf = true := by decide
theorem test_ill_formed_sample : (Instr.thermalSample { junction := [], stackTemps := [], optical := [], hub := 0 }).wf = false := by decide

/-! ### A plot that runs: function 1 on two rows and two columns, core 0 at offset 0 -/

/-- The plot. -/
def plotRun : Plot := { place := { state := 3, rows := 2, cols := 2, image := some 0 }, step := { phase := .running, released := 1 } }

/-- A core with two tensors of the main stream: handle 0 is 512 words of 32 bits, handle 1 is 32 rows of 64 8-bit elements; both registers' banks are empty. -/
def coreRun : CoreState :=
  { owner := some 1
    tables := { handle := [(0, 0x100001F0000), (1, 0x101001F0000)]
                desc := [(0, 0x01FF000000000012), (4, 0x003F000000000020), (5, 0x1F), (6, 0x40)]
                slot := [], ring := [] } }

/-- The module with that core. -/
def withCore (c : CoreState) : State := { State.reset with cores := [(0, c)], plots := [(1, plotRun)] }

/-- The first command of a main-stream bundle of class 0. -/
def firstMain : Issue := { core := 0, fill := false, head := some { dt := 0, header := 0, slots := 0 } }

/-- The first command of a fill bundle, and a core whose fill stream runs. -/
def firstFill : Issue := { core := 0, fill := true, head := some { dt := 0, header := 0x800, slots := 0 } }

/-- The core with the fill stream enabled. -/
def coreFill : CoreState := { coreRun with work.entry.fillEn := true, step.main.stopped := true }

/-- The bundles issue. -/
theorem test_can_issue : Issues (withCore coreRun) firstMain ∧ Issues (withCore coreFill) firstFill := by
  unfold Issues
  decide

/-- Registers at the ends of each class are the main stream's, and nothing lands in the fc of the results. -/
theorem test_can_use :
    Usable (opened (withCore coreRun) firstMain) false [(.s, 0), (.s, 31), (.a, 0), (.a, 15), (.v, 0), (.v, 31), (.m, 7)] ∧ Unclaimed (opened (withCore coreRun) firstMain) (.s, 31) 2 ∧
      Unclaimed (opened (withCore coreRun) firstMain) (.v, 31) 3 ∧ Unclaimed (opened (withCore coreRun) firstMain) (.a, 15) 1 ∧ Unclaimed (opened (withCore coreRun) firstMain) (.m, 7) 1 := by
  unfold Usable Unclaimed
  decide

/-- With FILL_EN the streams' registers part: S24 is the fill stream's, S23 the main stream's (R204). -/
theorem test_can_use_fill :
    Usable (opened (withCore coreFill) firstFill) true [(.s, 24), (.v, 24), (.a, 12), (.m, 6)] ∧ (opened (withCore coreFill) firstFill).mayUse true (.s, 23) = false := by
  unfold Usable
  decide

/-- ScalarOperationsScheduleTheirResults, AddressOperationsScheduleTheirResults: operands in range, at the ends of their fields, for each operation. -/
theorem test_can_scalar : [ScalarOp.sadd 31 31 31 2 1, .saddi 0 0 0, .smul 31 1 2 1, .slogic 1 2 3 3, .sshift 1 2 0 3 0 63 2, .sminmax 1 2 3 1 1, .scmp 1 2 3 7, .ssel 1 2 3 4, .slui 1 0xFFFFFF, .smovi 1 0,
    .sfeat 1 3].all (fun o => inRangeScalar o && (scalarSpec (opened (withCore coreRun) firstMain) o).isSome) = true := by decide

/-- VectorOperationsScheduleTheirLanes: each operation in range has its lanes. -/
theorem test_can_vector : [VectorOp.vadd 1 2 3 2 1, .vmul 1 2 3 1 1 1, .vmulh 1 2 3 0 3, .vshift 1 2 3 3 1 0 2, .vlogic 1 2 3 3, .vminmax 1 2 3 1 1, .vcount 1 2 1, .vsel 1 2 3 7, .vperm 1 2 3 6 31, .vmovi 1 0,
    .vsplat 1 31].all (fun o => inRangeVector o && (laneSpec (opened (withCore coreRun) firstMain) [] o).isSome) = true := by decide

/-- ConversionsScheduleTheirResults: an existing format of each kind, MX and not. -/
theorem test_can_convert : inRangeVector (.vunpk 1 2 3 0 0 0 0 0) = true ∧ fmtWidth 0 ≠ 0 ∧ inRangeVector (.vpack 1 2 3 5 0 0 0 3 1) = true ∧ fmtIsMx 5 = true ∧ fmtWidth 5 ≠ 0 := by decide

/-- StreamOperationsChangeTheirStream: a frame that may be opened, one that exists, and an owner below 3. -/
theorem test_can_loop : (0 : BitVec 3).toNat = ((opened (withCore coreRun) firstMain).stream false).depth ∧ headerClass ((opened (withCore coreRun) firstMain).stream false).header = 0 ∧
    inRangeScalar (.linc 5 3 15 1 0) = true ∧ inRangeScalar (.snext 1 0 0 8191) = true ∧ inRangeScalar (.lbegin 0 0 0 1) = true := by decide

/-- The first command of a bundle with STOP. -/
def firstStop : Issue := { core := 0, fill := false, head := some { dt := 0, header := 0x400, slots := 0 } }

/-- LoopEndsAndStops: class 1 with one open frame, and STOP on a core with nothing in flight. -/
theorem test_can_loop_end :
    let c : CoreState := { coreRun with step.main.depth := 6, work.mainFrames := [(0, { count := 1 }), (5, { count := 2 })] }
    let i : Issue := { firstMain with head := some { dt := 0, header := 0x6000, slots := 0 } }
    headerClass ((opened (withCore c) i).stream false).header = 6 ∧ ((opened (withCore c) i).stream false).depth = 6 ∧ (opened (withCore c) i).bundleLive false = true := by decide

theorem test_can_stop :
    let u := became (withCore coreRun) 0 (opened (withCore coreRun) firstStop)
    headerStop ((opened (withCore coreRun) firstStop).stream false).header = true ∧ (u.core 0).stopCode false (u.entryPending 0) (u.roundOpen 0) = none ∧ (opened (withCore coreRun) firstStop).bundleLive false = true := by
  decide +kernel

/-! ### Loads, stores and landings -/

/-- The opened core of a main bundle. -/
def cMain : CoreState := opened (withCore coreRun) firstMain

/-- The core's environment. -/
def envMain : Env := (withCore coreRun).env 0

/-- LoadsScheduleTheirReads: LDV from the first element and LDS from the last place where 8 bytes still fit, main stream, ports free. -/
theorem test_can_load_raw :
    cMain.mayAccess 0 false false = true ∧ fmtWidth (cMain.descOf 0).fmt ≠ 0 ∧ (cMain.rawOffset 0 0 0).toOption = some 0 ∧ cMain.checkBytes 0 false 0 (List.range 128) = none ∧
      (cMain.rawOffset 0 0 510).toOption = some 2040 ∧ cMain.checkBytes 0 false 510 ((List.range 8).map (fun k => 2040 + k)) = none ∧
      cMain.portClash envMain [{ fc := 1, reads := (linesOf (cMain.rawBytes 0 0 128)).length, writes := 0 }] = none := by
  decide +kernel

/-- LDVS along dimension 0 and LDVG through an index tensor of words. -/
theorem test_can_load_lanes :
    (0 : BitVec 3).toNat < (cMain.descOf 0).rank ∧ laneFormat (cMain.descOf 0).fmt = true ∧ (cMain.strided 0 0 0 1).toOption.any (fun l => (cMain.checkStrided 0 0 false (.ok l)).isNone) = true ∧
      cMain.portClash envMain (lanePorts 1) = none ∧ (cMain.descOf 0).fmt = 2 ∧ (cMain.handle 0).valid = true ∧
      (cMain.indexOffs 0 0).toOption.any (fun l => (cMain.checkBytes 0 false 0 l).isNone && (cMain.portClash envMain ({ fc := 1, reads := (linesOf (cMain.offBytes 0 l)).length, writes := 0 } :: lanePorts 3)).isNone) = true := by
  decide +kernel

/-- StoresScheduleTheirWrites: STV of one word and of sixteen, STS, STVS and STVG in range. -/
theorem test_can_store :
    inRangeStore (.stv 1 0 0 15 0 0) = true ∧ inRangeStore (.stv 1 0 0 0 15 0) = true ∧ cMain.mayAccess 0 false true = true ∧ cMain.checkBytes 0 true 0 (List.range 128) = none ∧
      (cMain.strided 0 0 0 1).toOption.any (fun l => (cMain.checkStrided 0 0 true (.ok l)).isNone) = true ∧ cMain.portClash envMain (storePorts 2) = none := by
  decide +kernel

/-- VlutSchedulesItsReads: 32-bit entries, T16 clear, no VLUT running. -/
theorem test_can_lut : (cMain.descOf 0).rank = 1 ∧ (cMain.descOf 0).fmt = 2 ∧ cMain.step.vlutEnd ≤ 0 ∧ cMain.lutCheck 2 0 false = none := by decide +kernel

/-- A core with one event of each landing kind in flight. -/
def coreLanding : CoreState :=
  { coreRun with step.events := [{ fc := 3, ev := .result (.s 31 7) {} }, { fc := 4, ev := .write [] false {} }, { fc := 5, ev := .result (.v 2 {}) { fill := true } }] }

/-- LandingCommandsRunToTheirEvent: a result in fc 3, a store in fc 4, a fill result in fc 5. -/
theorem test_can_land : NextOf coreLanding (fun e => match e with | .result _ _ => true | _ => false) 3 ∧ NextOf coreLanding (fun e => match e with | .write _ _ _ => true | _ => false) 4 := by
  unfold NextOf
  decide +kernel

/-- ResultWritesLand: results of each shape alone in flight, S0 and S31 among them; S31 zeroes its draw count. -/
theorem test_can_land_result :
    [RegWrite.s 0 5, .s 31 5, .s 23 5, .a 0 1, .a 15 1, .m 7 {}, .v 31 {}, .vpart 1 {} 0 32, .vlane 1 31 7].all (fun w =>
      ((withCore { coreRun with step.events := [{ fc := 0, ev := .result w {} }] }).env 0).running) = true := by
  decide +kernel

/-- A landed write to S0 leaves S0 at 0; one to S31 stands. -/
theorem test_land_result :
    (match exec (.resultWriteLands 0) (withCore { coreRun with step.events := [{ fc := 2, ev := .result (.s 31 9) {} }] }) with | .next t => (t.core 0).readS 31 | _ => 0) = 9 ∧
      (match exec (.resultWriteLands 0) (withCore { coreRun with step.events := [{ fc := 2, ev := .result (.s 0 9) {} }] }) with | .next t => (t.core 0).readS 0 | _ => 1) = 0 := by
  decide +kernel

/-- A landed store writes its byte and no other. -/
theorem test_land_store :
    (match exec (.storeWriteLands 0) (withCore { coreRun with step.events := [{ fc := 2, ev := .write [{ addr := 64, val := 7, bruise := false }] false {} }] }) with
      | .next t => ((t.core 0).byte 64, (t.core 0).byte 65) | _ => (0, 1)) = (7, 0) := by
  decide +kernel

/-! ### Matrix and sync slots -/

/-- MatrixOperationsBeginTheirWork: MLOAD of one row of 64 8-bit elements, and MSTREAM once the bank is loaded. -/
theorem test_can_mload :
    inRangeMatrix (.mload 0 1 0 0 63) = true ∧ cMain.mayReadTensor 1 false = true ∧ kpassOf (cMain.descOf 1).fmt = 64 ∧ cMain.bankFree false ≤ 0 ∧ cMain.tileRuns 0 = false ∧
      (((cMain.descOf 1).coords 0).bind (fun q => cMain.loadReads 1 q 1 64)).any (fun r => (cMain.checkLoad 1 0 r).isNone) = true := by
  decide +kernel

/-- A core whose bank 0 holds one row of 64 elements. -/
def coreBank : CoreState := { coreRun with work.bank0 := { loaded := true, fmt := 0, klen := 64 } }

/-- MSTREAM of one column into group 0, MTILE of one row, one column and 64 elements. -/
theorem test_can_mstream :
    let c := opened (withCore { coreBank with work.s := [(1, 1)] }) firstMain
    let so := streamOperand (c.readS 1) false
    inRangeMatrix (.mstream 0 1 0 1 0 0) = true ∧ (c.loadedBank false).loaded = true ∧ kpassOf (c.loadedBank false).fmt = kpassOf (c.descOf 1).fmt ∧ c.step.arrayFree ≤ 0 ∧ c.bankReady false ≤ 0 ∧ so.ok = true ∧
      fmtIsMx (c.descOf 1).fmt = false ∧ c.rangeOk false so.base (so.base + so.window) = true := by
  decide +kernel

theorem test_can_mtile :
    let c := opened (withCore { coreRun with work.s := [(1, 0x1000101)] }) firstMain
    let sh := shapeOperand (c.readS 1) false
    inRangeMatrix (.mtile 1 0 1 0 1 0 0) = true ∧ sh.ok = true ∧ c.rangeOk false sh.base (sh.base + ceilDiv sh.m 16 * sh.n - 1) = true ∧ c.step.bankFree1 ≤ 0 := by
  decide +kernel

/-- MANCHOR, MREAD and MPROBE: no range in use, no entry pending, operands at the ends of their fields. -/
theorem test_can_accumulators :
    inRangeMatrix (.manchor 15 0 1023) = true ∧ cMain.runningRange 0 false 480 511 = false ∧ inRangeMatrix (.mread 31 15 480 0 2 0 0) = true ∧ cMain.rangeOk false 480 511 = true ∧
      (List.range 32).all (fun j => !cMain.entryPending 0 false 15 (480 + j)) = true ∧ inRangeMatrix (.mprobe 15 31 1) = true ∧ cMain.step.arrayFree ≤ 0 := by
  decide +kernel

/-- A core with tally 63 at 5, an enabled ring 7 with an untaken entry, a SIG train that fires in fc 0, and a destination in S2. -/
def coreSync : CoreState :=
  { coreRun with
    work.tallies := [(63, 5)]
    work.ringPtr := [(7, { wr := 1, tk := 0, rd := 0 })] }

/-- TallyAndRingOperations: WAIT at its threshold, TADD, RELEASE behind TK. -/
theorem test_can_tally :
    let c := opened (withCore { coreSync with work.ringPtr := [(7, { wr := 1, tk := 1, rd := 0 })] }) firstMain
    (5 : BitVec 19).toNat ≤ (c.tally 63).toNat ∧ (c.ringPtr 7).rd ≠ (c.ringPtr 7).tk ∧ (opened (withCore coreSync) firstMain).tally 63 = 5 := by
  decide +kernel

/-- SELECT: ring 7 is enabled and holds an untaken entry. -/
theorem test_can_select :
    let c := opened (withCore { coreSync with tables.ring := [(7, 0x8000)] }) firstMain
    (0x80 : BitVec 8) ≠ 0 ∧ c.selectRing 0x80 false = some 7 := by
  decide +kernel

/-- MessageAndCommonsOperations and SigSendsInItsSlot: a destination in the plot, an empty send queue, a tally and a mailbox that the plot may name, a word in the view. -/
theorem test_can_message :
    let s := { withCore { coreRun with viewMail := some 9, work.s := [(2, 0x0041)] } with
      commons := { owner := [(4095, 1)], mail := [(1, { assigned := true })] }, plots := [(1, { plotRun with commons.cown := [(0, 0x2000FFF)], bar := [(2, 0x40), (0, 1), (1, 1)] })] }
    let c := opened s firstMain
    let p := s.plot 1
    (s.env 0).dest.resolve ((c.readS 2).extractLsb' 0 32) = some (.here 65) ∧ c.sendFree = true ∧ inRangeSync (.post 31 2 0 0) = true ∧ p.isMember 0 c.featY.toNat c.featX.toNat = true ∧ AMap.get 0 c.work.rounds 0 = 0 ∧
      p.mayTally 4095 = true ∧ s.commons.tallyOrphan 4095 = false ∧ p.mayPut 1 1 = true ∧ s.commons.mailOrphan 1 = false ∧ p.commons.requests.length < 256 ∧ c.viewMail = some 9 := by
  decide +kernel

/-- AMSG is enabled while a diagnostic step runs. -/
theorem test_can_amsg :
    let s := { withCore coreRun with plots := [(1, { plotRun with step := { phase := .diagnostic, released := 1 } })] }
    (s.env 0).amOn = true ∧ inRangeSync (.amsg 1 2 15 3) = true ∧ Issues s firstMain := by
  unfold Issues
  decide +kernel

/-- No SIG train fires on a core with an empty slot table. -/
theorem test_can_no_slot : (cMain.tables.sigTrain 0).isNone = true ∧ (cMain.readS 2).extractLsb' 54 10 = 0 ∧ ((withCore coreRun).env 0).dest.resolve 0 = some (.here 0) := by decide +kernel

/-- WaitsHoldTheirBundle: a tally below its threshold, a ring without an entry, an empty mailbox view. -/
theorem test_can_wait :
    (coreRun.runTo envMain 0).mayIssue false = true ∧ headerFaults 0 false true = false ∧ ¬ WaitMet coreRun {} plotRun 1 false (.wait 0 0 1) ∧ ¬ WaitMet coreRun {} plotRun 1 false (.select 1 0 1) := by
  unfold WaitMet
  decide +kernel

/-- BundleAddressesEndAt8191 and ReservedWordsAreBadBundles: a stream at 8,192; words of each slot that no table admits. -/
theorem test_can_bad_bundle :
    8192 ≤ (({ coreRun with step.main.next := 8192 } : CoreState).stream false).next ∧ decodeScalar (1#6 ++ 1#34) = none ∧ decodeVector (1#8 ++ 1#40) = none ∧ decodeMatrix (4#4 ++ 1#44) = none ∧
      decodeLoad (4#4 ++ 1#32) = none ∧ decodeStore (1#4 ++ 0xFE00#32) = none ∧ decodeSync (2#5 ++ 1#27) = none ∧ (opened (withCore coreFill) firstFill).mayUse true (.s, 1) = false := by
  decide +kernel

/-! ### Commands of one core -/

/-- CoresTakeHandlersDozeAndCommons: a message for a stopped stream; a bundle held for 4,096 fc; a wait on an orphaned object, a tally and the mailbox; a request to accept. -/
theorem test_can_core_commands :
    Runs (withCore coreRun) 0 ∧ (later (withCore { coreRun with traffic.amQueue := [{ handler := 3, header := 1, words := [2] }], step.main.stopped := true }) 0 0).step.main.stopped = true ∧
      (let c := later (withCore { coreRun with step.main.waiting := true, step.offset := 4096 }) 0 0; c.step.main.waitFrom + 4096 ≤ c.step.offset ∧ c.step.events = [] ∧ c.partitioned = false) ∧
      AMap.find (withCore coreRun).commons.owner ((0x0FFF : BitVec 16).extractLsb' 0 12).toNat = none ∧ (AMap.get {} (withCore coreRun).commons.mail 1).assigned = false ∧ (0x8000 : BitVec 16).getLsbD 15 = true := by
  unfold Runs
  decide +kernel

/-- PatrolScrubVisitsLines: the last line with a correctable word 7, read and written back. -/
theorem test_can_scrub :
    let c : CoreState := { coreRun with scrub.line := 24575, work.marks := [(8 * 24575 + 7, .correctable)] }
    c.scrub.waiting = false ∧ c.scrubMayRead envMain = true ∧ c.wordClass (8 * 24575 + 7) = some .correctable ∧
      (let w : CoreState := { c with scrub := { c.scrub with waiting := true }, step.offset := 1 }; w.scrub.readFc < w.step.offset ∧ w.scrubMayWrite envMain = true ∧ w.step.events = []) := by
  decide +kernel

/-- The scrub of the last line goes on at line 0. -/
theorem test_scrub_wraps :
    (match exec (.patrolScrubRead 0 0) (withCore { coreRun with scrub.line := 24575 }) with | .next t => (t.core 0).scrub.line | _ => 1) = 0 := by
  decide +kernel

/-- ArrayChecksAreTested: column 0 enabled, columns 32 and 33 the healthy spares above it. -/
theorem test_can_column_test :
    let m := ((withCore coreRun).physCore 0).map
    m.colEnable.getLsbD 0 = true ∧ m.bad.getLsbD 32 = false ∧ m.colEnable.getLsbD 32 = false ∧ (∀ h < 32, m.colEnable.getLsbD h = true) := by
  decide +kernel

/-! ### The mesh -/

/-- A scheduled signal of core 0 at its own router, on its way to core 1. -/
def flitSig : Flit := { fn := 1, src := 0, dest := 1, destModule := none, router := 0, inPort := 4, ready := 5, link1 := false, stage := .router, arrived := 5, order := 0, firing := 0, site := 0, delayed := false, noted := false, kind := .sig 63 1 }

/-- The module with one flit. -/
def withFlit (f : Flit) : State := { withCore coreRun with mesh := { flits := [(7, f)], nextFlit := 8 } }

/-- FlitsMoveHopByHop: a scheduled and a posted flit with a free link, one on a bridge. -/
theorem test_can_move :
    (withFlit flitSig).routerRuns 0 = true ∧ flitSig.onPostedLane = false ∧ outPort 0 ((withFlit flitSig).meshDest flitSig) = some 1 ∧ (withFlit flitSig).laneHeld 7 flitSig = false ∧
      (withFlit flitSig).flitFirst 7 flitSig 1 = false ∧ (let p : Flit := { flitSig with kind := .posted 0 { line := 0, bruise := 0 } }; p.onPostedLane = true ∧ (withFlit p).flitAhead 7 p = false ∧ (withFlit p).postedAt (routerBeyond 0 1) (inputBeyond 1) false < 4) ∧
      (let b : Flit := { flitSig with stage := .bridge 3 }; (withFlit b).bridgeAhead 7 b = false ∧ ((withFlit b).buffered 0 4 false).length < 256) := by
  decide +kernel

/-- A hop takes 2 fc: the flit is at core 1 in fc 7. -/
theorem test_hop :
    (match exec (.flitAdvance 7) (withFlit flitSig) with | .next t => (AMap.find t.mesh.flits 7).map (fun f => (f.router, f.ready)) | _ => none) = some (1, 7) := by
  decide +kernel

/-- At a gate: a flit for another module at the west edge, with credit. -/
theorem test_can_gate :
    let f : Flit := { flitSig with destModule := some 1, dest := 0 }
    let s := withFlit f
    outPort 0 (s.meshDest f) = none ∧ s.leaves f = true ∧ AMap.get 512 s.system.credits 0 ≠ 0 ∧ (0, 5) ∉ s.system.gateUse := by
  decide +kernel

/-- A core with a LINE, a PARTIAL, a LAND and a RECV train in slots 0 to 3, each of one line, and a transfer channel to core 1. -/
def coreTrains : CoreState :=
  { coreRun with
    tables.slot := [(0, 0x8000000000000002), (2, 0x9000000000000002), (4, 0xB000000000000002), (6, 0xC000000000000002)]
    tables.xchan := [(0, 1)] }

/-- TrainsFire: each train has its firing in fc 2, and the destination is in the plot. -/
theorem test_can_fire :
    (coreTrains.nextChannelFiring 0 0).map (·.2) = some (0, 2) ∧ (coreTrains.nextFiring 1 1).map (·.2) = some (0, 2) ∧ (({ coreTrains with traffic.slotFired := [(0, 1)] } : CoreState).nextChannelFiring 1 1).map (·.2) = some (0, 2) ∧ (coreTrains.nextFiring 2 3).map (·.2) = some (0, 2) ∧ (coreTrains.nextFiring 3 4).map (·.2) = some (0, 2) ∧
      ((withCore coreTrains).env 0).dest.resolve (coreTrains.tables.channel 0).dest = some (.here 1) ∧
      ((coreTrains.runTo ((withCore coreTrains).env 0) 2).lineBytes (coreTrains.tables.channel 0).sh false 0 0 1).toOption.isSome = true := by
  decide +kernel

/-- ScheduledFlitsLand: a signal, a line and a partial block at their destination, their lanes not held. -/
theorem test_can_land_flit :
    let f : Flit := { flitSig with dest := 0, kind := .line 0 0 0 0 true 3 1 0 0 }
    let s := withFlit f
    s.atDest f = true ∧ s.routerRuns 0 = true ∧ s.laneHeld 7 f = false ∧ ((coreRun.runTo envMain 5).lineBytes 0 true 0 0 1).toOption.isSome = true ∧ (coreRun.runTo envMain 5).wordTaken (List.range 8) = false ∧
      ((coreRun.runTo envMain 5).landPort envMain).isSome = true := by
  decide +kernel

/-- A signal raises its tally. -/
theorem test_signal :
    (match exec (.signalLands 7) (withFlit { flitSig with dest := 0 }) with | .next t => (match exec (.resultWriteLands 0) t with | .next u => ((u.core 0).step.events.length, u.mesh.flits.length) | _ => (9, 9)) | _ => (9, 9)) = (1, 0) := by
  decide +kernel

/-- MessagesArrive: a posted message for an enabled ring with room, one for a ring that is not enabled, an active message in recovery, and a drain. -/
theorem test_can_message_land :
    let f : Flit := { flitSig with dest := 0, kind := .posted 7 { line := 0, bruise := 0 } }
    let c : CoreState := { coreRun with tables.ring := [(7, 0x18000)] }
    let s : State := { withFlit f with cores := [(0, c)] }
    s.atDest f = true ∧ s.flitAhead 7 f = false ∧ (c.ring 7).enable = true ∧ (c.ringPtr 7).spill = 0 ∧ c.ringRoom 7 = true ∧ (c.ring 6).enable = false ∧
      (AMap.get 0 ({ c with tables.handler := [(3, 0x10000)] } : CoreState).tables.handler 3).getLsbD 16 = true ∧ c.traffic.amQueue.length < 4 ∧ c.traffic.spillWait.length < 4 := by
  decide +kernel

/-- BarrierCompletionsLand: core 0, the one member of group 63, has arrived in fc 10. -/
def plotBar : Plot := { plotRun with bar := [(191, 0x40), (189, 1), (190, 1)], rounds := [(63, { arrivals := [(0, 10)] })] }

theorem test_can_barrier : plotBar.stepping = true ∧ (plotBar.dueRound 63 0).map (fun x => (x.1, x.2.2)) = some (63, [(0, 10)]) ∧ (barrierLanding 0 [(0, 10)]).1 = 34 := by decide +kernel

/-! ### Deep store -/

/-- A channel of the plot with a READ, a WRITE and a GRANARY entry in places 0 to 2, at offsets 2, 3 and 4 for core 0. -/
def chanRun : Channel := { owner := some 1, entry := [(0, 0x8000000000000002), (4, 0x9000000000000003), (8, 0xA000000000000004)] }

/-- The module with that channel. -/
def withChan (k : Channel) : State := { withCore coreRun with channels := [(5, k)] }

/-- ChannelEntriesFire: each entry has its firing, in the share, at an aligned place. -/
theorem test_can_fire_channel :
    Fires (withChan chanRun) 5 0 0 (chanRun.dsEntry 0) 0 2 0 ∧ Fires (withChan { chanRun with fired := [(0, 1)] }) 5 1 1 (chanRun.dsEntry 1) 0 3 0 ∧ Fires (withChan { chanRun with fired := [(0, 1), (1, 1)] }) 5 2 2 (chanRun.dsEntry 2) 0 4 0 ∧
      chanRun.inShare 0 0 = true ∧ chanRun.inShare 18612224 0 = false ∧ coreRun.destAligned 0 0 = none ∧ (firedAt (withChan chanRun) 5 2 0 2).hasCore 0 = true := by
  unfold Fires
  decide +kernel

/-- A READ unit and a WRITE unit of unit 9. -/
def unitRead : ReadUnit := { entry := 0, req := 2, taken := false, firing := 0, core := 0, handle := 0, pos := 0, j := 0, last := 0, unit := 9, data := 0, bruise := 0, bad := false, land := 514, delayed := false, noted := false, tallyEn := true, tally := 3, amount := 1, site := 0 }
def unitWrite : WriteUnit := { chan := 5, entry := 1, req := 2, unit := 9, data := 0x0102, bruise := 1, spill := false, core := 0, ring := 0, site := 0 }

/-- DeepStoreUnitsLand: the READ unit's line is in its handle and free. -/
theorem test_can_land_unit :
    (let s := withChan { chanRun with fired := [(0, 1)], reads := [unitRead] }; s.routerRuns 0 = true ∧ s.requestsBefore 5 2 0 = false ∧ s.unitFirst 5 unitRead 514 = false) ∧ ((({ coreRun with step.offset := 514 } : CoreState).runTo envMain 514).lineBytes 0 true 0 0 1).toOption.isSome = true ∧ (({ coreRun with step.offset := 514 } : CoreState).runTo envMain 514).wordTaken (List.range 8) = false := by
  decide +kernel

/-- A WRITE unit is in the share after it is performed, with its journal entry. -/
theorem test_write_performed :
    (match exec (.dsWritePerformed 5) (withChan { chanRun with fired := [(0, 1)], writes := [unitWrite] }) with | .next t => ((t.channel 5).data 9, (t.channel 5).writes.length, (t.channel 5).journal.map (·.data)) | _ => (0, 9, [])) = (0x0102, 0, [0]) := by
  decide +kernel

/-- A second WRITE firing keeps the unit that the first one requested (R318, R322). -/
theorem test_write_firings_keep_units :
    (match exec (.dsWriteFiring 5 1) (withChan { chanRun with entry := [(4, 0x9000010008000002)] }) with
      | .next t => (match exec (.dsWriteFiring 5 1) t with | .next u => ((u.channel 5).writes.map (·.req), AMap.get 0 (u.channel 5).fired 1) | _ => ([], 9))
      | _ => ([], 9)) = ([2], 2) := by
  decide +kernel

/-- DeepStoreUpkeep: a stalled channel, an uncorrectable unit, one that a READ takes first, a channel being zeroed, one with 513 writes waiting. -/
theorem test_can_upkeep :
    (match exec (.deepStallEnd 5 3) (withChan { chanRun with stalled := true }) with | .next t => ((t.channel 5).stat.stall, (t.plot 1).run.events.length) | _ => (0, 0)) = (3, 1) ∧
      (match exec (.dsScrub 5 4) (withChan { chanRun with damage := [(4, .uncorrectable)] }) with | .next t => AMap.get 0 (t.channel 5).bruise 4 | _ => 0) = 0xFF ∧
      (match exec (.dsScrub 5 9) (withChan { chanRun with fired := [(0, 1)], reads := [unitRead], damage := [(9, .uncorrectable)] }) with | .next t => ((t.channel 5).reads.map (·.bad), (t.channel 5).stat.ue) | _ => ([], 9)) = ([true], 1) ∧
      512 < (List.replicate 513 unitWrite).length ∧ unitRead.land ≤ ({ coreRun with step.offset := 514 } : CoreState).step.offset := by
  decide +kernel

theorem test_channel_zeroed :
    (match exec (.channelZeroDone 5) (withChan { owner := none, zeroing := true, mem := [(3, 7)] }) with | .next t => ((t.channel 5).data 0, (t.channel 5).zeroing) | _ => (1, true)) = (0, false) := by
  decide +kernel

/-! ### Bells, attempts and packets at bells -/

/-- The plot at its bell: every core has arrived. -/
def plotArrived : Plot := { plotRun with step := { phase := .arrived, released := 1, fieldsIn := 1 }, bell := { bell := 41 } }

/-- A core of the plot whose streams have stopped. -/
def coreDone : CoreState := { coreRun with step.main.stopped := true, step.fill.stopped := true, totals.arrived := true }

/-- The module with the plot's four cores and a plot. -/
def atBell (p : Plot) (c : CoreState) : State := { State.reset with cores := [(0, c), (1, c), (64, c), (65, c)], plots := [(1, p)] }

/-- CoresAndFieldsArrive: a core that has stopped and not yet arrived; the last field of the plot; a frame edge for an empty latch. -/
theorem test_can_arrive :
    let s := withCore { coreDone with totals.arrived := false }
    Runs s 0 ∧ s.postedOut 0 = false ∧ (s.core 0).step.haltAt = none ∧
      (let u := atBell plotRun coreDone; (1 ||| BitVec.ofNat 8 (2 ^ 0)) = (u.plot 1).fieldMask ∧ ∀ c ∈ (u.plot 1).cores, (u.core c).totals.arrived = true) := by
  unfold Runs
  decide +kernel

theorem test_can_edge :
    let p : Plot := { plotRun with bell := { ctlUse := 1 } }
    p.bell.ctlUse.extractLsb' 0 2 = 1 ∧ p.bell.latch = none ∧ p.step.holds.reference = false ∧ p.step.windowFrom = none := by
  decide +kernel

/-- BellsCommitTheirStep: nothing is left of the step, and the bell may ring; in frame mode the window has ended without an edge. -/
theorem test_can_ring :
    let u := { atBell plotArrived coreDone with hub := { time := 5000 } }
    (u.plot 1).cores.Nodup ∧ u.strandedFlits 1 = [] ∧ verdictOf (u.attemptReports 1) 0 = .commit ∧ u.testDue 1 = false ∧ u.quiet 1 = true ∧ u.duePackets 1 42 = [] ∧ (u.plot 1).mayRing u.hub.time = true ∧
      u.backlogFull 1 = false ∧ u.hub.records.length ≤ 6 ∧ u.commonsTurn 1 = true ∧ u.waitingCores (some 1) = [] ∧ u.tryDomains.plots = u.plots ∧
      (let p : Plot := { plotArrived with bell := { bell := 41, ctlUse := 1 } }; p.bell.frame = true ∧ p.bell.latch = none ∧ p.step.moment + p.bell.window ≤ u.hub.time) := by
  decide +kernel

/-- AttemptsAreUndoneAndRetried: a class H report retries the first attempt and stops the fourth; a core at the last offset. -/
theorem test_can_abandon :
    let r : Report := { code := 0x3001, core := 0, attempt := 0, bell := 0, offset := 0, site := 0, function := 1, hostTag := 0, time := 0 }
    verdictOf [r] 0 = .retry 0 ∧ verdictOf [r] 3 = .stop 0 ∧ verdictOf [{ r with code := 0x2001 }] 0 = .stop 0 ∧ verdictOf [] 0 = .commit ∧ NoLatePackets plotRun ∧
      (atBell plotRun { coreRun with step.offset := 0xFFFFFF }).attemptReports 1 = [] := by
  unfold NoLatePackets
  decide +kernel

/-- A remap of core 0 waits: RETRY_RELEASE rebuilds it, and an idle bell without one has nothing to repair. -/
theorem test_can_wait_for_remap :
    let s : State := { atBell { plotRun with step := { phase := .abandoned } } coreDone with fields := [(0, { rows := [(0, { serving := [(0, 0xFFFFFFFF)] })] })] }
    s.waitingCores (some 1) = [(0, 0, 0)] ∧ fieldCore 0 0 0 = 0 ∧ s.testDue 1 = false ∧ s.attemptReports 1 = [] ∧ State.reset.plotNumbers = [] ∧ State.reset.fields = [] ∧ State.reset.edges = [] := by
  decide +kernel

/-- RETRY_RELEASE on a waiting plot raises the attempt number. -/
theorem test_retry :
    (match exec (.retryRelease 1 0) (atBell { plotRun with step := { phase := .abandoned } } coreDone) with | .next t => ((t.plot 1).bell.attempt, (t.plot 1).step.phase) | _ => (0, .idle)) = (1, .running) := by
  decide +kernel

/-- A packet, and how it stands in the staging area. -/
def packet1 : PacketIn := { fn := 1, flags := 1, plot := 1, byte3 := 0, length := 0, tag := 77, bell := 0, param := 0, digest := digestOf [], payload := [] }
def stagedNop : Staged := { type := 1, p := packet1, unit := 0, acceptedAt := 0, target := 0, epoch := 0 }

/-- EmptyAndIdleBellsTakePackets: an idle bell at its grid point; an empty bell with one NOP due, and one BUDGET. -/
theorem test_can_empty_bell :
    let p : Plot := { plotRun with place := { state := 2, rows := 2, cols := 2 }, step := {}, packets := { staged := [stagedNop] } }
    let s := { atBell p coreDone with hub := { boot := { phase := 8, bellZero := true }, time := 4000 } }
    let q : State := { s with plots := [(1, { p with packets := { staged := [{ stagedNop with type := 0x26, p := { packet1 with param := 0xFFFF } }] } })] }
    s.hub.boot.zeroAt + 2000 * (s.hub.idleBell.toNat + 1) ≤ s.hub.time ∧ s.mayEmptyRing 1 = true ∧ s.duePackets 1 0 = [stagedNop] ∧ q.floorMw 1 ≤ 100 * 0xFFFF ∧ (q.duePackets 1 0).length = 1 := by
  decide +kernel

/-- The NOP's empty bell: bell number 1, one COMPLETION. -/
theorem test_empty_bell :
    let p : Plot := { plotRun with place := { state := 2, rows := 2, cols := 2 }, step := {}, packets := { staged := [stagedNop] } }
    (match exec (.emptyBell 1 0) { atBell p coreDone with hub := { boot := { phase := 8, bellZero := true }, time := 4000 } } with
      | .next t => ((t.plot 1).bell.bell, (t.plot 1).packets.completions.map (·.tag), (t.plot 1).packets.staged.length) | _ => (0, [], 9)) = (1, [77], 0) := by
  decide +kernel

/-! ### Fields, references, parts -/

/-- FieldClocksFollowTheirLimits: a tripped field with its ceiling at 1,500 MHz, a limit to restore, a rise that waits. -/
theorem test_can_droop :
    let s : State := { State.reset with fields := [(7, { tripped := true, droopCeil := 1100 })], hub := { power := { pendingRise := [(0, 1500), (7, 1600)] } } }
    (s.field 7).tripped = true ∧ (s.field 7).droopCeil ≠ 1600 ∧ (s.field 7).restoreBells ≤ s.hub.idleBell.toNat ∧ (s.hub.power.pendingRise.map (·.1)).Nodup ∧ s.stepsIn 7 = false ∧
      (atBell plotRun coreRun).plotsIn 0 = [1] ∧ (atBell plotRun coreRun).stepsIn 0 = true ∧ plotRun.step.attempting = true ∧
      (match exec (.droopFloor 7) s with | .next t => ((t.field 7).droopCeil, (t.field 7).ceiling, t.hub.faults.logLast) | _ => (0, 0, 0)) = (1400, 1400, 0x4004) := by
  decide +kernel

/-- ReferencesAreWatched: a loss in phase 8, its holdover 10 ms on, a good host reference. -/
theorem test_can_lose_reference :
    let s : State := { State.reset with hub := { boot := { phase := 8 }, time := 10000000, refs := { holdover := true, lostAt := 0, pcieOk := true } } }
    s.hub.refs.lostAt + 10000000 ≤ s.hub.time ∧ s.hub.boot.phase ≠ 0 ∧
      (match exec (.sysrefLoss 0) { s with hub.refs.holdover := false } with | .next t => (t.hub.refs.holdover, t.hub.refs.sysrefLosses, t.hub.i3c.ibi) | _ => (false, 0, [])) = (true, 1, [0x4001]) := by
  decide +kernel

/-- FailedPartsAreReplaced: column 0 has spare 32 and column 31 the spare that is left; a link that serves nothing. -/
theorem test_can_spare :
    NextSpare {} 0 32 ∧ NextSpare { enable := 0x7FFFFFFFF, bad := 1 } 31 35 ∧ ((withCore coreRun).rowMap 0).bad.getLsbD ((withCore coreRun).physOf 0) = false ∧ (withCore coreRun).physOf 0 = 0 ∧
      edgeNumber 0 1 ≠ none ∧ (∀ k < 32, ({} : Edge).planned k ≠ 35) ∧ ({} : Edge).planned 31 = 31 ∧ plotRun.repairsNow = false ∧ (withCore coreRun).linkPlots 6 31 = [] := by
  unfold NextSpare
  refine ⟨⟨by decide, by decide, by decide, by decide, fun h h0 h1 => .inr ?_⟩, ⟨by decide, by decide, by decide, by decide, fun h h0 h1 => .inr ?_⟩, by decide +kernel, by decide +kernel, by decide, by decide, by decide, by decide, by decide +kernel⟩
  · interval_cases h <;> rfl
  · interval_cases h <;> rfl

/-- The row of a lost core takes the lowest spare; the failed column serves the core until its plot's next bell or restart. -/
theorem test_core_lost :
    (match exec (.coreLost 0 .heartbeat) (withCore coreRun) with | .next t => ((t.rowMap 0).enable, (t.rowMap 0).bad, t.physOf 0, (t.takeRemaps (some 1)).physOf 0) | _ => (0, 0, 9, 9)) = (0x1FFFFFFFE, 1, 0, 1) := by
  decide +kernel

/-- ImagesLasersAndPartnersAreChecked: a block passed three times, a lane above THRESH, a paired module with the plot's bell rung or held. -/
theorem test_can_check_images :
    let k : CoreState := { coreRun with tables.passesSinceReload := [(28675, 3)] }
    AMap.find k.tables.passesSinceReload (4096 * 7 + 3) = some 3 ∧ (0x100000 : BitVec 24).toNat < 0x100001 ∧
      (match exec (.laserAgeing 15) { State.reset with ports := [(15, { lanes := [(8, { corrNow := 0x100001 })] })] } with | .next t => (t.hub.faults.logLast, (t.port 15).overCount) | _ => (0, 0)) = (0x4007, 0x100) := by
  decide +kernel

/-! ### Links, start-up, the physical module, the host -/

/-- A port whose lane 8 replays SEQ 5 for the eighth time. -/
def portReplays : Port := { state := 2, lanes := [(8, { retryFrom := some 5, replays := 8, discarding := true, recvSeq := 9 })] }

/-- LanesCorrectAndReplay: a lane at each limit, a spare in training, a port in no group and no pair, start-up waiting for its links. -/
theorem test_can_lane :
    let s : State := { State.reset with ports := [(1, portReplays), (2, { spareTraining := some 8 })], hub := { boot := { phase := 4 } } }
    let l := AMap.get {} (s.port 1).lanes 8
    l.discarding = true ∧ l.recvSeq = 9 ∧ l.retryFrom = some 5 ∧ 8 ≤ l.replays ∧ (s.port 1).spareIn = false ∧ (s.port 1).spareTraining = none ∧ ((5 : BitVec 12) + 2047 - 5).toNat < 2048 ∧
      (s.port 2).spareTraining = some 8 ∧ ((s.port 1).lanes.map (·.1)).Nodup ∧ s.testing = true ∧ s.hub.boot.linked = false ∧ s.portGroups 1 = [] ∧ s.hub.faults.lockEnable = false := by
  decide +kernel

/-- Fifteen symbol errors are corrected; sixteen ask for the codeword again. -/
theorem test_codeword :
    (match exec (.codewordReceived 1 0 7 15) State.reset with | .next t => let l := AMap.get {} (t.port 1).lanes 0; (l.corrNow, l.uncorr, l.nakDue) | _ => (0, 9, none)) = (15, 0, none) ∧
      (match exec (.codewordReceived 1 0 7 16) State.reset with | .next t => let l := AMap.get {} (t.port 1).lanes 0; (l.corrNow, l.uncorr, l.nakDue) | _ => (0, 9, none)) = (0, 1, some 7) := by
  decide +kernel

/-- The module with a member of group 3 at function 1, and one bell word of each kind for that group waiting at the port to the parent. -/
def inGroup : State :=
  let words := (List.range 7).map (fun k => bellWord k 3 42 7)
  { State.reset with plots := [(1, { plotArrived with group := { groupId := 3, joined := true, members := [0, 5] } })], ports := [(0, { role := 1, bellIn := words }), (2, { role := 2, bellIn := words })], system := { stime := 100 } }

/-- A flit for another module, at stage `k` of its way. -/
def flitOut (k : FlitStage) (m : BitVec 12) : Flit :=
  { fn := 1, src := 0, dest := 0, destModule := some m, router := 0, inPort := 0, ready := 0, link1 := false, stage := k, arrived := 0, order := 0, firing := 0, site := 0, delayed := false, noted := false, kind := .sig 0 1 }

/-- BellWordsAndGatesAct: words of every kind wait at a parent's and a child's port; the plot stands at the bell of STOP; joins under way; flits in transit and at a gate. -/
theorem test_can_bell_words :
    let s := inGroup
    (∀ k < 7, bellWord k 3 42 7 ∈ (s.port 0).bellIn ∧ (bellWord k 3 42 7).extractLsb' 0 4 = BitVec.ofNat 4 k) ∧ (s.port 0).role = 1 ∧ (s.port 2).role = 2 ∧ (bellWord 5 3 42 7).extractLsb' 4 8 = (3 : BitVec 8) ∧
      s.groupPlot 3 = some 1 ∧ (s.plot 1).step.attempting = true ∧ (s.plot 1).cores.Nodup ∧ (s.plot 1).place.state = 3 ∧ (s.plot 1).bell.bell.toNat % 4096 = 41 ∧ ((bellWord 5 3 41 0).extractLsb' 12 12).toNat = 41 ∧
      (s.port 0).bellIn.length < 64 ∧ s.hub.boot.bellZero = false ∧ s.system.root = false := by
  decide +kernel

theorem test_can_join :
    let p : Plot := { plotRun with step := { epoch := some 90 }, group := { groupId := 3, joining := some stagedNop } }
    let s : State := { State.reset with plots := [(1, p)], system := { stime := 100, module := 4 }, mesh := { flits := [(0, flitOut .transit 5), (1, flitOut (.gate 10) 4)] } }
    let u := s.advance 0
    (u.plot 1).step.epoch = some 90 ∧ 90 ≤ u.system.stime.toNat ∧ (u.plot 1).group.joining = some stagedNop ∧ stagedNop.p.flags.getLsbD 2 = false ∧ s.joiners 3 = [1] ∧ (s.plot 1).group.confirmed = false ∧
      (AMap.find s.mesh.flits 0).isSome = true ∧ s.leaves (flitOut .transit 5) = true ∧ s.leaves (flitOut (.gate 10) 4) = false ∧ (flitOut (.gate 10) 4).router = 0 ∧ s.hasCore 0 = true := by
  decide +kernel

/-- The first credit that a gate spends and gets back; more than 512 are never held. -/
theorem test_credit :
    (match exec (.creditReturn 0 3 0) { State.reset with system := { credits := [(0, 500)] } } with | .next t => AMap.get 512 t.system.credits 0 | _ => 0) = 503 ∧
      (match exec (.creditReturn 0 20 0) { State.reset with system := { credits := [(0, 500)] } } with | .next t => AMap.get 512 t.system.credits 0 | _ => 0) = 512 := by
  decide +kernel

/-- StartUpRunsThroughItsPhases: power is good at reset, and a module in no system whose line has risen stands in phase 7. -/
theorem test_can_start :
    let s := State.reset
    s.hub.pins.pwrOk = true ∧ s.hub.pins.powerLatched = false ∧ s.hub.boot.failed = false ∧ s.hub.boot.phase = 0 ∧ s.hub.boot.risen = false ∧ s.hub.boot.bellZero = false ∧
      newerCopy (some 3) (some 4) = some true ∧ newerCopy (some 4) (some 4) = some false ∧ s.hub.idleStaged = [] ∧
      (match exec (.bellZero 1000) { s with hub := { s.hub with boot := { phase := 7, risen := true }, time := 5000000 }, system := { standalone := true } } with
        | .next t => (t.hub.boot.phase, t.hub.boot.bootMs, t.hub.boot.zeroAt) | _ => (0, 0, 0)) = (8, 5, 5001000) := by
  decide +kernel

/-- A start-up plot that failed under LOADED_POLICY keeps LOADED_N asserted; without that policy it does not. -/
theorem test_can_stay :
    let s (k : Bool) : State := { State.reset with hub := { State.reset.hub with boot := { phase := 6, plotsFailed := 1 }, flash := { loadedPolicy := k } } }
    (((s true).loadStarts true).hub.boot.plotsFailed ≠ 0 ∧ ((s true).loadStarts true).hub.flash.loadedPolicy = true) ∧ ((s false).loadStarts true).hub.flash.loadedPolicy = false := by
  decide +kernel

/-- PowerAndBatteryAreKept: each power state of the clauses, and a calendar one us before its end. -/
theorem test_can_lose_power :
    let s : State := { State.reset with hub := { State.reset.hub with battery := { seconds := 12622780799, usec := 999998 } } }
    s.hub.pins.pwrOk = true ∧ s.hub.pins.powerLatched = false ∧ s.hub.battery.ended = false ∧ 12622780799999999 ≤ s.hub.battery.seconds.toNat * 1000000 + s.hub.battery.usec.toNat + (s.hub.battery.sub + 1000) / 1000 ∧
      (match exec (.railTrip 9) s with | .next t => (t.hub.faultN, t.hub.battery.rail, t.hub.pins.powerLatched, t.hub.pins.pwrOk) | _ => (false, 0, false, false)) = (true, 9, true, true) ∧
      (match exec .vbatLoss s with | .next t => t.hub.pins.vbat | _ => true) = false ∧ (match exec .pwrOkFall s with | .next t => t.hub.pins.pwrOk | _ => true) = false := by
  decide +kernel

/-- PowerAndBatteryAreKept: a module without power and one that a trip holds, a domain without VBAT, a calendar that runs on VBAT alone to its end. -/
theorem test_can_get_power :
    let off : State := { State.reset with hub := { State.reset.hub with pins := { pwrOk := false, vbat := false }, battery := { seconds := 12622780799, sub := 3 } } }
    let held : State := { State.reset with hub := { State.reset.hub with pins := { powerLatched := true } } }
    off.hub.pins.hubOn = false ∧ off.hub.battery.ended = false ∧ 12622780799 < off.hub.battery.seconds.toNat + (off.hub.battery.sub + 999999997) / 1000000000 ∧ held.hub.pins.pwrOk = true ∧
      (match exec .pwrOkRise off with | .next t => (t.hub.pins.pwrOk, t.hub.battery.sub, t.system.root) | _ => (false, 9, false)) = (true, 0, !off.hub.pins.treeRootN) ∧
      (match exec .vbatApplied off with | .next t => (t.hub.pins.vbat, t.hub.battery.lost) | _ => (false, false)) = (true, true) ∧
      (match exec (.calendarEnd 999999997) off with | .next t => (t.hub.battery.ended, t.hub.battery.usec) | _ => (false, 0)) = (true, 999999) ∧
      (match exec (.thermtrip 4) State.reset with | .next t => (t.hub.battery.thermtrip, t.hub.pins.thermtripN) | _ => (false, true)) = (true, false) ∧
      (match exec (.railTrip 0) held with | .next t => (t.hub.pins.powerLatched, t.hub.battery.brownout) | _ => (false, true)) = (true, false) := by
  decide +kernel

/-- TemperaturesAndPowerLimitTheFields: a reading at the limits, a field with ten hot samples, a held one with ten cool samples. -/
theorem test_can_get_hot :
    let r : ThermalReading := { junction := [95, 96, 105, 106, 0, 0, 0, 255], stackTemps := [], hub := 60, optical := [89] }
    let s : State := { State.reset with fieldHold := [(0, { hot := 10 }), (1, { held := true, cool := 10 }), (2, { stackHot := [0, 10] })], hub := { power := { belowFor := 9 } }, plots := [(1, { plotRun with place := { plotRun.place with originX := 32 }, step := { phase := .held, holds := { thermal := true } } })] }
    (∀ x ∈ r.optical, x < 90) ∧ (∀ t ∈ r.junction, t < 256) ∧ (AMap.get {} s.fieldHold 0).held = false ∧ 10 ≤ (AMap.get {} s.fieldHold 0).hot ∧ (∃ n ∈ (AMap.get {} s.fieldHold 2).stackHot, 10 ≤ n) ∧
      (AMap.get {} s.fieldHold 1).held = true ∧ 10 ≤ (AMap.get {} s.fieldHold 1).cool ∧ 1 ∈ s.plotsIn 1 ∧ (s.plot 1).fieldList = [1] ∧ (s.plot 1).step.holds = { thermal := true } ∧ s.hub.power.belowFor = 9 ∧
      (match exec (.thermalSample r) s with | .next t => [0, 1, 2, 3].map (fun f => (t.field f).thermCeil.toNat) | _ => []) = [1600, 1550, 1100, 1100] := by
  decide +kernel

/-- DebugPortAndBusAnswer: an instruction of each outcome, a bad level; a report that the bus has not read. -/
theorem test_can_debug :
    let r : Report := { code := 0x5001, core := 0, attempt := 0, bell := 0, offset := 0, site := 0, function := 0, hostTag := 0, time := 0 }
    let s : State := { State.reset with hub := { boot := { phase := 8 }, jtag := { isOpen := false }, faults := { log := [r] } } }
    s.hub.jtag.allows .idcode = true ∧ s.hub.jtag.allows .extest = false ∧ s.hub.jtag.allows .debugRead = false ∧ ({ isOpen := false, level := 1 } : Debug).allows .debugRead = true ∧
      s.hub.jtag.fails ≠ 3 ∧ s.hub.boot.phase ≠ 0 ∧ s.hub.faults.log[s.hub.faults.logRead]? = some r ∧ (match exec .logportRead s with | .next t => (t.hub.faults.logRead, t.hub.i3c.readData.length) | _ => (0, 0)) = (1, 8) := by
  decide +kernel

/-- A plot of a function whose rings hold 1,024 units and run. -/
def plotRings : Plot := { plotRun with sq := { enable := true, logsize := 10, tail := 5, head := 4 }, cq := { enable := true, logsize := 10, tail := 1023, head := 0 } }

/-- The module with that function in phase 8, and its host link up. -/
def withRings (p : Plot) : State := { State.reset with hub := { pins := { pwrOk := true, pcieUp := true }, boot := { phase := 8 } }, plots := [(1, p)] }

/-- PacketsAreReadFromTheirRing: one unit waits; a NOP is accepted, a reserved flag refused, a LENGTH beyond the ring halts, a full staging area pauses. -/
theorem test_can_read_packet :
    let s := withRings plotRings
    let p : PacketIn := { packet1 with length := 0 }
    packetOf (.nop p) = some (0x01, p) ∧ s.reading 1 = true ∧ heldUnits (s.plot 1).sq = 1 ∧ packetUnits p = 1 ∧ packetUnits { p with length := 64 } = 2 ∧ 2 ^ 10 < packetUnits { p with length := 65536 } ∧
      s.mustPause 1 p = false ∧ (skipped s p).checkPacket 1 (covered p) = none ∧ (skipped s p).checkPacket 1 { covered p with flags := 0x80 } = some 0x1001 := by
  decide +kernel

theorem test_can_pause :
    (withRings { plotRings with packets := { completions := List.replicate 4096 { type := 0x81, flags := 0, plot := 1, tag := 0, bell := 0, param := 0, payload := [], irq := false, seq := 0 } } }).mustPause 1 packet1 = true := by
  decide +kernel

/-- A NOP is read: SQHEAD moves by one unit. A packet of a bad PLOT leaves its code in PLT.HOSTERR. -/
theorem test_read_packet :
    (match exec (.nop packet1) (withRings plotRings) with | .next t => ((t.plot 1).sq.head, (t.plot 1).packets.staged.length, (t.plot 1).host.errRefused) | _ => (0, 0, 9)) = (5, 1, 0) ∧
      (match exec (.nop { packet1 with plot := 2 }) (withRings plotRings) with | .next t => ((t.plot 1).sq.head, (t.plot 1).host.errCode, (t.plot 1).packets.completions.length) | _ => (0, 0, 9)) = (5, 0x1003, 1) := by
  decide +kernel

/-- A completion that waits. -/
def waiting1 : DevPacket := { type := 0x81, flags := 0, plot := 1, tag := 7, bell := 0, param := 0, payload := [], irq := false, seq := 0 }

/-- RingCountersTakeOnlyWhatFits: doorbells and heads at both ends; the last unit of a completion ring takes one packet; a ring that is full takes none. -/
theorem test_can_ring_counters :
    let s := withRings { plotRings with packets := { completions := [waiting1] } }
    let r := (s.plot 1).sq
    heldUnits r = 1 ∧ ((4 + 1024 : BitVec 32) - r.head).toNat ≤ 2 ^ r.logsize.toNat ∧ 2 ^ r.logsize.toNat < ((4 + 1025 : BitVec 32) - r.head).toNat ∧ ((4 : BitVec 32) - r.head).toNat < heldUnits r ∧
      oldest (s.waiting 1) = some (.completion, waiting1) ∧ heldUnits (s.plot 1).cq + waiting1.units = 2 ^ (s.plot 1).cq.logsize.toNat ∧
      (match exec (.devicePacketWrite 1) s with | .next t => ((t.plot 1).cq.tail, (t.plot 1).packets.completions) | _ => (0, [])) = (1024, []) ∧
      (match exec (.devicePacketWrite 1) (withRings { plotRings with cq := { plotRings.cq with tail := 1024 }, packets := { completions := [waiting1] } }) with | .next t => ((t.plot 1).cq.tail, (t.plot 1).packets.completions.length) | _ => (0, 0)) = (1024, 1) := by
  decide +kernel

/-- A closed record of function 1 that its ring can take. -/
theorem test_can_deliver :
    let x : RecordPlace := { fn := 1, head := {}, body := {} }
    let s : State := { withRings { plotRings with cq := { enable := true, logsize := 10 } } with hub := { pins := { pwrOk := true, pcieUp := true }, records := [x] } }
    s.hub.records[0]? = some x ∧ s.deliverable x = true := by
  decide +kernel

/-- RingsAndTheHostLinkStartAndStop: LOGSIZE at its ends; units not signalled; a placed plot before and after bell zero. -/
theorem test_can_rings :
    let v (n : Nat) : Word := BitVec.ofNat 64 (1 + 2 * n)
    ((v 10).extractLsb' 1 5 : BitVec 5).toNat = 10 ∧ ((v 24).extractLsb' 1 5 : BitVec 5).toNat = 24 ∧ (ringOf State.reset 1 false).enable = false ∧
      (match exec (.ringEnable 1 false (v 24)) State.reset with | .next t => ((t.plot 1).sq.enable, (t.plot 1).sq.logsize) | _ => (false, 0)) = (true, 24) ∧
      (match exec (.ringEnable 1 false (v 25)) State.reset with | .next t => ((t.plot 1).sq.enable, (t.plot 1).counts.ignored) | _ => (true, 0)) = (false, 1) ∧
      (match exec (.ringEnable 1 true (v 9)) State.reset with | .next t => ((t.plot 1).cq.enable, (t.plot 1).counts.ignoredLast) | _ => (true, 0)) = (false, 0x28) ∧
      ({ plotRings with host := { cqEn := true, unsignalled := 1 } } : Plot).host.cqEn = true ∧ (withRings plotRings).hub.boot.bellZero = false := by
  decide +kernel

/-- An FLR clears the rings and leaves one PLOT_RESET. -/
theorem test_flr :
    (match exec (.flr 1) (withRings plotRings) with | .next t => ((t.plot 1).sq, (t.plot 1).packets.staged.map (·.type), (t.plot 1).place.state, (t.plot 1).moving.flr) | _ => ({}, [], 0, false)) = ({}, [0x24], 3, true) := by
  decide +kernel

/-- MovesAndFlashOperationsEnd: a plot being saved, one being restored with a block of its first core, a flash operation of each kind. -/
theorem test_can_move_plots :
    let p : Plot := { plotRun with moving := { restoring := true, saved := [{ rel := 0, work := {} }, { rel := 3, work := {} }] } }
    let op (k : Nat) : FlashOp := { op := 0, p := { packet1 with param := BitVec.ofNat 64 (2 + 2 ^ 4 * k + 2 ^ 8 * (if k = 0 then 1536 else 3)) }, unit := 0, bell := 7 }
    let s : State := { State.reset with hub := { flash := { ops := [op 5] } } }
    p.cores.Nodup ∧ p.moving.saved.Pairwise (fun a b => a.rel ≠ b.rel) ∧ p.cores[3]? = some 65 ∧ s.hub.flash.ops = [op 5] ∧ s.flashRefusal (op 5).p = none ∧ s.flashRefusal (op 3).p = none ∧
      (match s.flashRun (op 5).p with | .ok t => t.hub.keys.minSecurity | .error _ => 0) = 3 ∧ fieldOf (op 0).p.param 4 4 = 0 ∧ (∀ k < 7, fieldOf (op k).p.param 4 4 = k) ∧
      (let w : State := { s with hub.flash.catalogue := [(2, { state := 2, length := 64 })] }; w.flashRefusal (op 1).p = none ∧ w.flashRefusal (op 2).p = none) ∧
      (match exec .flashOpDone s with | .next t => (t.hub.flash.ops.length, t.hub.keys.minSecurity, (t.plot 1).packets.completions.map (·.bell)) | _ => (9, 0, [])) = (0, 3, [7]) ∧
      (match exec (.resumeRestoreDone 1) { withCore coreRun with plots := [(1, p)] } with | .next t => ((t.plot 1).place.state, (t.plot 1).moving.restoring) | _ => (9, true)) = (1, false) ∧
      (match exec (.coreClearDone 0) (withCore { clearing := true }) with | .next t => (t.core 0).clearing | _ => true) = false ∧
      (match exec (.preemptSaveDone 1) { withCore coreRun with plots := [(1, { plotRun with moving := { saving := true } })] } with | .next t => ((t.plot 1).place.state, (t.plot 1).place.rows, (t.core 0).clearing, (t.core 0).owner) | _ => (0, 9, false, none)) = (6, 0, true, none) := by
  decide +kernel

/-- RegistersAndMailboxesAnswer: an idle ring to drain, answers that wait, values at the ends of their fields, a stopped plot to diagnose and one that is busy. -/
theorem test_can_register :
    let idle := withRings { plotRings with sq := { enable := true, logsize := 10, tail := 4, head := 4 }, host := { draining := true, fromFull := true, answers := [5] } }
    (idle.plot 1).host.draining = true ∧ (idle.plot 1).sq.tail = (idle.plot 1).sq.head ∧ idle.backlogEmpty 1 = true ∧ (idle.plot 1).host.toFull = false ∧ (idle.plot 1).host.answers = [5] ∧
      (match exec (.bellctlWrite 1 0x00000FA00FA00001) State.reset with | .next t => t.readReg 1 (.function 0x108) | _ => 0) = 0x00000FA00FA00001 ∧
      (match exec (.bellctlWrite 1 0x00000FA10FA00001) State.reset with | .next t => (t.plot 1).counts.ignored | _ => 0) = 1 ∧
      (withRings plotRings).windowCore 1 2 0 = none ∧ (withCore coreRun).windowCore 1 0 0 = some 0 := by
  decide +kernel

theorem test_can_diagnose :
    let p : Plot := { plotRun with place := { plotRun.place with state := 5 }, step := {} }
    p.place.state = 5 ∧ p.counts.diagBusy = false ∧ fieldOf (0x21FFF : Word) 16 8 = 2 ∧
      (match exec (.diagGo 1 0x21FFF) { withCore coreRun with plots := [(1, p)] } with | .next t => ((t.plot 1).counts.diagBusy, (t.plot 1).counts.diagLeft, (t.core 0).step.main.next) | _ => (false, 0, 0)) = (true, 2, 8191) ∧
      (match exec (.diagStep 1 none) (atBell { p with counts := { diagBusy := true, diagLeft := 2 }, step := { phase := .diagnostic } } coreDone) with | .next t => ((t.plot 1).counts.diagBusy, (t.plot 1).counts.diagLeft) | _ => (false, 0)) = (true, 1) := by
  decide +kernel

/-- An RWL field takes a value in range before the load and none after it. -/
theorem test_can_write_field :
    let lo := (rwlRange .steps).1
    let hi := (rwlRange .steps).2
    lo ≤ hi ∧ ({ plotRun with place := {} } : Plot).place.image = none ∧ plotRun.place.image ≠ none ∧
      (match exec (.rwlFieldWrite 1 .steps (BitVec.ofNat 64 hi)) { State.reset with plots := [(1, { plotRun with place := {} })] } with | .next t => (t.plot 1).regs.rwl .steps | _ => 0) = hi ∧
      rwlIn .rampUp 0 = false ∧ ({} : PlotRegs).rwl .rampUp = 0 ∧
      (match exec (.rwlFieldWrite 1 .bruiseNan 0) { State.reset with plots := [(1, { plotRun with place := {} })] } with | .next t => (t.plot 1).regs.wroteNan | _ => false) = true ∧
      (match exec (.rwlFieldWrite 1 .steps (BitVec.ofNat 64 (hi + 1))) { State.reset with plots := [(1, { plotRun with place := {} })] } with | .next t => (t.plot 1).counts.ignored | _ => 0) = 1 := by
  decide +kernel

/-! ### Witnesses of the statements about the whole machine -/

/-- EmptyQueueIdles and StepRunsFrontCommand: the queue is empty at reset, and a queued command is run with the queue's rest. -/
theorem test_queue :
    State.reset.pending = [] ∧ (match step { State.reset with pending := [.sysrefLoss 0, .calendarEnd 5] } with | .next t => t.pending | _ => []) = [.calendarEnd 5] := by
  decide +kernel

/-- AbsentPartsFault: row 56 on the small grade, channel 448 there, lane 9. -/
theorem test_absent :
    let s : State := { State.reset with grade := .mt3584 }
    let i : Issue := { core := BitVec.ofNat 12 (64 * 56), fill := false, head := none }
    s.grade.rows ≤ rowOf i.core ∧ s.grade.channels ≤ (448 : ChanId).toNat ∧ exec (.stopBundle i) s = .fault .noSuchCore ∧ exec (.deepStall 448) s = .fault .noSuchChannel ∧ exec (.ackReceived 1 9 0) s = .fault .noSuchLane := by
  refine ⟨?_, ?_, rfl, rfl, rfl⟩ <;> decide

/-- SlotOperationsDecodeAsEncoded: an operation of each slot in range, and one scalar operation out of range. -/
theorem test_in_range :
    inRangeScalar .snop = true ∧ inRangeVector (.mset 7 0xFFFFFFFF) = true ∧ inRangeMatrix (.mnop 1) = true ∧ inRangeLoad (.lds 9 2 3 0x1FFFF) = true ∧ inRangeStore (.sts 31 63 15 0) = true ∧ inRangeSync (.test 63 31) = true := by
  decide

/-- MemoriesStayCanonical: reset keeps the form, and a step runs from it. -/
theorem test_mem_ok : State.reset.MemOk ∧ step State.reset = .next State.reset := by
  refine ⟨⟨?_, ?_, ?_, ?_⟩, rfl⟩
  all_goals simp [State.reset, Memory.wf, AMap.wf, AMap.rising]

/-- LoopFramesAndEntries, NoOperationsChangeNothing: an issue outside every loop, class 0, frame 0 and count 1; a loop of the fill stream. -/
theorem test_can_open_loop :
    let c := opened (withCore coreRun) firstMain
    (c.stream false).depth = 0 ∧ headerClass (c.stream false).header = 0 ∧ inRangeScalar (.lbegin 0 0 0 1) = true ∧ inRangeScalar (.lbegin 5 0 0 0x7FFFF) = true ∧ inRangeScalar (.linc 0 3 15 1 0x7FFFF) = true ∧
      inRangeScalar (.snext 1 0 0 8191) = true ∧ ((opened (withCore coreFill) firstFill).stream true).depth = 0 := by
  decide

/-- MaskOperationsAndVget, TestReadsItsTally: registers at both ends, free to write. -/
theorem test_can_mask :
    let c := opened (withCore coreRun) firstMain
    Usable c false [vUse 0, vUse 31, mUse 7] ∧ Unclaimed c (mUse 7) 1 ∧ Usable c false [vUse 31, (.s, 31)] ∧ Unclaimed c (.s, 31) 2 ∧ Usable c false [(.s, 0)] ∧ Unclaimed c (.s, 0) 1 := by
  unfold Usable Unclaimed
  decide

/-- VCMP orders signed lanes as signed (condition 2) and as unsigned (condition 4): lane 0 holds -1, the other register 0. -/
theorem test_vcmp :
    let c : CoreState := { coreRun with work.v := [(1, { bits := 0xFFFFFFFF })] }
    let mask (cond : BitVec 3) : Option Bool :=
      match exec (vectorRow firstMain (.vcmp 2 1 0 cond)) (withCore c) with
      | .next t => (t.core 0).step.events.findSome? (fun e => match e.ev with | .result (.m _ m) _ => some (m.bits.getLsbD 0) | _ => none)
      | _ => none
    mask 2 = some true ∧ mask 4 = some false := by
  decide +kernel

/-- StoreWritesLand: one store waits on a core of a running plot. -/
theorem test_can_write :
    let s := withCore { coreRun with step.events := [{ fc := 2, ev := .write [{ addr := 64, val := 7, bruise := false }] false {} }] }
    s.hasCore 0 = true ∧ (s.env 0).running = true ∧ (s.core 0).step.offset ≤ 2 := by
  decide

/-- SlotOperationsKeepEverythingElse: a second command of a bundle that answers a next state. -/
theorem test_can_go_on :
    (match exec (scalarRow firstMain .snop) (withCore coreRun) with
      | .next t => (match exec (vectorRow { firstMain with head := none } .vnop) t with | .next _ => true | _ => false)
      | _ => false) = true := by
  decide +kernel

end Sys2Proof.Tests
end

section
/-! Bundles that are cancelled whole (R191, R195, R210): what opening one leaves of its core, and that no shape of a slot command adds anything to it. -/

namespace Sys2Proof.Machine

/-! ### An issue stream after it is replaced and after a fault -/

@[simp] theorem CoreState.stream_setStreamState (c : CoreState) (fill : Bool) (v : StreamState) : (c.setStreamState fill v).stream fill = v := by
  cases fill <;> rfl

@[simp] theorem CoreState.setStreamState_work (c : CoreState) (fill : Bool) (v : StreamState) : (c.setStreamState fill v).work = c.work := by
  cases fill <;> rfl

@[simp] theorem CoreState.setStreamState_events (c : CoreState) (fill : Bool) (v : StreamState) : (c.setStreamState fill v).step.events = c.step.events := by
  cases fill <;> rfl

@[simp] theorem CoreState.setStreamState_offset (c : CoreState) (fill : Bool) (v : StreamState) : (c.setStreamState fill v).step.offset = c.step.offset := by
  cases fill <;> rfl

@[simp] theorem CoreState.issueFault_stream (c : CoreState) (code : Code) (o : Origin) (fill : Bool) : (c.issueFault code o).stream fill = c.stream fill := rfl

/-! ### Opening a bundle that is cancelled whole -/

/-- What cancels a bundle whole: an address of 8,192 or more, a header that faults, or a matrix slot in the fill stream (R191, R195, R210). -/
theorem bundleCancels_isSome_iff (h : BundleHead) (fill : Bool) (address : Nat) :
    (bundleCancels h fill address).isSome = true ↔ 8192 ≤ address ∨ headerFaults h.header fill h.syncZero = true ∨ (fill = true ∧ h.matrix ≠ 0) := by
  unfold bundleCancels
  split
  · next hk =>
    have hah : 8192 ≤ address ∨ headerFaults h.header fill h.syncZero = true := by simpa using hk
    exact iff_of_true rfl (hah.imp_right .inl)
  · next hk =>
    obtain ⟨ha, hh⟩ : ¬ 8192 ≤ address ∧ headerFaults h.header fill h.syncZero = false := by simpa using hk
    simp [ha, hh]

/-- What a core keeps, and what it gains, when the bundle of a stream is cancelled whole: all work stands, one BAD_BUNDLE report of the present fc is added, and the stream's bundle is none that issues. -/
structure CancelledFrom (c d : CoreState) (fill : Bool) : Prop where
  work : d.work = c.work
  events : d.step.events = c.step.events
  offset : d.step.offset = c.step.offset
  report : ∃ r : CoreReport, d.traffic.reports = c.traffic.reports ++ [r] ∧ r.code = 0x2007 ∧ r.offset = c.step.offset
  notLive : d.bundleLive fill = false

/-- Doze, which a bundle of the main stream ends, has no part in what is kept (R253). -/
theorem CancelledFrom.of_doze {c d : CoreState} {fill doze : Bool} (h : CancelledFrom { c with totals.doze := doze } d fill) : CancelledFrom c d fill :=
  ⟨h.work, h.events, h.offset, h.report, h.notLive⟩

/-- A fault at issue from a stream whose bundle has just been cancelled. -/
theorem CoreState.issueFault_cancelledFrom (c : CoreState) (fill : Bool) (st : StreamState) (o : Origin) (hst : st.cancelled = true) :
    CancelledFrom c ((c.setStreamState fill st).issueFault 0x2007 o) fill where
  work := c.setStreamState_work fill st
  events := c.setStreamState_events fill st
  offset := c.setStreamState_offset fill st
  report := by cases fill <;> exact ⟨_, rfl, rfl, rfl⟩
  notLive := by simp [CoreState.bundleLive, hst]

theorem CoreState.issueBundle_cancelledFrom {c : CoreState} {fill : Bool} {h : BundleHead} (hk : (bundleCancels h fill (c.stream fill).next).isSome = true) :
    CancelledFrom c (c.issueBundle fill h) fill := by
  obtain ⟨k, hk⟩ := Option.isSome_iff_exists.mp hk
  unfold CoreState.issueBundle
  simp only [hk]
  cases fill with
  | true => exact c.issueFault_cancelledFrom true _ _ rfl
  | false => exact .of_doze (CoreState.issueFault_cancelledFrom _ false _ _ rfl)

/-- A bundle that is cancelled whole is never held: where its stream may issue, it is opened, whatever its wait says (R252). -/
theorem CoreState.openBundle_cancelled {c : CoreState} {env : Env} {fill : Bool} {h : BundleHead} (ready : CoreState → Bool)
    (hm : (c.runTo env (c.step.offset + h.dt)).mayIssue fill = true)
    (hk : (bundleCancels h fill ((c.runTo env (c.step.offset + h.dt)).stream fill).next).isSome = true) :
    c.openBundle env fill h ready = (c.runTo env (c.step.offset + h.dt)).issueBundle fill h := by
  simp [CoreState.openBundle, hm, Option.isNone_eq_false_iff.mpr hk]

@[simp] theorem CoreState.runTo_offset (env : Env) (c : CoreState) : c.runTo env c.step.offset = c := by
  simp [CoreState.runTo, CoreState.run]

/-- What a core sends into the mesh leaves its streams as they are. -/
theorem became_bundleLive (s : State) (cid : CoreId) (c : CoreState) (fill : Bool) : ((Claims.became s cid c).core cid).bundleLive fill = c.bundleLive fill := by
  have hcore : (Claims.became s cid c).core cid = { c with traffic.outbox := [], traffic.unitsOut := [] } := s.onCore_core cid (fun _ _ => c)
  rw [hcore]
  rfl

/-! ### The shapes of a slot command -/

/-- The answers that slot commands of issue `i` are built as: of the core alone, of a wait, and of a sync operation that also acts outside the core. -/
inductive SlotShape (s : State) (i : Issue) : Host.Outcome State Fault Refusal → Prop where
  | slot (slot : Nat) (word : Word) (act : Env → Origin → CoreState → CoreState) : SlotShape s i (slotCommand s i slot word act)
  | wait (opc : BitVec 5) (w : BitVec 27) (exempt : SyncOp → CoreState → Bool) (object : SyncOp → Option (BitVec 16)) (act : Env → SyncOp → Origin → CoreState → CoreState) :
    SlotShape s i (waitCommand s i opc w exempt object act)
  | outer (opc : BitVec 5) (w : BitVec 27) (act : State → SyncOp → Origin → State) : SlotShape s i (outerCommand s i opc w act)

/-- Every slot row answers in one of the three shapes. -/
theorem exec_slotShape {i : Issue} {row : Instr} (s : State) (h : Claims.SlotRow i row) : SlotShape s i (exec row s) := by
  cases row with
  | wait | post | select | cwait | ctake | amsg => cases h; exact .wait _ _ _ _ _
  | bar | cadd | cput => cases h; exact .outer _ _ _
  | _ => cases h <;> exact .slot _ _ _

/-! ### A slot command that comes first in a cancelled bundle -/

section Cancelled

variable {s : State} {i : Issue} {h : BundleHead}

/-- Where bundle `h` would issue, something cancels it whole. -/
structure OpensCancelled (s : State) (i : Issue) (h : BundleHead) : Prop where
  hasCore : s.hasCore i.core = true
  running : (s.env i.core).running = true
  head : i.head = some h
  mayIssue : (Claims.later s i.core h.dt).mayIssue i.fill = true
  cancels : (bundleCancels h i.fill ((Claims.later s i.core h.dt).stream i.fill).next).isSome = true

theorem OpensCancelled.opened_eq (hc : OpensCancelled s i h) :
    Claims.opened s i = (Claims.later s i.core h.dt).issueBundle i.fill h := by
  simp only [Claims.opened, CoreState.presented, hc.head]
  exact CoreState.openBundle_cancelled _ hc.mayIssue hc.cancels

theorem OpensCancelled.cancelledFrom (hc : OpensCancelled s i h) :
    CancelledFrom (Claims.later s i.core h.dt) (Claims.opened s i) i.fill :=
  hc.opened_eq ▸ CoreState.issueBundle_cancelledFrom hc.cancels

/-- Presenting the bundle again in the fc in which it issues opens it just the same. -/
theorem OpensCancelled.reopened_eq (hc : OpensCancelled s i h) (ready : CoreState → Bool) :
    (Claims.later s i.core h.dt).openBundle (s.env i.core) i.fill { h with dt := 0 } ready = Claims.opened s i := by
  rw [hc.opened_eq, CoreState.openBundle_cancelled]
  all_goals simp only [Nat.add_zero, CoreState.runTo_offset]
  · rfl
  · exact hc.mayIssue
  · exact hc.cancels

theorem OpensCancelled.inBundle_eq (hc : OpensCancelled s i h) (slot : Nat) (word : Word) (act : Origin → CoreState → CoreState) :
    (s.core i.core).inBundle (s.env i.core) i slot word act = Claims.opened s i :=
  CoreState.inBundle_held slot word act hc.cancelledFrom.notLive

theorem OpensCancelled.onCore_eq (hc : OpensCancelled s i h) (slot : Nat) (word : Word) (act : Env → Origin → CoreState → CoreState) :
    s.onCore i.core (fun env c => c.inBundle env i slot word (act env)) = Claims.became s i.core (Claims.opened s i) := by
  rw [State.onCore, hc.inBundle_eq]
  rfl

theorem OpensCancelled.slotCommand_eq (hc : OpensCancelled s i h) (slot : Nat) (word : Word) (act : Env → Origin → CoreState → CoreState) :
    slotCommand s i slot word act = .next (Claims.became s i.core (Claims.opened s i)) := by
  rw [slotCommand_running slot word act hc.hasCore hc.running, hc.onCore_eq]

theorem OpensCancelled.main_not_isNone (hc : OpensCancelled s i h) (hf : i.fill = false) :
    (bundleCancels h false (Claims.later s i.core h.dt).step.main.next).isNone = false := by
  have hk := hc.cancels
  rw [hf] at hk
  exact Option.isNone_eq_false_iff.mpr hk

/-- A wait does not hold a cancelled bundle, and its operation comes after the bundle has been opened in the same fc. -/
theorem OpensCancelled.waitCommand_eq (hc : OpensCancelled s i h) (opc : BitVec 5) (w : BitVec 27) (exempt : SyncOp → CoreState → Bool) (object : SyncOp → Option (BitVec 16))
    (act : Env → SyncOp → Origin → CoreState → CoreState) :
    waitCommand s i opc w exempt object act = .next (Claims.became s i.core (Claims.opened s i)) := by
  unfold waitCommand
  rw [coreCommand_running _ hc.hasCore hc.running, State.onCore]
  simp only [hc.head]
  rw [← Claims.later, hc.reopened_eq, if_neg, CoreState.inBundle_held, CoreState.presented_later rfl]
  · rfl
  · exact hc.cancelledFrom.notLive
  · cases hf : i.fill with
    | true => simp
    | false => simp [hc.main_not_isNone hf]

/-- A sync operation that also acts outside the core finds that its bundle does not issue. -/
theorem OpensCancelled.openSync_eq (hc : OpensCancelled s i h) (opc : BitVec 5) (w : BitVec 27) :
    openSync s i opc w = (Claims.became s i.core (Claims.opened s i), none) := by
  unfold openSync
  simp only [hc.onCore_eq, became_bundleLive, hc.cancelledFrom.notLive]
  rfl

theorem OpensCancelled.outerCommand_eq (hc : OpensCancelled s i h) (opc : BitVec 5) (w : BitVec 27) (act : State → SyncOp → Origin → State) :
    outerCommand s i opc w act = .next (Claims.became s i.core (Claims.opened s i)) := by
  simp [outerCommand, hc.hasCore, hc.running, hc.openSync_eq]

/-- A slot row that comes first in a cancelled bundle does no more than open it. -/
theorem OpensCancelled.exec_eq (hc : OpensCancelled s i h) {row : Instr} (hrow : Claims.SlotRow i row) :
    exec row s = .next (Claims.became s i.core (Claims.opened s i)) := by
  have hshape := exec_slotShape s hrow
  generalize exec row s = answer at hshape ⊢
  cases hshape with
  | slot slot word act => exact hc.slotCommand_eq slot word act
  | wait opc w exempt object act => exact hc.waitCommand_eq opc w exempt object act
  | outer opc w act => exact hc.outerCommand_eq opc w act

end Cancelled

end Sys2Proof.Machine

namespace Sys2Proof.Claims

open Sys2Proof.Machine

/-- Settles O28: something cancels the bundle whole, so every slot row does no more than open it, and opening it only reports BAD_BUNDLE. -/
theorem bundleAddressesEndAt8191 : Obligations.BundleAddressesEndAt8191 := by
  unfold Obligations.BundleAddressesEndAt8191
  intro s i h row env c hrow hcore hrun hhead hissue hcause
  have hc : OpensCancelled s i h := ⟨hcore, hrun, hhead, hissue, (bundleCancels_isSome_iff _ _ _).mpr hcause⟩
  obtain ⟨hwork, hevents, hoffset, hreport, -⟩ := hc.cancelledFrom
  exact ⟨hc.exec_eq hrow, hwork, hevents, hoffset, hreport⟩

end Sys2Proof.Claims
end

section
/-! Register writes that meet no other (R193, R204), sync-slot operations that never wait (R248), and TEST (R251). -/

namespace Sys2Proof.Machine

/-! ### Operations on registers that are the stream's own and meet no other write (R193, R204) -/

/-- An operation on registers of its own stream acts. -/
theorem CoreState.withRegs_usable {c : CoreState} {o : Origin} {reads writes : List (RegClass × Nat)} (act : CoreState → CoreState) (h : Claims.Usable c o.fill (reads ++ writes)) :
    c.withRegs o reads writes act = act c :=
  if_pos (List.all_eq_true.mpr h)

/-- Where no other write to a register lands, no operation of a higher slot has claimed it. -/
theorem CoreState.laterClaim_unclaimed {c : CoreState} {u : RegClass × Nat} {fc : Nat} (o : Origin) (h : Claims.Unclaimed c u fc) : c.laterClaim o u.1 u.2 fc = none := by
  refine List.find?_eq_none.mpr fun k hk hlater => ?_
  obtain ⟨hcls, hreg, hfc, hmain, -, -⟩ : k.cls = u.1 ∧ k.reg = u.2 ∧ k.fc = fc ∧ k.fill = false ∧ k.issued = c.step.offset ∧ o.slot < k.slot := by simpa [and_assoc] using hlater
  exact List.any_eq_false.mp h k hk (by simp [hcls, hreg, hfc, hmain])

theorem CoreState.giveWay_unclaimed {c : CoreState} {u : RegClass × Nat} {fc : Nat} (o : Origin) (h : Claims.Unclaimed c u fc) : c.giveWay o u fc = c := by
  simp [CoreState.giveWay, c.laterClaim_unclaimed o h]

/-- An operation whose one write meets no other claims its register and acts; S0 and A0 are not claimed. -/
theorem CoreState.withClaims_unclaimed {c : CoreState} {u : RegClass × Nat} {fc : Nat} (o : Origin) (act : CoreState → CoreState) (h : Claims.Unclaimed c u fc) :
    c.withClaims o [u] fc act = act (Claims.claimed c o u fc) := by
  have hclash : c.clashes u.1 u.2 fc false = false := h
  unfold CoreState.withClaims Claims.claimed
  cases hzero : hardZero u.1 u.2 with
  | true => simp [hzero]
  | false => simp [hzero, hclash, c.giveWay_unclaimed o h]

@[simp] theorem claimed_work (c : CoreState) (o : Origin) (u : RegClass × Nat) (fc : Nat) : (Claims.claimed c o u fc).work = c.work := by
  unfold Claims.claimed
  split <;> rfl

@[simp] theorem claimed_offset (c : CoreState) (o : Origin) (u : RegClass × Nat) (fc : Nat) : (Claims.claimed c o u fc).step.offset = c.step.offset := by
  unfold Claims.claimed
  split <;> rfl

/-- A result that is on its way has changed no work of the core. -/
@[simp] theorem schedule_work (c : CoreState) (o : Origin) (fc : Nat) (w : RegWrite) : (Claims.schedule c o fc w).work = c.work :=
  claimed_work c o w.target fc

/-- A scalar result that meets no other write and counts no clamp is scheduled for the fc in which it lands. -/
theorem CoreState.scalarResult_unclaimed {c : CoreState} {o : Origin} {reads : List (BitVec 5)} {d : BitVec 5} {lat : Nat} (v : Word)
    (huse : Claims.Usable c o.fill (reads.map (fun r => (.s, r.toNat)) ++ [(.s, d.toNat)])) (hfree : Claims.Unclaimed c (.s, d.toNat) (c.step.offset + lat)) :
    c.scalarResult o reads d lat v false = Claims.schedule c o (c.step.offset + lat) (.s d v) := by
  unfold CoreState.scalarResult
  rw [CoreState.withRegs_usable _ huse, CoreState.withClaims_unclaimed _ _ hfree, claimed_offset]
  rfl

/-- What a core sends leaves its work as it is. -/
theorem became_work (s : State) (cid : CoreId) (c : CoreState) : ((Claims.became s cid c).core cid).work = c.work := by
  have hcore : (Claims.became s cid c).core cid = { c with traffic.outbox := [], traffic.unitsOut := [] } := s.onCore_core cid (fun _ _ => c)
  rw [hcore]

/-! ### Sync-slot operations that never wait (R248) -/

/-- A sync-slot word is its opcode and its operand bits. -/
theorem syncWord_opcode_append (x : BitVec 32) : x.extractLsb' 27 5 ++ x.setWidth 27 = x := by
  rw [BitVec.setWidth_eq_extractLsb' (by decide), BitVec.extractLsb'_append_extractLsb'_eq_extractLsb' (by rfl), BitVec.extractLsb'_eq_self]

/-- Where the bundle issues, the row of an operation that never waits has the operation's effect in the issue fc. -/
theorem syncCommand_issues {s : State} {i : Issue} {opc : BitVec 5} {op : SyncOp} (act : Env → SyncOp → Origin → CoreState → CoreState)
    (hissue : Claims.Issues s i) (hopc : (encodeSync op).extractLsb' 27 5 = opc) (hdec : decodeSync (encodeSync op) = some op) :
    syncCommand s i opc ((encodeSync op).setWidth 27) act =
      .next (Claims.became s i.core (act (s.env i.core) op (Claims.originOf s i 6 (Claims.syncBits op)) (Claims.opened s i))) := by
  obtain ⟨hcore, hrun, hlive⟩ := hissue
  have hword : opc ++ (encodeSync op).setWidth 27 = encodeSync op := hopc ▸ syncWord_opcode_append (encodeSync op)
  unfold syncCommand syncWord
  rw [hword, slotCommand_running _ _ _ hcore hrun, State.onCore, CoreState.inBundle_live _ _ _ hlive, hdec]
  rfl

/-! ### The word of TEST (R248) -/

section TestWord

variable (tally : BitVec 6) (sd : BitVec 5)

theorem encodeSync_test_opcode : (encodeSync (.test tally sd)).extractLsb' 27 5 = 2 := by
  rw [encodeSync, BitVec.extractLsb'_append_eq_of_le (by decide), BitVec.extractLsb'_append_eq_of_le (by decide)]
  exact BitVec.extractLsb'_append_eq_left

theorem encodeSync_test_tally : (encodeSync (.test tally sd)).extractLsb' 21 6 = tally := by
  rw [encodeSync, BitVec.extractLsb'_append_eq_of_le (by decide), BitVec.extractLsb'_append_eq_of_le (by decide)]
  exact BitVec.extractLsb'_append_eq_right

theorem encodeSync_test_sd : (encodeSync (.test tally sd)).extractLsb' 16 5 = sd := by
  rw [encodeSync, BitVec.extractLsb'_append_eq_of_le (by decide)]
  exact BitVec.extractLsb'_append_eq_right

theorem decodeSync_encodeSync_test : decodeSync (encodeSync (.test tally sd)) = some (.test tally sd) := by
  have hfields : fieldsSync (encodeSync (.test tally sd)) = some (.test tally sd) := by
    simp [fieldsSync, encodeSync_test_opcode, encodeSync_test_tally, encodeSync_test_sd]
  simp [decodeSync, hfields, inRangeSync]

end TestWord

end Sys2Proof.Machine

namespace Sys2Proof.Claims

open Sys2Proof.Machine

/-- Where its bundle issues and SD is free, TEST does no more than schedule its result, the tally as it stands in the issue fc. -/
theorem exec_test {s : State} {i : Issue} (tally : BitVec 6) {sd : BitVec 5} (hissue : Issues s i) (huse : Usable (opened s i) i.fill [(.s, sd.toNat)])
    (hfree : Unclaimed (opened s i) (.s, sd.toNat) ((opened s i).step.offset + 1)) :
    exec (syncRow i (.test tally sd)) s =
      .next (became s i.core (schedule (opened s i) (originOf s i 6 (syncBits (.test tally sd))) ((opened s i).step.offset + 1) (.s sd (((opened s i).tally tally).setWidth 64)))) :=
  calc exec (syncRow i (.test tally sd)) s
    _ = execTest i ((encodeSync (.test tally sd)).setWidth 27) s := rfl
    _ = .next (became s i.core ((opened s i).scalarResult (originOf s i 6 (syncBits (.test tally sd))) [] sd 1 (((opened s i).tally tally).setWidth 64) false)) :=
      syncCommand_issues _ hissue (encodeSync_test_opcode tally sd) (decodeSync_encodeSync_test tally sd)
    _ = _ := by rw [CoreState.scalarResult_unclaimed _ huse hfree]

/-- Settles O23: TEST only schedules its result, and neither a result on its way nor what a core sends touches the core's tallies. -/
theorem testReadsItsTally : Obligations.TestReadsItsTally := by
  unfold Obligations.TestReadsItsTally
  intro s i tally sd c f hissue huse hfree
  refine ⟨_, exec_test tally hissue huse hfree, rfl, fun q => ?_⟩
  unfold CoreState.tally
  rw [became_work, schedule_work]

end Sys2Proof.Claims
end

section
/-! The counters of both rings and the packets that the device writes (R365, R414 to R416, R431 to R433): what a doorbell and a write of HEAD leave, what writing one packet leaves of its plot, and that the completion ring then holds no more than its size. -/

namespace Sys2Proof.Machine

open Claims (heldUnits withRing ignoredAt)

/-! ### Counters that the host writes (R416) -/

theorem Ring.doorbell_eq (r : Ring) (tail : BitVec 32) :
    r.doorbell tail = if (tail - r.head).toNat ≤ 2 ^ r.logsize.toNat ∧ heldUnits r ≤ (tail - r.head).toNat then some { r with tail := tail } else none := by
  simp only [Ring.doorbell, Bool.and_eq_true, decide_eq_true_eq]
  rfl

theorem Ring.consume_eq (r : Ring) (head : BitVec 32) :
    r.consume head = if (head - r.head).toNat ≤ heldUnits r then some { r with head := head } else none := rfl

theorem exec_sqtailDoorbell_taken {s : State} {fn : Fn} {tail : BitVec 32} {r : Ring} (h : (s.plot fn).sq.doorbell tail = some r) :
    exec (.sqtailDoorbell fn tail) s = .next (withRing s fn false r) :=
  congrArg Host.Outcome.next (State.writeRing_submission h)

theorem exec_sqtailDoorbell_ignored {s : State} {fn : Fn} {tail : BitVec 32} (h : (s.plot fn).sq.doorbell tail = none) :
    exec (.sqtailDoorbell fn tail) s = .next (ignoredAt s fn 0x10) :=
  congrArg Host.Outcome.next (State.writeRing_none (completion := false) h)

theorem exec_cqheadWrite_taken {s : State} {fn : Fn} {head : BitVec 32} {r : Ring} (h : (s.plot fn).cq.consume head = some r) :
    exec (.cqheadWrite fn head) s = .next (withRing s fn true r) :=
  congrArg Host.Outcome.next (State.writeRing_completion h)

theorem exec_cqheadWrite_ignored {s : State} {fn : Fn} {head : BitVec 32} (h : (s.plot fn).cq.consume head = none) :
    exec (.cqheadWrite fn head) s = .next (ignoredAt s fn 0x30) :=
  congrArg Host.Outcome.next (State.writeRing_none (completion := true) h)

/-! ### A packet written into a completion ring (R416, R434) -/

/-- The interrupt that a write may raise has no part in the rings, the packets or the reports of its plot. -/
theorem Plot.signal_frame (p : Plot) (n : Nat) (irq : Bool) :
    (p.signal n irq).cq = p.cq ∧ (p.signal n irq).packets = p.packets ∧ (p.signal n irq).faults = p.faults := by
  unfold Plot.signal
  dsimp only
  split <;> exact ⟨rfl, rfl, rfl⟩

@[simp] theorem Plot.emit_cq (p : Plot) (d : DevPacket) : (p.emit d).cq = { p.cq with tail := p.cq.tail + BitVec.ofNat 32 d.units } :=
  (Plot.signal_frame _ _ _).1

@[simp] theorem Plot.emit_packets (p : Plot) (d : DevPacket) : (p.emit d).packets = { p.packets with written := p.packets.written ++ [d] } :=
  (Plot.signal_frame _ _ _).2.1

@[simp] theorem Plot.emit_faults (p : Plot) (d : DevPacket) : (p.emit d).faults = p.faults :=
  (Plot.signal_frame _ _ _).2.2

theorem State.ringRoom_iff (s : State) (fn : Fn) (n : Nat) :
    s.ringRoom fn n = true ↔
      (s.plot fn).cq.enable = true ∧ (s.plot fn).cq.halted = false ∧ s.hub.pins.pcieUp = true ∧ heldUnits (s.plot fn).cq + n ≤ 2 ^ (s.plot fn).cq.logsize.toNat := by
  simp [State.ringRoom, heldUnits, and_assoc]

/-- Units within the size of a ring, which is below 2^32, are counted without a wrap. -/
theorem heldUnits_advance {r : Ring} {n : Nat} (h : heldUnits r + n ≤ 2 ^ r.logsize.toNat) :
    heldUnits { r with tail := r.tail + BitVec.ofNat 32 n } = heldUnits r + n := by
  have hsize : 2 ^ r.logsize.toNat ≤ 2 ^ 31 := Nat.pow_le_pow_right (by decide) (Nat.le_of_lt_succ r.logsize.isLt)
  have hmove : r.tail + BitVec.ofNat 32 n - r.head = (r.tail - r.head) + BitVec.ofNat 32 n := by ring
  unfold heldUnits at *
  rw [hmove, BitVec.toNat_add, BitVec.toNat_ofNat, Nat.add_mod_mod, Nat.mod_eq_of_lt (by omega)]

/-! ### DEVICE_PACKET_WRITE (R432, R433) -/

/-- A plot without the first packet of one part of its backlog; the reeve's log stands in the hub. -/
def Plot.dropFirst (p : Plot) : Backlog → Plot
  | .result => { p with packets.results := p.packets.results.drop 1 }
  | .completion => { p with packets.completions := p.packets.completions.drop 1 }
  | .report => { p with faults.queue := p.faults.queue.drop 1 }
  | .log => p

@[simp] theorem Plot.dropFirst_cq (p : Plot) (k : Backlog) : (p.dropFirst k).cq = p.cq := by cases k <;> rfl

@[simp] theorem Plot.dropFirst_written (p : Plot) (k : Backlog) : (p.dropFirst k).packets.written = p.packets.written := by cases k <;> rfl

/-- The state in which the first packet of one part of a backlog stands written. -/
def State.writeFirst (s : State) (fn : Fn) (k : Backlog) (d : DevPacket) : State :=
  let t := s.setPlot fn (((s.plot fn).dropFirst k).emit d)
  if k = .log then t.modHub (fun h => { h with faults.logSent := h.faults.logSent + 1 }) else t

@[simp] theorem State.writeFirst_plot_same (s : State) (fn : Fn) (k : Backlog) (d : DevPacket) :
    (s.writeFirst fn k d).plot fn = ((s.plot fn).dropFirst k).emit d := by
  unfold State.writeFirst
  dsimp only
  split <;> simp

theorem State.writeFirst_plot_ne (s : State) {fn g : Fn} (k : Backlog) (d : DevPacket) (h : g ≠ fn) : (s.writeFirst fn k d).plot g = s.plot g := by
  unfold State.writeFirst
  dsimp only
  split <;> simp [State.setPlot_plot_ne, h]

theorem exec_devicePacketWrite_empty {s : State} {fn : Fn} (h : oldest (s.waiting fn) = none) : exec (.devicePacketWrite fn) s = .next s := by
  change execDevicePacketWrite fn s = _
  simp only [execDevicePacketWrite, h]

section Waits

variable {s : State} {fn : Fn} {k : Backlog} {d : DevPacket} (h : oldest (s.waiting fn) = some (k, d))

include h

theorem exec_devicePacketWrite_noRoom (hroom : s.ringRoom fn d.units = false) : exec (.devicePacketWrite fn) s = .next s := by
  change execDevicePacketWrite fn s = _
  simp [execDevicePacketWrite, h, hroom]

theorem exec_devicePacketWrite_room (hroom : s.ringRoom fn d.units = true) : exec (.devicePacketWrite fn) s = .next (s.writeFirst fn k d).easeHolds := by
  change execDevicePacketWrite fn s = _
  simp only [execDevicePacketWrite, h, hroom]
  cases k <;> rfl

end Waits

/-! ### RECORD_DELIVERY (R365, R432) -/

theorem placeOf_eq_findIdx? {α : Type} (f : α → Bool) (l : List α) : placeOf f l = l.findIdx? f :=
  List.findIdx?_eq_fst_find?_zipIdx.symm

theorem placeOf_eq_none {α : Type} {f : α → Bool} {l : List α} (h : ∀ x ∈ l, f x = false) : placeOf f l = none := by
  rw [placeOf_eq_findIdx?, List.findIdx?_eq_none_iff]
  exact h

theorem placeOf_eq_some {α : Type} {f : α → Bool} {l : List α} {k : Nat} {x : α} (hk : l[k]? = some x) (hx : f x = true)
    (hfirst : ∀ (i : Nat) (y : α), i < k → l[i]? = some y → f y = false) : placeOf f l = some k := by
  obtain ⟨hlt, rfl⟩ := List.getElem?_eq_some_iff.1 hk
  rw [placeOf_eq_findIdx?, List.findIdx?_eq_some_iff_getElem]
  refine ⟨hlt, hx, fun i hi => ?_⟩
  simp [hfirst i _ hi (List.getElem?_eq_getElem (hi.trans hlt))]

/-- The state in which the record of one place stands delivered. -/
def State.deliverRecord (s : State) (k : Nat) (x : RecordPlace) : State :=
  (s.modHub (fun h => { h with records := h.records.eraseIdx k })).setPlot x.fn ((s.plot x.fn).emit (x.packet s.grade))

theorem exec_recordDelivery_none {s : State} (h : placeOf s.deliverable s.hub.records = none) : exec .recordDelivery s = .next s := by
  change execRecordDelivery s = _
  simp only [execRecordDelivery, h]

theorem exec_recordDelivery_some {s : State} {k : Nat} {x : RecordPlace} (h : placeOf s.deliverable s.hub.records = some k) (hk : s.hub.records[k]? = some x) :
    exec .recordDelivery s = .next (s.deliverRecord k x).easeHolds := by
  change execRecordDelivery s = _
  simp only [execRecordDelivery, h, hk]
  rfl

theorem State.ringRoom_of_deliverable {s : State} {x : RecordPlace} (h : s.deliverable x = true) : s.ringRoom x.fn (x.packet s.grade).units = true :=
  (Bool.and_eq_true_iff.1 h).1

end Sys2Proof.Machine

namespace Sys2Proof.Claims

open Sys2Proof.Machine

/-- Settles O57: each counter of a ring moves by the condition of its own command, and a packet that fits advances CQTAIL without a wrap. -/
theorem ringCountersTakeOnlyWhatFits : Obligations.RingCountersTakeOnlyWhatFits := by
  unfold Obligations.RingCountersTakeOnlyWhatFits
  refine ⟨fun s fn tail => ⟨fun h => ?taken, fun h => ?ignored⟩, fun s fn head => ⟨fun h => ?consumed, fun h => ?kept⟩,
    fun s fn => ⟨exec_devicePacketWrite_empty, fun k d hd => ⟨fun hfull => ?full, fun hfits => ?written⟩⟩,
    fun s => ⟨fun h => exec_recordDelivery_none (placeOf_eq_none h), fun k x hk hx hfirst => ?delivered⟩⟩
  case taken => exact exec_sqtailDoorbell_taken ((Ring.doorbell_eq _ _).trans (if_pos h))
  case ignored => exact exec_sqtailDoorbell_ignored ((Ring.doorbell_eq _ _).trans (if_neg h))
  case consumed => exact exec_cqheadWrite_taken ((Ring.consume_eq _ _).trans (if_pos h))
  case kept => exact exec_cqheadWrite_ignored ((Ring.consume_eq _ _).trans (if_neg (Nat.not_le.2 h)))
  case full => exact exec_devicePacketWrite_noRoom hd (Bool.eq_false_iff.2 (mt (s.ringRoom_iff fn d.units).1 hfull))
  case written =>
    have hexec := exec_devicePacketWrite_room hd ((s.ringRoom_iff fn d.units).2 hfits)
    obtain ⟨-, -, -, hroom⟩ := hfits
    have hcq : ((s.writeFirst fn k d).plot fn).cq = { (s.plot fn).cq with tail := (s.plot fn).cq.tail + BitVec.ofNat 32 d.units } := by simp
    refine ⟨_, hexec, by simp, hcq, hcq ▸ (heldUnits_advance hroom).trans_le hroom, fun g hg => s.writeFirst_plot_ne k d hg, ?_⟩
    refine ⟨?_, ?_, ?_, ?_⟩ <;> rintro rfl <;> simp [Plot.dropFirst, State.writeFirst]
  case delivered =>
    obtain ⟨-, -, -, hroom⟩ := (s.ringRoom_iff _ _).1 (State.ringRoom_of_deliverable hx)
    have hplot : (s.deliverRecord k x).plot x.fn = (s.plot x.fn).emit (x.packet s.grade) := State.setPlot_plot_same _ _ _
    have hcq := (congrArg Plot.cq hplot).trans (Plot.emit_cq _ _)
    refine ⟨hroom, _, exec_recordDelivery_some (placeOf_eq_some hk hx hfirst) hk, rfl, ?_, hcq, hcq ▸ (heldUnits_advance hroom).trans_le hroom, fun g hg => State.setPlot_plot_ne _ _ hg⟩
    rw [hplot, Plot.emit_packets]

end Sys2Proof.Claims
end

section
/-! Slot words (R108, R109, R149, R153, R165, R199, R239, R248): the fields of an encoding are its operation's, so decoding takes an encoding back to its operation. -/

namespace Sys2Proof.Machine

/-! ### The fields of an encoding -/

open BitVec (extractLsb'_append_eq_of_le extractLsb'_append_eq_of_add_le extractLsb'_eq_self getLsbD_append)

theorem fieldsScalar_encodeScalar (o : ScalarOp) : fieldsScalar (encodeScalar o) = some o := by
  cases o <;> simp (disch := decide) only [fieldsScalar, encodeScalar, extractLsb'_append_eq_of_le, extractLsb'_append_eq_of_add_le, Nat.reduceSub, extractLsb'_eq_self, BitVec.reduceToNat]

theorem fieldsVector_encodeVector (o : VectorOp) : fieldsVector (encodeVector o) = some o := by
  cases o <;> simp (disch := decide) only [fieldsVector, encodeVector, extractLsb'_append_eq_of_le, extractLsb'_append_eq_of_add_le, Nat.reduceSub, extractLsb'_eq_self, BitVec.reduceToNat]

theorem fieldsMatrix_encodeMatrix (o : MatrixOp) : fieldsMatrix (encodeMatrix o) = some o := by
  cases o <;> simp (disch := decide) only [fieldsMatrix, encodeMatrix, extractLsb'_append_eq_of_le, extractLsb'_append_eq_of_add_le, Nat.reduceSub, extractLsb'_eq_self, BitVec.reduceToNat]

theorem fieldsLoad_encodeLoad (o : LoadOp) : fieldsLoad (encodeLoad o) = some o := by
  cases o <;> simp (disch := decide) only [fieldsLoad, encodeLoad, extractLsb'_append_eq_of_le, extractLsb'_append_eq_of_add_le, Nat.reduceSub, extractLsb'_eq_self, BitVec.reduceToNat]

theorem fieldsStore_encodeStore (o : StoreOp) : fieldsStore (encodeStore o) = some o := by
  cases o <;> simp (disch := decide) only [fieldsStore, encodeStore, extractLsb'_append_eq_of_le, extractLsb'_append_eq_of_add_le, Nat.reduceSub, extractLsb'_eq_self, BitVec.reduceToNat]

/-- Bit 19 tells the register forms of WAIT and TADD from the immediate ones, and is read on its own. -/
theorem fieldsSync_encodeSync (o : SyncOp) : fieldsSync (encodeSync o) = some o := by
  cases o <;> simp (disch := decide) only [fieldsSync, encodeSync, extractLsb'_append_eq_of_le, extractLsb'_append_eq_of_add_le, Nat.reduceSub, extractLsb'_eq_self, BitVec.reduceToNat, getLsbD_append]
  case wait | waitReg | tadd | taddReg => rfl

/-! ### Decoding an encoding -/

theorem decodeScalar_encodeScalar {o : ScalarOp} (h : inRangeScalar o = true) : decodeScalar (encodeScalar o) = some o := by
  simp [decodeScalar, fieldsScalar_encodeScalar, h]

theorem decodeVector_encodeVector {o : VectorOp} (h : inRangeVector o = true) : decodeVector (encodeVector o) = some o := by
  simp [decodeVector, fieldsVector_encodeVector, h]

theorem decodeMatrix_encodeMatrix {o : MatrixOp} (h : inRangeMatrix o = true) : decodeMatrix (encodeMatrix o) = some o := by
  simp [decodeMatrix, fieldsMatrix_encodeMatrix, h]

theorem decodeLoad_encodeLoad {o : LoadOp} (h : inRangeLoad o = true) : decodeLoad (encodeLoad o) = some o := by
  simp [decodeLoad, fieldsLoad_encodeLoad, h]

theorem decodeStore_encodeStore {o : StoreOp} (h : inRangeStore o = true) : decodeStore (encodeStore o) = some o := by
  simp [decodeStore, fieldsStore_encodeStore, h]

theorem decodeSync_encodeSync {o : SyncOp} (h : inRangeSync o = true) : decodeSync (encodeSync o) = some o := by
  simp [decodeSync, fieldsSync_encodeSync, h]

/-- What a decoder keeps of the fields of a word has the word as its encoding. -/
theorem encode_of_filter {α β : Type} [BEq β] [LawfulBEq β] {fields : Option α} {encode : α → β} {inRange : α → Bool} {w : β} {o : α}
    (h : fields.filter (fun o => encode o == w && inRange o) = some o) : encode o = w := by
  obtain ⟨-, hkept⟩ := Option.filter_eq_some_iff.1 h
  exact eq_of_beq (Bool.and_eq_true_iff.1 hkept).1

end Sys2Proof.Machine

namespace Sys2Proof.Claims

open Sys2Proof.Machine

/-- Settles O5: each slot's fields lie side by side in its word, and a decoder keeps only what encodes to the word. -/
theorem slotOperationsDecodeAsEncoded : Obligations.SlotOperationsDecodeAsEncoded := by
  unfold Obligations.SlotOperationsDecodeAsEncoded
  exact ⟨⟨fun _ => decodeScalar_encodeScalar, fun _ _ => encode_of_filter⟩, ⟨fun _ => decodeVector_encodeVector, fun _ _ => encode_of_filter⟩,
    ⟨fun _ => decodeMatrix_encodeMatrix, fun _ _ => encode_of_filter⟩, ⟨fun _ => decodeLoad_encodeLoad, fun _ _ => encode_of_filter⟩,
    ⟨fun _ => decodeStore_encodeStore, fun _ _ => encode_of_filter⟩, ⟨fun _ => decodeSync_encodeSync, fun _ _ => encode_of_filter⟩⟩

/-- Settles O4: seven of the words are encodings, and the reserved bit of the eighth is in no encoding of its fields. -/
theorem slotWordsAsTheTablesWriteThem : Obligations.SlotWordsAsTheTablesWriteThem := by
  unfold Obligations.SlotWordsAsTheTablesWriteThem
  refine ⟨?sadd, ?reserved, ?vperm, ?manchor, ?ldv, ?stv, ?wait, ?waitReg⟩
  case reserved => decide
  case sadd => exact decodeScalar_encodeScalar (o := .sadd 3 1 2 1 1) rfl
  case vperm => exact decodeVector_encodeVector (o := .vperm 7 1 0 1 5) rfl
  case manchor => exact decodeMatrix_encodeMatrix (o := .manchor 3 1 5) rfl
  case ldv => exact decodeLoad_encodeLoad (o := .ldv 9 2 3 0x1FFFF) rfl
  case stv => exact decodeStore_encodeStore (o := .stv 4 1 2 1 3 1) rfl
  case wait => exact decodeSync_encodeSync (o := .wait 5 1 7) rfl
  case waitReg => exact decodeSync_encodeSync (o := .waitReg 5 1 6) rfl

/-- Settles O1: `step` is `exec` of the front command by definition. -/
theorem stepRunsFrontCommand : Obligations.StepRunsFrontCommand := by
  unfold Obligations.StepRunsFrontCommand
  exact fun c rest s => rfl

/-- Settles O2: an empty queue is the other branch of `step`. -/
theorem emptyQueueIdles : Obligations.EmptyQueueIdles := by
  unfold Obligations.EmptyQueueIdles
  intro s hempty
  unfold step
  rw [hempty]

end Sys2Proof.Claims
end

section
/-! What a slot command with an operation's own bits does where its bundle issues (R187, R189): the operation's effect in the issue fc and nothing else. -/

namespace Sys2Proof.Machine

open BitVec (extractLsb'_append_eq_of_le extractLsb'_eq_self)

/-! ### Opcodes (R108, R165, R199, R239, R248) -/

/-- The opcode of a scalar-slot operation. -/
def scalarOpcode : ScalarOp → BitVec 6
  | .snop => 0
  | .sadd .. => 1
  | .saddi .. => 2
  | .smul .. => 3
  | .slogic .. => 4
  | .sshift .. => 5
  | .sminmax .. => 6
  | .scmp .. => 7
  | .ssel .. => 8
  | .slui .. => 9
  | .smovi .. => 10
  | .sfeat .. => 11
  | .amov .. => 12
  | .aadd .. => 13
  | .aget .. => 14
  | .lbegin .. => 15
  | .linc .. => 16
  | .snext .. => 17
  | .sown .. => 18

/-- The opcode of a vector-slot operation. -/
def vectorOpcode : VectorOp → BitVec 8
  | .vnop => 0
  | .vadd .. => 1
  | .vmul .. => 2
  | .vmulh .. => 3
  | .vshift .. => 4
  | .vlogic .. => 5
  | .vminmax .. => 6
  | .vcount .. => 7
  | .vcmp .. => 8
  | .vsel .. => 9
  | .vperm .. => 10
  | .vunpk .. => 11
  | .vpack .. => 12
  | .vlut .. => 13
  | .vmovi .. => 14
  | .vsplat .. => 15
  | .vget .. => 16
  | .mset .. => 17
  | .mlogic .. => 18

/-- The opcode of a matrix-slot operation. -/
def matrixOpcode : MatrixOp → BitVec 4
  | .mnop .. => 0
  | .mload .. => 1
  | .mstream .. => 2
  | .mtile .. => 3
  | .manchor .. => 4
  | .mread .. => 5
  | .mprobe .. => 6

/-- The opcode of a load-slot operation. -/
def loadOpcode : LoadOp → BitVec 4
  | .lnop => 0
  | .ldv .. => 1
  | .lds .. => 2
  | .ldvs .. => 3
  | .ldvg .. => 4

/-- The opcode of a store-slot operation. -/
def storeOpcode : StoreOp → BitVec 4
  | .snopst => 0
  | .stv .. => 1
  | .sts .. => 2
  | .stvs .. => 3
  | .stvg .. => 4

/-- The opcode of a sync-slot operation; a register form shares its immediate form's. -/
def syncOpcode : SyncOp → BitVec 5
  | .synop => 0
  | .wait .. => 1
  | .waitReg .. => 1
  | .test .. => 2
  | .tadd .. => 3
  | .taddReg .. => 3
  | .sig .. => 4
  | .bar .. => 5
  | .post .. => 6
  | .select .. => 7
  | .release .. => 8
  | .cadd .. => 9
  | .cwait .. => 10
  | .cput .. => 11
  | .ctake .. => 12
  | .amsg .. => 13

theorem encodeScalar_opcode (o : ScalarOp) : (encodeScalar o).extractLsb' 34 6 = scalarOpcode o := by
  cases o <;> simp (disch := decide) only [encodeScalar, scalarOpcode, extractLsb'_append_eq_of_le, Nat.reduceSub, extractLsb'_eq_self] <;> rfl

theorem encodeVector_opcode (o : VectorOp) : (encodeVector o).extractLsb' 40 8 = vectorOpcode o := by
  cases o <;> simp (disch := decide) only [encodeVector, vectorOpcode, extractLsb'_append_eq_of_le, Nat.reduceSub, extractLsb'_eq_self] <;> rfl

theorem encodeMatrix_opcode (o : MatrixOp) : (encodeMatrix o).extractLsb' 44 4 = matrixOpcode o := by
  cases o <;> simp (disch := decide) only [encodeMatrix, matrixOpcode, extractLsb'_append_eq_of_le, Nat.reduceSub, extractLsb'_eq_self] <;> rfl

theorem encodeLoad_opcode (o : LoadOp) : (encodeLoad o).extractLsb' 32 4 = loadOpcode o := by
  cases o <;> simp (disch := decide) only [encodeLoad, loadOpcode, extractLsb'_append_eq_of_le, Nat.reduceSub, extractLsb'_eq_self] <;> rfl

theorem encodeStore_opcode (o : StoreOp) : (encodeStore o).extractLsb' 32 4 = storeOpcode o := by
  cases o <;> simp (disch := decide) only [encodeStore, storeOpcode, extractLsb'_append_eq_of_le, Nat.reduceSub, extractLsb'_eq_self] <;> rfl

theorem encodeSync_opcode (o : SyncOp) : (encodeSync o).extractLsb' 27 5 = syncOpcode o := by
  cases o <;> simp (disch := decide) only [encodeSync, syncOpcode, extractLsb'_append_eq_of_le, Nat.reduceSub, extractLsb'_eq_self] <;> rfl

/-- A slot word is its opcode and its operand bits. -/
theorem opcode_append_operands {m n : Nat} (x : BitVec (m + n)) : x.extractLsb' n m ++ x.setWidth n = x := by
  rw [BitVec.setWidth_eq_extractLsb' (Nat.le_add_left n m), BitVec.extractLsb'_append_extractLsb'_eq_extractLsb' (Nat.zero_add n).symm, BitVec.extractLsb'_eq_self]

theorem scalarOpcode_append (o : ScalarOp) : scalarOpcode o ++ (encodeScalar o).setWidth 34 = encodeScalar o := by
  rw [← encodeScalar_opcode]
  exact opcode_append_operands (m := 6) (n := 34) (encodeScalar o)

theorem vectorOpcode_append (o : VectorOp) : vectorOpcode o ++ (encodeVector o).setWidth 40 = encodeVector o := by
  rw [← encodeVector_opcode]
  exact opcode_append_operands (m := 8) (n := 40) (encodeVector o)

theorem matrixOpcode_append (o : MatrixOp) : matrixOpcode o ++ (encodeMatrix o).setWidth 44 = encodeMatrix o := by
  rw [← encodeMatrix_opcode]
  exact opcode_append_operands (m := 4) (n := 44) (encodeMatrix o)

theorem loadOpcode_append (o : LoadOp) : loadOpcode o ++ (encodeLoad o).setWidth 32 = encodeLoad o := by
  rw [← encodeLoad_opcode]
  exact opcode_append_operands (m := 4) (n := 32) (encodeLoad o)

theorem storeOpcode_append (o : StoreOp) : storeOpcode o ++ (encodeStore o).setWidth 32 = encodeStore o := by
  rw [← encodeStore_opcode]
  exact opcode_append_operands (m := 4) (n := 32) (encodeStore o)

theorem syncOpcode_append (o : SyncOp) : syncOpcode o ++ (encodeSync o).setWidth 27 = encodeSync o := by
  rw [← encodeSync_opcode]
  exact opcode_append_operands (m := 5) (n := 27) (encodeSync o)

/-! ### Where the bundle issues -/

/-- Effects that agree on the core answer the same state. -/
theorem answer_congr {s : State} {cid : CoreId} {c d : CoreState} (h : c = d) :
    (Host.Outcome.next (Claims.became s cid c) : Host.Outcome State Fault Refusal) = .next (Claims.became s cid d) := by rw [h]

section Issues

variable {s : State} {i : Issue} (hissue : Claims.Issues s i)

include hissue

/-- Where the bundle issues, a slot command has its operation's effect on the core with the bundle opened. -/
theorem slotCommand_issues (slot : Nat) (word : Word) (act : Env → Origin → CoreState → CoreState) :
    slotCommand s i slot word act = .next (Claims.became s i.core (act (s.env i.core) (Claims.originOf s i slot word) (Claims.opened s i))) := by
  obtain ⟨hcore, hrun, hlive⟩ := hissue
  rw [slotCommand_running _ _ _ hcore hrun, State.onCore, CoreState.inBundle_live _ _ _ hlive]
  rfl

theorem scalarCommand_issues {op : ScalarOp} (act : ScalarOp → Origin → CoreState → CoreState) (hrange : inRangeScalar op = true) :
    scalarCommand s i (scalarOpcode op) ((encodeScalar op).setWidth 34) act =
      .next (Claims.became s i.core (act op (Claims.originOf s i 1 (Claims.scalarBits op)) (Claims.opened s i))) := by
  unfold scalarCommand
  rw [slotCommand_issues hissue, scalarOpcode_append, decodeScalar_encodeScalar hrange]
  rfl

theorem vectorCommand_issues {op : VectorOp} (act : Env → VectorOp → Origin → CoreState → CoreState) (hrange : inRangeVector op = true) :
    vectorCommand s i (vectorOpcode op) ((encodeVector op).setWidth 40) act =
      .next (Claims.became s i.core (act (s.env i.core) op (Claims.originOf s i 2 (Claims.vectorBits op)) (Claims.opened s i))) := by
  unfold vectorCommand
  rw [slotCommand_issues hissue, vectorOpcode_append, decodeVector_encodeVector hrange]
  rfl

theorem matrixCommand_issues {op : MatrixOp} (act : Env → MatrixOp → Origin → CoreState → CoreState) (hrange : inRangeMatrix op = true) :
    matrixCommand s i (matrixOpcode op) ((encodeMatrix op).setWidth 44) act =
      .next (Claims.became s i.core (act (s.env i.core) op (Claims.originOf s i 3 (Claims.matrixBits op)) (Claims.opened s i))) := by
  unfold matrixCommand
  rw [slotCommand_issues hissue, matrixOpcode_append, decodeMatrix_encodeMatrix hrange]
  rfl

theorem loadCommand_issues {op : LoadOp} (act : Env → LoadOp → Origin → CoreState → CoreState) :
    loadCommand s i (loadOpcode op) ((encodeLoad op).setWidth 32) act =
      .next (Claims.became s i.core (act (s.env i.core) op (Claims.originOf s i 4 (Claims.loadBits op)) (Claims.opened s i))) := by
  unfold loadCommand
  rw [slotCommand_issues hissue, loadOpcode_append, decodeLoad_encodeLoad rfl]
  rfl

theorem storeCommand_issues {op : StoreOp} (act : Env → StoreOp → Origin → CoreState → CoreState) (hrange : inRangeStore op = true) :
    storeCommand s i (storeOpcode op) ((encodeStore op).setWidth 32) act =
      .next (Claims.became s i.core (act (s.env i.core) op (Claims.originOf s i 5 (Claims.storeBits op)) (Claims.opened s i))) := by
  unfold storeCommand
  rw [slotCommand_issues hissue, storeOpcode_append, decodeStore_encodeStore hrange]
  rfl

end Issues

end Sys2Proof.Machine

namespace Sys2Proof.Claims

open Sys2Proof.Machine

/-- Settles O10: the effect of each no-operation is the identity. -/
theorem noOperationsChangeNothing : Obligations.NoOperationsChangeNothing := by
  unfold Obligations.NoOperationsChangeNothing
  intro s i hissue
  refine ⟨?snop, ?vnop, ?mnop, ?lnop, ?snopst, ?synop⟩
  case snop =>
    change execSnop i _ s = _
    exact scalarCommand_issues hissue (op := .snop) _ rfl
  case vnop =>
    change execVnop i _ s = _
    exact vectorCommand_issues hissue (op := .vnop) _ rfl
  case mnop =>
    change execMnop i _ s = _
    exact matrixCommand_issues hissue (op := .mnop 0) _ rfl
  case lnop =>
    change execLnop i _ s = _
    exact loadCommand_issues hissue (op := .lnop) _
  case snopst =>
    change execSnopst i _ s = _
    exact storeCommand_issues hissue (op := .snopst) _ rfl
  case synop =>
    change execSynop i _ s = _
    exact syncCommand_issues _ hissue (encodeSync_opcode .synop) (decodeSync_encodeSync rfl)

end Sys2Proof.Claims
end

section
/-! The scalar slot (R196 to R203, R211, R213): the values of R200 as the model computes them, and what each operation schedules, opens or requests. -/

namespace Sys2Proof.Machine

open Claims (keptBy keptLane scalarSpec ScalarSpec schedule Usable Unclaimed opened originOf became scalarBits scalarRow Issues)

/-! ### Values (R200) -/

theorem ovResult_eq_keptBy (ov : BitVec 2) (sv uv : Int) : ovResult ov sv uv = keptBy ov sv uv := by
  have hs : satSInt 64 sv = max (-2 ^ 63) (min (2 ^ 63 - 1) sv) := by unfold satSInt; omega
  have hu : satUInt 64 uv = max 0 (min (2 ^ 64 - 1) uv) := by unfold satUInt; omega
  have hsc : (satSInt 64 sv != sv) = decide (sv < -2 ^ 63 ∨ 2 ^ 63 ≤ sv) := by rw [hs, Bool.eq_iff_iff]; simp only [bne_iff_ne, decide_eq_true_eq]; omega
  have huc : (satUInt 64 uv != uv) = decide (uv < 0 ∨ 2 ^ 64 ≤ uv) := by rw [hu, Bool.eq_iff_iff]; simp only [bne_iff_ne, decide_eq_true_eq]; omega
  unfold ovResult keptBy
  rw [hsc, huc, hs, hu]

theorem minmaxResult_eq {n : Nat} (max uns : BitVec 1) (x y : BitVec n) :
    minmaxResult (max == 1) (uns == 1) x y =
      (let less : Bool := if uns = 1 then decide (x.toNat < y.toNat) else decide (x.toInt < y.toInt)
       if max = 1 then (if less then y else x) else (if less then x else y)) := by
  have hless : (if (uns == 1) = true then x.ult y else x.slt y) = (if uns = 1 then decide (x.toNat < y.toNat) else decide (x.toInt < y.toInt)) := by
    simp only [beq_iff_eq, BitVec.ult, BitVec.slt]
  unfold minmaxResult
  simp only [hless]
  generalize (if uns = 1 then decide (x.toNat < y.toNat) else decide (x.toInt < y.toInt)) = less
  by_cases hmax : max = 1 <;> cases less <;> simp [hmax]

theorem condHolds_eq {n : Nat} (cond : BitVec 3) (x y : BitVec n) :
    condHolds cond x y =
      (match cond.toNat with
      | 0 => decide (x = y)
      | 1 => decide (x ≠ y)
      | 2 => decide (x.toInt < y.toInt)
      | 3 => decide (x.toInt ≤ y.toInt)
      | 4 => decide (x.toNat < y.toNat)
      | 5 => decide (x.toNat ≤ y.toNat)
      | 6 => decide (y.toInt < x.toInt)
      | _ => decide (y.toInt ≤ x.toInt)) := by
  unfold condHolds
  generalize cond.toNat = k
  match k with
  | 0 => exact beq_eq_decide x y
  | 1 => exact (congrArg not (beq_eq_decide x y)).trans (decide_not).symm
  | 2 | 3 | 4 | 5 | 6 | _ + 7 => rfl

/-- SLUI puts its immediate below the low 40 bits of SD. -/
theorem shiftLeft_or_setWidth (x : Word) (imm : BitVec 24) : x <<< 24 ||| imm.setWidth 64 = x.extractLsb' 0 40 ++ imm := by
  refine BitVec.eq_of_getLsbD_eq fun k hk => ?_
  rw [BitVec.getLsbD_or, BitVec.getLsbD_shiftLeft, BitVec.getLsbD_setWidth, BitVec.getLsbD_append, BitVec.getLsbD_extractLsb']
  by_cases h : k < 24
  · simp [h, hk]
  · simp [h, hk, show k - 24 < 40 by omega, BitVec.getLsbD_of_ge imm k (Nat.le_of_not_lt h)]

/-! ### Scalar and address results (R193, R196) -/

/-- A scalar result that meets no other write is scheduled for the fc in which it lands, and a clamp is counted. -/
theorem CoreState.scalarResult_schedules {c : CoreState} {o : Origin} {reads : List (BitVec 5)} {d : BitVec 5} {lat : Nat} (v : Word) (clamp : Bool)
    (huse : Usable c o.fill (reads.map (fun r => (.s, r.toNat)) ++ [(.s, d.toNat)])) (hfree : Unclaimed c (.s, d.toNat) (c.step.offset + lat)) :
    c.scalarResult o reads d lat v clamp = (schedule c o (c.step.offset + lat) (.s d v)).countScalarClamp clamp := by
  unfold CoreState.scalarResult
  rw [CoreState.withRegs_usable _ huse, CoreState.withClaims_unclaimed _ _ hfree, claimed_offset]
  rfl

theorem CoreState.addressResult_schedules {c : CoreState} {o : Origin} {reads : List (RegClass × Nat)} {d : BitVec 4} (v : BitVec 32)
    (huse : Usable c o.fill (reads ++ [(.a, d.toNat)])) (hfree : Unclaimed c (.a, d.toNat) (c.step.offset + 1)) :
    c.addressResult o reads d v = schedule c o (c.step.offset + 1) (.a d v) := by
  unfold CoreState.addressResult
  rw [CoreState.withRegs_usable _ huse, CoreState.withClaims_unclaimed _ _ hfree, claimed_offset]
  rfl

/-- Claiming a register write changes no address register. -/
@[simp] theorem claimed_readA (c : CoreState) (o : Origin) (u : RegClass × Nat) (fc : Nat) (r : BitVec 4) : (Claims.claimed c o u fc).readA r = c.readA r := by
  unfold CoreState.readA
  rw [claimed_work]

/-- AGET's form: one register is read in the issue fc and its value is a scalar result. -/
theorem CoreState.readResult_schedules {c : CoreState} {o : Origin} {reads : List (RegClass × Nat)} {d : BitVec 5} {lat : Nat} {v : CoreState → Word}
    (hv : ∀ fc, v (Claims.claimed c o (.s, d.toNat) fc) = v c) (huse : Usable c o.fill (reads ++ [(.s, d.toNat)])) (hfree : Unclaimed c (.s, d.toNat) (c.step.offset + lat)) :
    c.withRegs o reads [(.s, d.toNat)] (fun c => c.withClaims o [(.s, d.toNat)] (c.step.offset + lat) (fun c => c.result (c.step.offset + lat) (.s d (v c)) o)) =
      schedule c o (c.step.offset + lat) (.s d (v c)) := by
  rw [CoreState.withRegs_usable _ huse, CoreState.withClaims_unclaimed _ _ hfree, claimed_offset, hv]
  rfl

/-- Each operation of R200 and SFEAT has the one effect of a scalar result with the value that its rule gives. -/
theorem exec_scalarRow_result {s : State} {i : Issue} {op : ScalarOp} {r : ScalarSpec} (hrange : inRangeScalar op = true) (hissue : Issues s i)
    (hspec : scalarSpec (opened s i) op = some r) :
    exec (scalarRow i op) s =
      .next (became s i.core ((opened s i).scalarResult (originOf s i 1 (scalarBits op)) r.reads r.dest r.lat r.value r.clamped)) := by
  cases op with
  | snop | amov | aadd | aget | lbegin | linc | snext | sown => cases hspec
  | sadd d a b ov sub =>
    cases hspec
    change execSadd i _ s = _
    refine (scalarCommand_issues hissue _ hrange).trans ?_
    simp only [saddResult, ovResult_eq_keptBy, beq_iff_eq]
  | saddi d a imm =>
    cases hspec
    change execSaddi i _ s = _
    exact (scalarCommand_issues hissue _ hrange).trans rfl
  | smul d a b ov =>
    cases hspec
    change execSmul i _ s = _
    refine (scalarCommand_issues hissue _ hrange).trans ?_
    simp only [ovResult_eq_keptBy]
  | slogic d a b fn =>
    cases hspec
    change execSlogic i _ s = _
    exact (scalarCommand_issues hissue _ hrange).trans rfl
  | sshift d a b kind reg amt mode =>
    cases hspec
    change execSshift i _ s = _
    exact (scalarCommand_issues hissue _ hrange).trans rfl
  | sminmax d a b max uns =>
    cases hspec
    change execSminmax i _ s = _
    refine (scalarCommand_issues hissue _ hrange).trans ?_
    simp only [minmaxResult_eq]
  | scmp d a b cond =>
    cases hspec
    change execScmp i _ s = _
    refine (scalarCommand_issues hissue _ hrange).trans ?_
    simp only [condHolds_eq] <;> rfl
  | ssel d a b x =>
    cases hspec
    change execSsel i _ s = _
    refine (scalarCommand_issues hissue _ hrange).trans ?_
    simp only [bne_iff_ne, ite_not]
  | slui d imm =>
    cases hspec
    change execSlui i _ s = _
    refine (scalarCommand_issues hissue _ hrange).trans ?_
    simp only [shiftLeft_or_setWidth]
  | smovi d imm =>
    cases hspec
    change execSmovi i _ s = _
    exact (scalarCommand_issues hissue _ hrange).trans rfl
  | sfeat d index =>
    cases hspec
    change execSfeat i _ s = _
    exact (scalarCommand_issues hissue _ hrange).trans rfl

end Sys2Proof.Machine

namespace Sys2Proof.Claims

open Sys2Proof.Machine

/-- Settles O8: every operation is a scalar result, and one that meets no other write is scheduled. -/
theorem scalarOperationsScheduleTheirResults : Obligations.ScalarOperationsScheduleTheirResults := by
  unfold Obligations.ScalarOperationsScheduleTheirResults
  intro s i op r c o hrange hissue hspec huse hfree
  rw [exec_scalarRow_result hrange hissue hspec, CoreState.scalarResult_schedules _ _ huse hfree]

/-- Settles O9: the two address results and AGET's are scheduled for the next fc. -/
theorem addressOperationsScheduleTheirResults : Obligations.AddressOperationsScheduleTheirResults := by
  unfold Obligations.AddressOperationsScheduleTheirResults
  intro s i c f hissue
  refine ⟨fun ad sa imm huse hfree => ?amov, fun ad aa imm huse hfree => ?aadd, fun sd aa huse hfree => ?aget⟩
  case amov =>
    change execAmov i _ s = _
    refine (scalarCommand_issues hissue (op := .amov ad sa imm) _ rfl).trans ?_
    rw [← BitVec.setWidth_eq_extractLsb' (by decide), ← CoreState.addressResult_schedules (o := originOf s i 1 _) (reads := [(.s, sa.toNat)]) _ huse hfree]
  case aadd =>
    change execAadd i _ s = _
    refine (scalarCommand_issues hissue (op := .aadd ad aa imm) _ rfl).trans ?_
    rw [← CoreState.addressResult_schedules (o := originOf s i 1 _) (reads := [(.a, aa.toNat)]) _ huse hfree]
  case aget =>
    change execAget i _ s = _
    refine (scalarCommand_issues hissue (op := .aget sd aa) _ rfl).trans ?_
    refine answer_congr ?_
    exact CoreState.readResult_schedules (o := originOf s i 1 _) (v := fun c => (c.readA aa).setWidth 64) (reads := [(.a, aa.toNat)]) (fun fc => by rw [claimed_readA]) huse hfree

end Sys2Proof.Claims
end

section
/-! Loop frames, next entries, loop ends and stop bundles (R201 to R203, R205, R209, R211). -/

namespace Sys2Proof.Machine

open Claims (Usable opened originOf became scalarBits scalarRow Issues)

/-! ### Frames and entries (R201, R205, R211) -/

theorem usable_nil (c : CoreState) (fill : Bool) : Usable c fill [] := fun _ h => absurd h List.not_mem_nil

/-- Registers that an operation names in one of its forms alone are its own where that form is. -/
theorem usable_ite {c : CoreState} {fill : Bool} {p : Prop} [Decidable p] {regs : List (RegClass × Nat)} (h : p → Usable c fill regs) :
    Usable c fill (if p then regs else []) := by
  split
  · next hp => exact h hp
  · exact usable_nil c fill

/-- Where every check of LBEGIN passes, it opens its frame. -/
theorem exec_lbegin {s : State} {i : Issue} {frame : BitVec 3} {creg : BitVec 1} {sa : BitVec 5} {count : BitVec 19} {n : BitVec 32} (hissue : Issues s i)
    (hrange : inRangeScalar (.lbegin frame creg sa count) = true) (huse : creg = 1 → Usable (opened s i) i.fill [(.s, sa.toNat)])
    (hcount : n = if creg = 1 then ((opened s i).readS sa).extractLsb' 0 32 else count.setWidth 32)
    (hlimit : frame.toNat < frameLimit i.fill) (hdepth : frame.toNat = ((opened s i).stream i.fill).depth) (hn : n ≠ 0) (hclass : headerClass ((opened s i).stream i.fill).header = 0) :
    exec (scalarRow i (.lbegin frame creg sa count)) s =
      .next (became s i.core
        (let c := (opened s i).setFrame i.fill frame.toNat { (opened s i).frame i.fill frame.toNat with count := n, start := BitVec.ofNat 13 (((opened s i).stream i.fill).cur + 1) }
         c.setStreamState i.fill { c.stream i.fill with depth := ((opened s i).stream i.fill).depth + 1 })) := by
  change execLbegin i _ s = _
  refine (scalarCommand_issues hissue (op := .lbegin frame creg sa count) _ hrange).trans (answer_congr ?_)
  rw [← BitVec.setWidth_eq_extractLsb' (by decide)] at hcount
  have hfill : (originOf s i 1 (scalarBits (.lbegin frame creg sa count))).fill = i.fill := rfl
  simp only
  rw [CoreState.withRegs_usable (o := originOf s i 1 _) (writes := []) _ (by rw [List.append_nil]; exact usable_ite huse)]
  simp only [hfill, ← hcount]
  rw [if_neg]
  simpa [← hdepth, hlimit, hclass] using hn

/-! ### Loop ends and stop bundles (R192, R202) -/

/-- A frame whose count does not reach 0 is kept, and the stream goes on at its start address. -/
theorem loopEnd_kept {fill : Bool} {pc n : Nat} {c : CoreState} {incs : List (Nat × Int)} (h : (c.frame fill ((c.stream fill).depth - 1)).count ≠ 1) :
    loopEnd fill pc (n + 1) c incs =
      (let st := c.stream fill
       let f := c.frame fill (st.depth - 1)
       (c.setFrame fill (st.depth - 1) { f with count := f.count - 1 }, f.start.toNat, f.increments.foldl addIncrements incs)) := by
  unfold loopEnd
  exact if_pos (bne_iff_ne.2 (mt sub_eq_zero.1 h))

/-- A frame whose count reaches 0 is closed, and the loop end goes on with the frame around it. -/
theorem loopEnd_closed {fill : Bool} {pc n : Nat} {c : CoreState} {incs : List (Nat × Int)} (h : (c.frame fill ((c.stream fill).depth - 1)).count = 1) :
    loopEnd fill pc (n + 1) c incs =
      (let st := c.stream fill
       let f := c.frame fill (st.depth - 1)
       let k := c.setFrame fill (st.depth - 1) { f with count := f.count - 1 }
       loopEnd fill pc n (k.setStreamState fill { st with depth := st.depth - 1 }) (f.increments.foldl addIncrements incs)) := by
  rw [loopEnd]
  exact if_neg (by simp [h])

@[simp] theorem CoreState.setFrame_offset (c : CoreState) (fill : Bool) (k : Nat) (v : Frame) : (c.setFrame fill k v).step.offset = c.step.offset := by
  cases fill <;> rfl

/-- A loop end passes no time. -/
@[simp] theorem loopEnd_offset (fill : Bool) (pc n : Nat) (c : CoreState) (incs : List (Nat × Int)) : (loopEnd fill pc n c incs).1.step.offset = c.step.offset := by
  induction n generalizing c incs with
  | zero => rfl
  | succ n ih =>
    by_cases h : (c.frame fill ((c.stream fill).depth - 1)).count = 1
    · rw [loopEnd_closed h]
      simp only [ih, CoreState.setStreamState_offset, CoreState.setFrame_offset]
    · rw [loopEnd_kept h]
      exact c.setFrame_offset fill _ _

/-- A loop end of 1 to as many frames as are open closes them. -/
theorem CoreState.closeLoops_open {c : CoreState} {o : Origin} (hpos : 1 ≤ headerClass (c.stream o.fill).header) (hdepth : headerClass (c.stream o.fill).header ≤ (c.stream o.fill).depth) :
    c.closeLoops o =
      (let r := loopEnd o.fill (c.stream o.fill).cur (headerClass (c.stream o.fill).header) c []
       let k := r.1.setStreamState o.fill { r.1.stream o.fill with next := r.2.1 }
       if r.2.2 = [] then k else k.push c.step.offset (.loopInc r.2.2)) := by
  unfold CoreState.closeLoops
  simp only [if_neg (Nat.one_le_iff_ne_zero.1 hpos), if_neg (Nat.not_lt.2 hdepth), List.isEmpty_iff, CoreState.setStreamState_offset, loopEnd_offset]

/-- A loop end whose bundle issues closes its loops. -/
theorem exec_loopEnd_issues {s : State} {i : Issue} (hissue : Issues s i) :
    exec (.loopEnd i) s = .next (became s i.core ((opened s i).closeLoops (originOf s i 0 (((opened s i).stream i.fill).header.setWidth 64)))) := by
  obtain ⟨hcore, hrun, hlive⟩ := hissue
  change execLoopEnd i s = _
  exact (coreCommand_running _ hcore hrun).trans (answer_congr (if_pos hlive))

/-- A core that has sent what it had differs in its outboxes alone. -/
theorem became_stream (s : State) (cid : CoreId) (c : CoreState) (fill : Bool) : ((became s cid c).core cid).stream fill = c.stream fill := by
  have hcore : (became s cid c).core cid = { c with traffic.outbox := [], traffic.unitsOut := [] } := s.onCore_core cid (fun _ _ => c)
  rw [hcore]
  rfl

/-- A stop bundle whose bundle issues ends its stream when its checks pass. -/
theorem exec_stopBundle_issues {s : State} {i : Issue} (hissue : Issues s i) (hstop : headerStop ((opened s i).stream i.fill).header = true)
    (hcode : (((became s i.core (opened s i)).core i.core).stopCode i.fill ((became s i.core (opened s i)).entryPending i.core) ((became s i.core (opened s i)).roundOpen i.core)) = none) :
    exec (.stopBundle i) s =
      .next (became (became s i.core (opened s i)) i.core
        (((became s i.core (opened s i)).core i.core).setStreamState i.fill { ((became s i.core (opened s i)).core i.core).stream i.fill with stopped := true })) := by
  obtain ⟨hcore, hrun, hlive⟩ := hissue
  change execStopBundle i s = _
  unfold execStopBundle
  rw [hcore, hrun]
  refine answer_congr ((if_pos ((became_bundleLive s i.core _ _).trans hlive)).trans ?_)
  change CoreState.stopStream ((became s i.core (opened s i)).core i.core) i.fill ((became s i.core (opened s i)).entryPending i.core) ((became s i.core (opened s i)).roundOpen i.core) = _
  unfold CoreState.stopStream
  rw [hcode, became_stream]
  exact if_neg (by simp [hstop])

/-- The increment slot that LINC names, as its rule lists them. -/
theorem match_slot_eq {α : Type} (slot : BitVec 2) (a b c d : α) :
    (match slot.toNat with | 0 => a | 1 => b | 2 => c | _ => d) = if slot = 0 then a else if slot = 1 then b else if slot = 2 then c else d := by
  match slot with
  | 0 | 1 | 2 | 3 => rfl

end Sys2Proof.Machine

namespace Sys2Proof.Claims

open Sys2Proof.Machine

/-- Settles O11: each operation passes its checks and sets its frame, increment or request. -/
theorem loopFramesAndEntries : Obligations.LoopFramesAndEntries := by
  unfold Obligations.LoopFramesAndEntries
  intro s i c st hissue
  refine ⟨?lbegin, ?linc, ?snext, ?sown⟩
  case lbegin =>
    intro frame creg sa count n hrange huse hlimit hdepth hn hclass
    exact exec_lbegin hissue hrange huse rfl hlimit hdepth hn hclass
  case linc =>
    intro frame slot ar en inc f v hrange huse hlimit
    change execLinc i _ s = _
    refine (scalarCommand_issues hissue (op := .linc frame slot ar en inc) _ hrange).trans (answer_congr ?_)
    refine (if_neg (c := frameLimit i.fill ≤ frame.toNat) (Nat.not_le.2 hlimit)).trans ?_
    refine (CoreState.withRegs_usable (o := originOf s i 1 _) (reads := []) _ ?usable).trans ?_
    case usable =>
      split
      · exact usable_nil _ _
      · next har => exact huse har
    rw [← match_slot_eq]
    rfl
  case snext =>
    intro hmain f nreg sa entry e hrange huse
    change execSnext i _ s = _
    refine (scalarCommand_issues hissue (op := .snext f nreg sa entry) _ hrange).trans (answer_congr ?_)
    have hfill : (originOf s i 1 (scalarBits (.snext f nreg sa entry))).fill = false := hmain
    refine (if_neg (by simp [hfill])).trans ?_
    refine (CoreState.withRegs_usable (o := originOf s i 1 _) (writes := []) _ ?usable).trans ?_
    case usable =>
      rw [hfill, List.append_nil]
      exact usable_ite huse
    rw [BitVec.setWidth_eq_extractLsb' (by decide)]
  case sown =>
    intro hmain handle owner howner
    change execSown i _ s = _
    refine (scalarCommand_issues hissue (op := .sown handle owner) _ (bne_iff_ne.2 howner)).trans (answer_congr ?_)
    have hfill : (originOf s i 1 (scalarBits (.sown handle owner))).fill = false := hmain
    exact if_neg (by simp [hfill])

/-- Settles O12: the loop end and the stop bundle do what their checks let them, and `loopEnd` goes through the frames one by one. -/
theorem loopEndsAndStops : Obligations.LoopEndsAndStops := by
  unfold Obligations.LoopEndsAndStops
  refine ⟨?acts, ?frames⟩
  case acts =>
    intro s i c st n hissue
    constructor
    · intro hpos _ hdepth
      exact (exec_loopEnd_issues hissue).trans (answer_congr (CoreState.closeLoops_open (o := originOf s i 0 _) hpos hdepth))
    · intro hstop u hcode _
      exact exec_stopBundle_issues hissue hstop hcode
  case frames =>
    intro fill pc n c incs st f k all
    exact ⟨by rw [loopEnd], loopEnd_kept, loopEnd_closed⟩

end Sys2Proof.Claims
end

section
/-! Vector registers and masks (R162, R164 to R173, R178): reading back what is given lane by lane, what a lane-by-lane result schedules, and the lanes of each operation as its rule states them. -/

namespace Sys2Proof.Machine

open Claims (keptLane laneSpec LaneSpec roundingMode schedule Usable Unclaimed opened originOf became vectorBits vectorRow Issues)

/-! ### Numbers written digit by digit -/

/-- The number whose digits to base `B`, lowest first, are `d k`, `d (k + 1)` and on. -/
def digitSum (B : Nat) (d : Nat → Nat) (k n : Nat) : Nat := (List.range' k n).foldr (fun i acc => d i + acc * B) 0

theorem digitSum_succ (B : Nat) (d : Nat → Nat) (k n : Nat) : digitSum B d k (n + 1) = d k + digitSum B d (k + 1) n * B := by
  simp [digitSum, List.range'_succ]

theorem foldr_range_eq_digitSum (B : Nat) (d : Nat → Nat) (n : Nat) : (List.range n).foldr (fun i acc => d i + acc * B) 0 = digitSum B d 0 n := by
  rw [List.range_eq_range', digitSum]

section Digits

variable {B : Nat} {d : Nat → Nat} (hd : ∀ i, d i < B)

include hd

theorem digitSum_lt (k n : Nat) : digitSum B d k n < B ^ n := by
  induction n generalizing k with
  | zero => simp [digitSum]
  | succ n ih =>
    rw [digitSum_succ, pow_succ]
    calc d k + digitSum B d (k + 1) n * B
      _ < B + digitSum B d (k + 1) n * B := Nat.add_lt_add_right (hd k) _
      _ = (digitSum B d (k + 1) n + 1) * B := by ring
      _ ≤ B ^ n * B := Nat.mul_le_mul_right B (ih (k + 1))

theorem digitSum_div_mod {j n : Nat} (k : Nat) (hj : j < n) : digitSum B d k n / B ^ j % B = d (k + j) := by
  induction n generalizing k j with
  | zero => omega
  | succ n ih =>
    have hB : 0 < B := Nat.zero_lt_of_lt (hd 0)
    rw [digitSum_succ]
    cases j with
    | zero => rw [pow_zero, Nat.div_one, Nat.add_mul_mod_self_right, Nat.mod_eq_of_lt (hd k), Nat.add_zero]
    | succ j =>
      rw [pow_succ', ← Nat.div_div_eq_div_mul, Nat.add_mul_div_right _ _ hB, Nat.div_eq_of_lt (hd k), Nat.zero_add, ih (k + 1) (by omega), Nat.add_right_comm, Nat.add_assoc]

end Digits

/-! ### Registers given lane by lane (R162) -/

/-- A word whose digits are words reads back each of them. -/
theorem extractLsb'_digitSum {w n l : Nat} (f : Nat → BitVec w) (hl : l < n) :
    (BitVec.ofNat (w * n) (digitSum (2 ^ w) (fun i => (f i).toNat) 0 n)).extractLsb' (w * l) w = f l := by
  have hd : ∀ i, (f i).toNat < 2 ^ w := fun i => (f i).isLt
  refine BitVec.eq_of_toNat_eq ?_
  rw [BitVec.extractLsb'_toNat, BitVec.toNat_ofNat, Nat.shiftRight_eq_div_pow, Nat.mod_eq_of_lt ((digitSum_lt hd 0 n).trans_eq (Nat.pow_mul ..).symm), Nat.pow_mul,
    digitSum_div_mod hd 0 hl, Nat.zero_add]

theorem VReg.ofLanes_lane (f : Nat → BitVec 32) (b : Nat → Bool) {l : Nat} (hl : l < 32) : (VReg.ofLanes f b).lane l = f l := by
  unfold VReg.lane VReg.ofLanes lanesOf
  rw [foldr_range_eq_digitSum (2 ^ 32) (fun i => (f i).toNat)]
  exact extractLsb'_digitSum (w := 32) (n := 32) f hl

theorem marksOf_getLsbD (f : Nat → Bool) {l : Nat} (hl : l < 32) : (marksOf f).getLsbD l = f l := by
  have hd : ∀ i, b2n (f i) < 2 := fun i => by unfold b2n; split <;> decide
  simp only [marksOf, BitVec.getLsbD_ofNat, hl, decide_true, Bool.true_and, Nat.testBit_eq_decide_div_mod_eq]
  rw [foldr_range_eq_digitSum 2 (fun i => b2n (f i)), digitSum_div_mod hd 0 hl, Nat.zero_add]
  cases f l <;> rfl

theorem VReg.ofLanes_bruise (f : Nat → BitVec 32) (b : Nat → Bool) {l : Nat} (hl : l < 32) : (VReg.ofLanes f b).bruise.getLsbD l = b l :=
  marksOf_getLsbD b hl

theorem listGet_map_range {α : Type} (d : α) (f : Nat → α) {n l : Nat} (hl : l < n) : listGet d ((List.range n).map f) l = f l := by
  simp [listGet, List.getD_eq_getElem?_getD, List.getElem?_map, List.getElem?_range hl]

/-! ### Reads and draws beside a claim -/

section Claimed

variable (c : CoreState) (o : Origin) (u : RegClass × Nat) (fc : Nat)

@[simp] theorem claimed_readS (r : BitVec 5) : (Claims.claimed c o u fc).readS r = c.readS r := by
  unfold CoreState.readS
  rw [claimed_work]

@[simp] theorem claimed_readV (r : BitVec 5) : (Claims.claimed c o u fc).readV r = c.readV r := by
  unfold CoreState.readV
  rw [claimed_work]

@[simp] theorem claimed_readM (r : BitVec 3) : (Claims.claimed c o u fc).readM r = c.readM r := by
  unfold CoreState.readM
  rw [claimed_work]

theorem claimed_bruiseOr (a b : BitVec 5) : bruiseOr a b (Claims.claimed c o u fc) = bruiseOr a b c := by
  funext l
  simp only [bruiseOr, claimed_readV]

theorem claimed_bruiseOf (a : BitVec 5) : bruiseOf a (Claims.claimed c o u fc) = bruiseOf a c := by
  funext l
  simp only [bruiseOf, claimed_readV]

/-- An operation draws the same whether it has claimed its register or not. -/
theorem claimed_drawLanes (env : Env) (mode : BitVec 2) (stream : Nat) :
    (Claims.claimed c o u fc).drawLanes env mode stream = ((c.drawLanes env mode stream).1, Claims.claimed (c.drawLanes env mode stream).2 o u fc) := by
  unfold CoreState.drawLanes Claims.claimed
  by_cases hmode : (mode != 3) = true
  · rw [if_pos hmode, if_pos hmode]
  · rw [if_neg hmode, if_neg hmode]
    split <;> rfl

@[simp] theorem drawLanes_offset (env : Env) (mode : BitVec 2) (stream : Nat) : (c.drawLanes env mode stream).2.step.offset = c.step.offset := by
  unfold CoreState.drawLanes
  split <;> rfl

end Claimed

/-! ### Lane-by-lane and mask results (R164, R166, R171, R178) -/

/-- A lane-by-lane operation computes what `r` says: from what the core holds in the issue fc, for every lane. -/
structure LanesMatch (c : CoreState) (o : Origin) (dr : List Nat) (r : LaneSpec) (f : CoreState → Nat → Nat → BitVec 32 × Bool) (b : CoreState → Nat → Bool) : Prop where
  stable : ∀ u fc, f (Claims.claimed c o u fc) = f c
  bruiseStable : ∀ u fc, b (Claims.claimed c o u fc) = b c
  lane : ∀ l < 32, f c l (listGet 0 dr l) = (r.lane l, r.clamped l)
  bruise : ∀ l < 32, b c l = r.bruise l

/-- A lane-by-lane result that meets no other write draws for its lanes, is scheduled, and counts its clamps. -/
theorem CoreState.laneResult_schedules {c : CoreState} {env : Env} {o : Origin} {r : LaneSpec} {mode : BitVec 2} {f : CoreState → Nat → Nat → BitVec 32 × Bool} {b : CoreState → Nat → Bool}
    (hmatch : LanesMatch c o (c.drawLanes env mode (vectorStream o.fill)).1 r f b) (huse : Usable c o.fill (r.reads ++ [vUse r.dest])) (hfree : Unclaimed c (vUse r.dest) (c.step.offset + r.lat)) :
    ∃ v : VReg,
      c.laneResult env o r.reads r.dest r.lat mode f b =
        (schedule (c.drawLanes env mode (vectorStream o.fill)).2 o (c.step.offset + r.lat) (.v r.dest v)).countClamps ((List.range 32).filter r.clamped).length ∧
      ∀ l < 32, v.lane l = r.lane l ∧ v.bruise.getLsbD l = r.bruise l := by
  obtain ⟨hf, hb, hlane, hbruise⟩ := hmatch
  generalize hdr : c.drawLanes env mode (vectorStream o.fill) = dr at hlane
  have hmap : (List.range 32).map (fun l => f c l (listGet 0 dr.1 l)) = (List.range 32).map (fun l => (r.lane l, r.clamped l)) :=
    List.map_congr_left fun l hl => hlane l (List.mem_range.1 hl)
  refine ⟨VReg.ofLanes (fun l => (listGet (0, false) ((List.range 32).map (fun l => f c l (listGet 0 dr.1 l))) l).1) (b c), ?_, fun l hl => ⟨?_, ?_⟩⟩
  · unfold CoreState.laneResult
    rw [CoreState.withRegs_usable _ huse, CoreState.withClaims_unclaimed _ _ hfree]
    simp only [claimed_drawLanes, hdr, hf, hb, claimed_offset]
    rw [hmap, List.filter_map, List.length_map]
    rfl
  · rw [VReg.ofLanes_lane _ _ hl, hmap, listGet_map_range _ _ hl]
  · rw [VReg.ofLanes_bruise _ _ hl, hbruise l hl]

theorem CoreState.maskResult_schedules {c : CoreState} {o : Origin} {reads : List (RegClass × Nat)} {md : BitVec 3} {f : CoreState → MReg} (hf : ∀ u fc, f (Claims.claimed c o u fc) = f c)
    (huse : Usable c o.fill (reads ++ [mUse md])) (hfree : Unclaimed c (mUse md) (c.step.offset + 1)) :
    c.maskResult o reads md f = schedule c o (c.step.offset + 1) (.m md (f c)) := by
  unfold CoreState.maskResult
  rw [CoreState.withRegs_usable _ huse, CoreState.withClaims_unclaimed _ _ hfree, hf, claimed_offset]
  rfl

/-! ### The lanes of each operation (R169 to R173) -/

theorem clampLane_eq_keptLane (v : Int) : clampLane v = keptLane v := by
  have hs : satSInt 32 v = max (-2 ^ 31) (min (2 ^ 31 - 1) v) := by unfold satSInt; omega
  have hc : (satSInt 32 v != v) = decide (v < -2 ^ 31 ∨ 2 ^ 31 ≤ v) := by rw [hs, Bool.eq_iff_iff]; simp only [bne_iff_ne, decide_eq_true_eq]; omega
  unfold clampLane keptLane
  rw [hc, hs]

theorem vaddLane_eq (ov : BitVec 2) (sub : Bool) (x y : BitVec 32) :
    vaddLane ov sub x y =
      (let s : Int := if sub then x.toInt - y.toInt else x.toInt + y.toInt
       let u : Int := if sub then (x.toNat : Int) - y.toNat else (x.toNat : Int) + y.toNat
       (if ov = 1 then (keptLane s).1 else if ov = 2 then BitVec.ofInt 32 (max 0 (min (2 ^ 32 - 1) u)) else BitVec.ofInt 32 s,
        if ov = 1 then (keptLane s).2 else if ov = 2 then decide (u < 0 ∨ 2 ^ 32 ≤ u) else false)) := by
  have hu : ∀ v, satUInt 32 v = max 0 (min (2 ^ 32 - 1) v) := fun v => by unfold satUInt; omega
  have hc : ∀ v, (satUInt 32 v != v) = decide (v < 0 ∨ 2 ^ 32 ≤ v) := fun v => by rw [hu, Bool.eq_iff_iff]; simp only [bne_iff_ne, decide_eq_true_eq]; omega
  have hk : ∀ v, (BitVec.ofInt 32 (satSInt 32 v), satSInt 32 v != v) = keptLane v := clampLane_eq_keptLane
  unfold vaddLane
  simp only [hk, hc]
  simp only [hu]
  by_cases h1 : ov = 1
  · simp only [if_pos h1]
  · simp only [if_neg h1]
    split <;> rfl

/-- The shifts but RSR take the amount as it stands (R170). -/
theorem vshiftAmount_nat {kind : BitVec 3} (lane : BitVec 1) (amt : BitVec 6) (y : BitVec 32) (h : kind ≠ 3) :
    vshiftAmount kind (lane == 1) amt y = ((if lane = 1 then (y.extractLsb' 0 6).toNat else amt.toNat : Nat) : Int) := by
  unfold vshiftAmount
  by_cases hlane : lane = 1
  · rw [if_neg (by simp [hlane]), if_neg h, if_pos hlane]
  · rw [if_pos (by simpa using hlane), if_neg hlane]

/-- A shift by a register's amount or by the immediate one (R170). -/
theorem vshiftLane_eq (kind : BitVec 3) (lane : BitVec 1) (amt : BitVec 6) (mode : BitVec 2) (r : Nat) (x y : BitVec 32) :
    vshiftLane kind mode r x (vshiftAmount kind (lane == 1) amt y) =
      (let n : Nat := if lane = 1 then (y.extractLsb' 0 6).toNat else amt.toNat
       let sn : Int := if lane = 1 then max (-63) (min 63 y.toInt) else amt.toNat
       if kind = 0 then (x <<< n, false) else if kind = 1 then (x >>> n, false) else if kind = 2 then (x.sshiftRight n, false)
       else if kind = 3 then (if sn < 0 then keptLane (x.toInt * 2 ^ sn.natAbs) else (BitVec.ofInt 32 (roundShift x.toInt sn.toNat mode r), false))
       else keptLane (x.toInt * 2 ^ n)) := by
  match kind with
  | 0 | 1 | 2 =>
    rw [vshiftAmount_nat _ _ _ (by decide)]
    rfl
  | 3 =>
    have hamount : vshiftAmount 3 (lane == 1) amt y = if lane = 1 then max (-63) (min 63 y.toInt) else (amt.toNat : Int) := by
      by_cases hlane : lane = 1 <;> simp [vshiftAmount, hlane]
    have hneg : ∀ d : Int, d < 0 → (-d).toNat = d.natAbs := fun d hd => by omega
    rw [hamount]
    generalize (if lane = 1 then max (-63) (min 63 y.toInt) else (amt.toNat : Int)) = sn
    by_cases hsn : sn < 0
    · exact (if_pos hsn).trans (by rw [clampLane_eq_keptLane, hneg sn hsn]; exact (if_pos hsn).symm)
    · exact (if_neg hsn).trans (if_neg hsn).symm
  | 4 | 5 | 6 | 7 =>
    rw [vshiftAmount_nat _ _ _ (by decide)]
    exact clampLane_eq_keptLane _

/-- VPERM takes lanes below 32 alone (R172). -/
theorem permSource_eq (pat : Nat) {p l : Nat} (hp : p < 32) (hl : l < 32) :
    permSource pat p l =
      (match pat with
      | 0 => (false, (l + p) % 32)
      | 1 => (false, Nat.xor l p)
      | 2 => (false, p)
      | 3 => (false, 31 - l)
      | 4 => (l % 2 == 1, 16 * p + l / 2)
      | 5 => (decide (16 ≤ l), 2 * (l % 16) + p)
      | _ => (decide (32 ≤ l + p), (l + p) % 32)) := by
  match pat with
  | 0 | 1 | 2 | 3 | 4 => rfl
  | 5 =>
    simp only [permSource]
    split
    · next h => rw [decide_eq_false (by omega), Nat.mod_eq_of_lt h]
    · next h => rw [decide_eq_true (by omega), show l % 16 = l - 16 by omega]
  | n + 6 =>
    simp only [permSource]
    split
    · next h => rw [decide_eq_false (by omega), Nat.mod_eq_of_lt h]
    · next h => rw [decide_eq_true (by omega), show (l + p) % 32 = l + p - 32 by omega]

/-- Each operation of R169 to R173 is a lane-by-lane result with the lanes that its rule gives. -/
theorem exec_vectorRow_lanes {s : State} {i : Issue} {op : VectorOp} {r : LaneSpec} {dr : List Nat} (hrange : inRangeVector op = true) (hissue : Issues s i)
    (hspec : laneSpec (opened s i) dr op = some r) :
    ∃ f b, exec (vectorRow i op) s =
        .next (became s i.core ((opened s i).laneResult (s.env i.core) (originOf s i 2 (vectorBits op)) r.reads r.dest r.lat (roundingMode op) f b)) ∧
      LanesMatch (opened s i) (originOf s i 2 (vectorBits op)) dr r f b := by
  cases op with
  | vnop | vcmp | vunpk | vpack | vlut | vget | mset | mlogic => cases hspec
  | vadd d a b ov sub =>
    cases hspec
    refine ⟨_, _, (show execVadd i _ s = _ from (vectorCommand_issues hissue _ hrange).trans rfl), ⟨fun u fc => ?_, fun u fc => ?_, fun l _ => ?_, fun l _ => rfl⟩⟩
    · simp only [claimed_readV]
    · exact claimed_bruiseOr ..
    · simp only [vaddLane_eq, beq_iff_eq]
  | vmul d a b sgn ah bh =>
    cases hspec
    refine ⟨_, _, (show execVmul i _ s = _ from (vectorCommand_issues hissue _ hrange).trans rfl), ⟨fun u fc => ?_, fun u fc => ?_, fun l _ => ?_, fun l _ => rfl⟩⟩
    · simp only [claimed_readV]
    · exact claimed_bruiseOr ..
    · simp only [vmulLane, beq_iff_eq]
  | vmulh d a b sh mode =>
    cases hspec
    refine ⟨_, _, (show execVmulh i _ s = _ from (vectorCommand_issues hissue _ hrange).trans rfl), ⟨fun u fc => ?_, fun u fc => ?_, fun l _ => ?_, fun l _ => rfl⟩⟩
    · simp only [claimed_readV]
    · exact claimed_bruiseOr ..
    · simp only [vmulhLane, clampLane_eq_keptLane]
  | vshift d a b kind lane amt mode =>
    cases hspec
    refine ⟨_, _, (show execVshift i _ s = _ from (vectorCommand_issues hissue _ hrange).trans (by simp only [beq_iff_eq]; rfl)), ⟨fun u fc => ?_, fun u fc => ?_, fun l _ => ?_, fun l _ => ?_⟩⟩
    · simp only [claimed_readV]
    · split
      · exact claimed_bruiseOr ..
      · exact claimed_bruiseOf ..
    · exact vshiftLane_eq kind lane amt mode _ _ _
    · by_cases hlane : lane = 1
      · subst hlane; rfl
      · rw [if_neg hlane, beq_false_of_ne hlane]; exact (Bool.or_false _).symm
  | vlogic d a b fn =>
    cases hspec
    refine ⟨_, _, (show execVlogic i _ s = _ from (vectorCommand_issues hissue _ hrange).trans rfl), ⟨fun u fc => ?_, fun u fc => ?_, fun l _ => rfl, fun l _ => rfl⟩⟩
    · simp only [claimed_readV]
    · exact claimed_bruiseOr ..
  | vminmax d a b max uns =>
    cases hspec
    refine ⟨_, _, (show execVminmax i _ s = _ from (vectorCommand_issues hissue _ hrange).trans rfl), ⟨fun u fc => ?_, fun u fc => ?_, fun l _ => ?_, fun l _ => rfl⟩⟩
    · simp only [claimed_readV]
    · exact claimed_bruiseOr ..
    · simp only [minmaxResult_eq]
  | vcount d a cls =>
    cases hspec
    refine ⟨_, _, (show execVcount i _ s = _ from (vectorCommand_issues hissue _ hrange).trans rfl), ⟨fun u fc => ?_, fun u fc => ?_, fun l _ => rfl, fun l _ => rfl⟩⟩
    · simp only [claimed_readV]
    · exact claimed_bruiseOf ..
  | vsel d a b ms =>
    cases hspec
    refine ⟨_, _, (show execVsel i _ s = _ from (vectorCommand_issues hissue _ hrange).trans rfl), ⟨fun u fc => ?_, fun u fc => ?_, fun l _ => ?_, fun l _ => ?_⟩⟩
    · simp only [claimed_readV, claimed_readM]
    · simp only [claimed_readV, claimed_readM]
    all_goals simp only [apply_ite ((opened s i).readV)]
  | vperm d a b pat p =>
    cases hspec
    refine ⟨_, _, (show execVperm i _ s = _ from (vectorCommand_issues hissue _ hrange).trans rfl), ⟨fun u fc => ?_, fun u fc => ?_, fun l hl => ?_, fun l hl => ?_⟩⟩
    · simp only [claimed_readV]
    · simp only [claimed_readV]
    all_goals simp only [permSource_eq _ p.isLt hl, apply_ite ((opened s i).readV)] <;> rfl
  | vmovi d imm =>
    cases hspec
    exact ⟨_, _, (show execVmovi i _ s = _ from (vectorCommand_issues hissue _ hrange).trans rfl), ⟨fun u fc => rfl, fun u fc => rfl, fun l _ => rfl, fun l _ => rfl⟩⟩
  | vsplat d ss =>
    cases hspec
    refine ⟨_, _, (show execVsplat i _ s = _ from (vectorCommand_issues hissue _ hrange).trans rfl), ⟨fun u fc => ?_, fun u fc => rfl, fun l _ => ?_, fun l _ => rfl⟩⟩
    · simp only [claimed_readS]
    · simp only [BitVec.setWidth_eq_extractLsb' (show 32 ≤ 64 by decide)]

end Sys2Proof.Machine

namespace Sys2Proof.Claims

open Sys2Proof.Machine

/-- Settles O13: every operation is a lane-by-lane result, and one that meets no other write is scheduled with its lanes. -/
theorem vectorOperationsScheduleTheirLanes : Obligations.VectorOperationsScheduleTheirLanes := by
  unfold Obligations.VectorOperationsScheduleTheirLanes
  intro s i op r c o dr hrange hissue hspec huse hfree
  obtain ⟨f, b, hexec, hmatch⟩ := exec_vectorRow_lanes hrange hissue hspec
  obtain ⟨v, hv, hlanes⟩ := CoreState.laneResult_schedules hmatch huse hfree
  exact ⟨v, hexec.trans (answer_congr hv), hlanes⟩

/-- Settles O14: three mask results and a scalar result of a lane, each scheduled. -/
theorem maskOperationsAndVget : Obligations.MaskOperationsAndVget := by
  unfold Obligations.MaskOperationsAndVget
  intro s i c f hissue
  refine ⟨fun md a b cond huse hfree => ?vcmp, fun md imm huse hfree => ?mset, ?mlogic, fun sd a lane huse hfree => ?vget⟩
  case vcmp =>
    refine ⟨{ bits := marksOf (fun l => condHolds cond ((c.readV a).lane l) ((c.readV b).lane l)), bruise := (c.readV a).bruise ||| (c.readV b).bruise }, ?_, rfl, ?_⟩
    · refine (show execVcmp i _ s = _ from (vectorCommand_issues hissue (op := .vcmp md a b cond) _ rfl).trans (answer_congr ?_))
      exact CoreState.maskResult_schedules (o := originOf s i 2 _) (reads := [vUse a, vUse b]) (fun u fc => by simp only [claimed_readV]) huse hfree
    · intro l hl x y
      refine (marksOf_getLsbD _ hl).trans ?_
      rw [condHolds_eq]
      match cond with
      | 0 | 1 | 2 | 3 | 4 | 5 | 6 | 7 => rfl
  case mset =>
    refine (show execMset i _ s = _ from (vectorCommand_issues hissue (op := .mset md imm) _ rfl).trans (answer_congr ?_))
    exact CoreState.maskResult_schedules (o := originOf s i 2 _) (reads := []) (fun u fc => rfl) huse hfree
  case mlogic =>
    intro md ma mb fn x y huse hfree
    refine (show execMlogic i _ s = _ from (vectorCommand_issues hissue (op := .mlogic md ma mb fn) _ rfl).trans (answer_congr ?_))
    exact CoreState.maskResult_schedules (o := originOf s i 2 _) (reads := [mUse ma, mUse mb]) (fun u fc => by simp only [claimed_readM]) huse hfree
  case vget =>
    refine (show execVget i _ s = _ from (vectorCommand_issues hissue (op := .vget sd a lane) _ rfl).trans (answer_congr ?_))
    refine (CoreState.withRegs_usable (o := originOf s i 2 _) (reads := [vUse a]) (writes := [(.s, sd.toNat)]) _ huse).trans ?_
    refine (CoreState.withClaims_unclaimed _ _ hfree).trans ?_
    rw [claimed_readV, claimed_offset]
    rfl

end Sys2Proof.Claims
end

section
/-! The sync slot (R246 to R282): bundles that issue and bundles that wait, and what each operation makes due. -/

namespace Sys2Proof.Machine

open Claims (Usable Unclaimed schedule opened originOf became later syncBits syncRow Issues WaitMet)

/-! ### What a wait rests on (R252) -/

/-- What the condition of a sync operation rests on, all else as at reset. -/
def CoreState.waitView (c : CoreState) : CoreState :=
  { tables := c.tables, viewTallies := c.viewTallies, viewMail := c.viewMail, traffic := { sendQueue := c.traffic.sendQueue }
    work := { s := c.work.s, tallies := c.work.tallies, ringPtr := c.work.ringPtr, rotation := c.work.rotation } }

theorem CoreState.waitView_syncReady (c : CoreState) (op : SyncOp) : c.waitView.syncReady op = c.syncReady op := by
  cases op <;> rfl

theorem foldl_issueFault_waitView (code : Code) (f : Nat × Word → Origin) (ks : List (Nat × Word)) (c : CoreState) :
    (ks.foldl (fun (c : CoreState) k => c.issueFault code (f k)) c).waitView = c.waitView := by
  induction ks generalizing c with
  | nil => rfl
  | cons k ks ih => exact ih _

theorem CoreState.countFill_waitView (c : CoreState) (n : BitVec 24) : ({ c with work.issue.fill := n } : CoreState).waitView = c.waitView := rfl

/-- Opening a bundle changes nothing that a wait rests on. -/
theorem CoreState.issueBundle_waitView (c : CoreState) (fill : Bool) (h : BundleHead) : (c.issueBundle fill h).waitView = c.waitView := by
  unfold CoreState.issueBundle
  dsimp only
  split
  · cases fill <;> rfl
  · cases fill
    · exact (foldl_issueFault_waitView _ _ _ _).trans rfl
    · exact (CoreState.countFill_waitView _ _).trans ((foldl_issueFault_waitView _ _ _ _).trans rfl)

theorem CoreState.issueBundle_syncReady (c : CoreState) (fill : Bool) (h : BundleHead) (op : SyncOp) : (c.issueBundle fill h).syncReady op = c.syncReady op := by
  rw [← CoreState.waitView_syncReady, CoreState.issueBundle_waitView, CoreState.waitView_syncReady]

/-! ### A wait whose bundle issues (R192, R252) -/

/-- Where bundle `h` comes first and issues, its stream may issue and nothing holds or cancels the bundle. -/
structure OpensIssuing (s : State) (i : Issue) (h : BundleHead) : Prop where
  mayIssue : (later s i.core h.dt).mayIssue i.fill = true
  cancels : bundleCancels h i.fill ((later s i.core h.dt).stream i.fill).next = none
  interlock : (i.fill && (later s i.core h.dt).fillInterlock h) = false
  opened_eq : opened s i = (later s i.core h.dt).issueBundle i.fill h

theorem CoreState.bundleLive_cancelled (c : CoreState) (fill : Bool) (st : StreamState) : (c.setStreamState fill { st with cancelled := true }).bundleLive fill = false := by
  simp [CoreState.bundleLive]

theorem opensIssuing_of_issues {s : State} {i : Issue} {h : BundleHead} (hissue : Issues s i) (hhead : i.head = some h) : OpensIssuing s i h := by
  obtain ⟨-, -, hlive⟩ := hissue
  have hopen : opened s i = (s.core i.core).openBundle (s.env i.core) i.fill h (fun c => c.waitMet h) := by
    simp only [opened, CoreState.presented, hhead]
  have heq : opened s i = (later s i.core h.dt).issueBundle i.fill h ∧
      ((later s i.core h.dt).mayIssue i.fill = true ∧
        ((bundleCancels h i.fill ((later s i.core h.dt).stream i.fill).next).isNone &&
          (!(later s i.core h.dt).waitMet h || (i.fill && (later s i.core h.dt).fillInterlock h))) = false) := by
    rw [hopen] at hlive ⊢
    unfold CoreState.openBundle at hlive ⊢
    dsimp only at hlive ⊢
    split at hlive
    · rw [CoreState.bundleLive_cancelled] at hlive
      cases hlive
    · next hk =>
      rw [if_neg hk]
      exact ⟨rfl, by simpa only [later, Bool.or_eq_true, not_or, Bool.not_eq_true, Bool.not_eq_false'] using hk⟩
  obtain ⟨hbundle, hmay, hheld⟩ := heq
  have hcancels : bundleCancels h i.fill ((later s i.core h.dt).stream i.fill).next = none := by
    refine Option.not_isSome_iff_eq_none.1 fun hk => ?_
    rw [hbundle, (CoreState.issueBundle_cancelledFrom hk).notLive] at hlive
    cases hlive
  refine ⟨hmay, hcancels, ?_, hbundle⟩
  rw [hcancels] at hheld
  exact (Bool.or_eq_false_iff.1 hheld).2

/-- A wait that is met opens its bundle as its bundle opens. -/
theorem OpensIssuing.reopened_eq {s : State} {i : Issue} {h : BundleHead} (ho : OpensIssuing s i h) {ready : CoreState → Bool} (hready : ready (later s i.core h.dt) = true) :
    (later s i.core h.dt).openBundle (s.env i.core) i.fill { h with dt := 0 } ready = opened s i := by
  have hcancels : bundleCancels { h with dt := 0 } i.fill ((later s i.core h.dt).stream i.fill).next = none := ho.cancels
  have hinterlock : (i.fill && (later s i.core h.dt).fillInterlock { h with dt := 0 }) = false := ho.interlock
  rw [ho.opened_eq]
  unfold CoreState.openBundle
  dsimp only
  rw [Nat.add_zero, CoreState.runTo_offset, ho.mayIssue, hcancels, hready, hinterlock]
  rfl

/-- Where the bundle issues and its condition holds, the row of a sync operation that can wait has the operation's effect in the issue fc. -/
theorem waitCommand_issues {s : State} {i : Issue} {op : SyncOp} {exempt : SyncOp → CoreState → Bool} {object : SyncOp → Option (BitVec 16)} (act : Env → SyncOp → Origin → CoreState → CoreState)
    (hissue : Issues s i) (hrange : inRangeSync op = true) (hready : (opened s i).syncReady op = true) :
    waitCommand s i (syncOpcode op) ((encodeSync op).setWidth 27) exempt object act =
      .next (became s i.core (act (s.env i.core) op (originOf s i 6 (syncBits op)) (opened s i))) := by
  obtain ⟨hcore, hrun, hlive⟩ := id hissue
  have hrunOpened : (opened s i).inBundle (s.env i.core) { i with head := none } 6 (syncBits op)
      (fun o c => if (c.syncReady op || exempt op c) = true then act (s.env i.core) op o c else c) =
      act (s.env i.core) op (originOf s i 6 (syncBits op)) (opened s i) := by
    unfold CoreState.inBundle
    rw [CoreState.presented_later rfl]
    refine (if_pos hlive).trans (if_pos ?_)
    rw [hready, Bool.true_or]
  unfold waitCommand syncWord
  rw [syncOpcode_append, decodeSync_encodeSync hrange, coreCommand_running _ hcore hrun, State.onCore]
  cases hhead : i.head with
  | none =>
    have hopened : opened s i = s.core i.core := CoreState.presented_later hhead
    rw [← hopened]
    exact answer_congr hrunOpened
  | some h =>
    have ho := opensIssuing_of_issues hissue hhead
    have hmet : (later s i.core h.dt).waitReady exempt (encodeSync op) = true := by
      have hlater : (later s i.core h.dt).syncReady op = true := by rw [← hready, ho.opened_eq, CoreState.issueBundle_syncReady]
      simp [CoreState.waitReady, decodeSync_encodeSync hrange, hlater]
    refine answer_congr (cid := i.core) ((if_neg ?_).trans ?_)
    · change ¬ (!i.fill && (later s i.core h.dt).mayIssue false && (bundleCancels h false (later s i.core h.dt).step.main.next).isNone && !(later s i.core h.dt).waitReady exempt (encodeSync op)) = true
      simp [hmet]
    · rw [← Claims.later, ho.reopened_eq hmet]
      exact hrunOpened

theorem claimed_tables (c : CoreState) (o : Origin) (u : RegClass × Nat) (fc : Nat) : (Claims.claimed c o u fc).tables = c.tables := by
  unfold Claims.claimed
  split <;> rfl

theorem CoreState.result_offset (c : CoreState) (fc : Nat) (w : RegWrite) (o : Origin) : (c.result fc w o).step.offset = c.step.offset := rfl

/-- A bundle of the main stream is held, in a fc in which it might issue, while the wait in it is not ready. -/
theorem waitCommand_holds {s : State} {i : Issue} {h : BundleHead} {op : SyncOp} {exempt : SyncOp → CoreState → Bool} {object : SyncOp → Option (BitVec 16)} (act : Env → SyncOp → Origin → CoreState → CoreState)
    (hcore : s.hasCore i.core = true) (hrun : (s.env i.core).running = true) (hfill : i.fill = false) (hhead : i.head = some h) (hrange : inRangeSync op = true)
    (hmay : (later s i.core h.dt).mayIssue false = true) (hcancels : bundleCancels h false (later s i.core h.dt).step.main.next = none)
    (hmet : (later s i.core h.dt).syncReady op = false) (hexempt : exempt op (later s i.core h.dt) = false) :
    waitCommand s i (syncOpcode op) ((encodeSync op).setWidth 27) exempt object act = .next (became s i.core ((later s i.core h.dt).hold h (object op))) := by
  have hready : (later s i.core h.dt).waitReady exempt (encodeSync op) = false := by simp [CoreState.waitReady, decodeSync_encodeSync hrange, hmet, hexempt]
  unfold waitCommand
  rw [syncOpcode_append, decodeSync_encodeSync hrange, coreCommand_running _ hcore hrun, State.onCore, hhead]
  refine answer_congr (cid := i.core) (if_pos ?_)
  change (!i.fill && (later s i.core h.dt).mayIssue false && (bundleCancels h false (later s i.core h.dt).step.main.next).isNone && !(later s i.core h.dt).waitReady exempt (encodeSync op)) = true
  rw [hfill, hmay, hcancels, hready]
  rfl

/-- An immediate threshold is met as its bits compare with the tally. -/
theorem CoreState.syncReady_wait {c : CoreState} {tally : BitVec 6} {sub : BitVec 1} {thr : BitVec 19} : c.syncReady (.wait tally sub thr) = true ↔ thr.toNat ≤ (c.tally tally).toNat := by
  simp only [CoreState.syncReady, BitVec.ule, decide_eq_true_eq, BitVec.toNat_setWidth_of_le (show 19 ≤ 32 by decide)]

theorem CoreState.syncReady_waitReg {c : CoreState} {tally : BitVec 6} {sub : BitVec 1} {sa : BitVec 5} :
    c.syncReady (.waitReg tally sub sa) = true ↔ ((c.readS sa).extractLsb' 0 32 : BitVec 32).toNat ≤ (c.tally tally).toNat := by
  rw [← BitVec.setWidth_eq_extractLsb' (by decide)]
  exact decide_eq_true_iff

theorem CoreState.syncReady_cwait {c : CoreState} {k : BitVec 12} {sa : BitVec 5} :
    c.syncReady (.cwait k sa) = true ↔ ((c.readS sa).extractLsb' 0 32 : BitVec 32).toNat ≤ (AMap.get 0 c.viewTallies k.toNat).toNat := by
  rw [← BitVec.setWidth_eq_extractLsb' (by decide)]
  exact decide_eq_true_iff

theorem CoreState.syncReady_select {c : CoreState} {mask : BitVec 8} {rot : BitVec 1} {sd : BitVec 5} : c.syncReady (.select mask rot sd) = true ↔ c.selectRing mask (rot == 1) ≠ none :=
  Option.isSome_iff_ne_none

theorem CoreState.syncReady_ctake {c : CoreState} {sd : BitVec 5} : c.syncReady (.ctake sd) = true ↔ c.viewMail ≠ none :=
  Option.isSome_iff_ne_none

/-- What a wait takes from its tally, from its immediate or its register. -/
theorem CoreState.waitSub_eq (c : CoreState) (tally : BitVec 6) (sub : BitVec 1) (thr : BitVec 32) :
    c.waitSub tally sub thr = if sub = 1 then c.push c.step.offset (.tally tally (-(thr.toNat : Int))) else c := rfl

/-! ### The reserved opcodes of a bundle (R108, R165, R199, R239, R248) -/

theorem foldl_issueFault_reports_mono (code : Code) (f : Nat × Word → Origin) (ks : List (Nat × Word)) {c : CoreState} {r : CoreReport} (hr : r ∈ c.traffic.reports) :
    r ∈ (ks.foldl (fun (c : CoreState) k => c.issueFault code (f k)) c).traffic.reports := by
  induction ks generalizing c with
  | nil => exact hr
  | cons k ks ih => exact ih (List.mem_append_left _ hr)

theorem foldl_issueFault_offset (code : Code) (f : Nat × Word → Origin) (ks : List (Nat × Word)) (c : CoreState) :
    (ks.foldl (fun (c : CoreState) k => c.issueFault code (f k)) c).step.offset = c.step.offset := by
  induction ks generalizing c with
  | nil => rfl
  | cons k ks ih => exact ih _

/-- Each slot that faults is reported, with its slot and bits, in the present fc. -/
theorem foldl_issueFault_reports (code : Code) (f : Nat × Word → Origin) {ks : List (Nat × Word)} {k : Nat × Word} (hk : k ∈ ks) (c : CoreState) :
    ∃ r ∈ (ks.foldl (fun (c : CoreState) k => c.issueFault code (f k)) c).traffic.reports, r.code = code ∧ r.slot = (f k).slot ∧ r.d0 = (f k).word ∧ r.offset = c.step.offset := by
  induction ks generalizing c with
  | nil => cases hk
  | cons x ks ih =>
    rcases List.mem_cons.1 hk with rfl | hks
    · exact ⟨_, foldl_issueFault_reports_mono code f ks (List.mem_append_right _ (List.mem_singleton_self _)), rfl, rfl, rfl, rfl⟩
    · exact ih hks (c.issueFault code (f x))

/-- A bundle that is not cancelled whole reports each slot whose opcode is reserved. -/
theorem CoreState.issueBundle_reports {c : CoreState} {fill : Bool} {h : BundleHead} {k : Nat × Word} (hcancels : bundleCancels h fill (c.stream fill).next = none) (hk : k ∈ reservedSlots h) :
    ∃ r ∈ (c.issueBundle fill h).traffic.reports, r.code = 0x2007 ∧ r.slot = k.1 ∧ r.d0 = k.2 ∧ r.offset = (c.issueBundle fill h).step.offset := by
  unfold CoreState.issueBundle
  simp only [hcancels]
  cases fill
  · obtain ⟨r, hr, hcode, hslot, hd0, hoff⟩ := foldl_issueFault_reports 0x2007 _ hk _
    exact ⟨r, hr, hcode, hslot, hd0, hoff.trans (foldl_issueFault_offset _ _ _ _).symm⟩
  · obtain ⟨r, hr, hcode, hslot, hd0, hoff⟩ := foldl_issueFault_reports 0x2007 _ hk _
    exact ⟨r, hr, hcode, hslot, hd0, hoff.trans (foldl_issueFault_offset _ _ _ _).symm⟩

/-! ### Words that no table admits (R108, R165, R199, R239, R248) -/

section Reserved

variable {s : State} {i : Issue} (hissue : Issues s i)

include hissue

theorem scalarCommand_reserved {opc : BitVec 6} {w : BitVec 34} (act : ScalarOp → Origin → CoreState → CoreState) (hnone : decodeScalar (opc ++ w) = none) :
    scalarCommand s i opc w act = .next (became s i.core ((opened s i).issueFault 0x2007 (originOf s i 1 ((opc ++ w).setWidth 64)))) := by
  unfold scalarCommand
  rw [slotCommand_issues hissue, hnone]

theorem vectorCommand_reserved {opc : BitVec 8} {w : BitVec 40} (act : Env → VectorOp → Origin → CoreState → CoreState) (hnone : decodeVector (opc ++ w) = none) :
    vectorCommand s i opc w act = .next (became s i.core ((opened s i).issueFault 0x2007 (originOf s i 2 ((opc ++ w).setWidth 64)))) := by
  unfold vectorCommand
  rw [slotCommand_issues hissue, hnone]

theorem matrixCommand_reserved {opc : BitVec 4} {w : BitVec 44} (act : Env → MatrixOp → Origin → CoreState → CoreState) (hopc : opc ≠ 5) (hnone : decodeMatrix (opc ++ w) = none) :
    matrixCommand s i opc w act = .next (became s i.core ((opened s i).issueFault 0x2007 (originOf s i 3 ((opc ++ w).setWidth 64)))) := by
  unfold matrixCommand
  rw [slotCommand_issues hissue, hnone, if_neg hopc]

theorem loadCommand_reserved {opc : BitVec 4} {w : BitVec 32} (act : Env → LoadOp → Origin → CoreState → CoreState) (hnone : decodeLoad (opc ++ w) = none) :
    loadCommand s i opc w act = .next (became s i.core ((opened s i).issueFault 0x2007 (originOf s i 4 ((opc ++ w).setWidth 64)))) := by
  unfold loadCommand
  rw [slotCommand_issues hissue, hnone]

theorem storeCommand_reserved {opc : BitVec 4} {w : BitVec 32} (act : Env → StoreOp → Origin → CoreState → CoreState) (hnone : decodeStore (opc ++ w) = none) :
    storeCommand s i opc w act = .next (became s i.core ((opened s i).issueFault 0x2007 (originOf s i 5 ((opc ++ w).setWidth 64)))) := by
  unfold storeCommand
  rw [slotCommand_issues hissue, hnone]

theorem syncCommand_reserved {opc : BitVec 5} {w : BitVec 27} (act : Env → SyncOp → Origin → CoreState → CoreState) (hnone : decodeSync (opc ++ w) = none) :
    syncCommand s i opc w act = .next (became s i.core ((opened s i).issueFault 0x2007 (originOf s i 6 ((opc ++ w).setWidth 64)))) := by
  unfold syncCommand
  rw [slotCommand_issues hissue, hnone]
  rfl

end Reserved

end Sys2Proof.Machine

namespace Sys2Proof.Claims

open Sys2Proof.Machine

/-- Settles O25: each operation makes its one change due in the issue fc. -/
theorem tallyAndRingOperations : Obligations.TallyAndRingOperations := by
  unfold Obligations.TallyAndRingOperations
  intro s i c f hissue
  refine ⟨fun tally sub thr hmet => ?wait, ?waitReg, fun tally neg amt => ?tadd, ?taddReg, ?select, fun ring hrd => ?release⟩
  case wait =>
    refine (show execWait i _ s = _ from (waitCommand_issues _ hissue (op := .wait tally sub thr) rfl (CoreState.syncReady_wait.2 hmet)).trans (answer_congr ?_))
    exact (CoreState.waitSub_eq _ _ _ _).trans (by rw [CoreState.waitThreshold, BitVec.toNat_setWidth_of_le (by decide)])
  case waitReg =>
    intro tally sub sa thr huse hmet
    refine (show execWait i _ s = _ from (waitCommand_issues _ hissue (op := .waitReg tally sub sa) rfl (CoreState.syncReady_waitReg.2 hmet)).trans (answer_congr ?_))
    refine (CoreState.withRegs_usable (o := originOf s i 6 _) (reads := [(.s, sa.toNat)]) (writes := []) _ huse).trans ?_
    exact (CoreState.waitSub_eq _ _ _ _).trans (by rw [CoreState.waitThreshold, BitVec.setWidth_eq_extractLsb' (by decide)])
  case tadd =>
    exact (show execTadd i _ s = _ from (syncCommand_issues _ hissue (encodeSync_opcode (.tadd tally neg amt)) (decodeSync_encodeSync rfl)).trans rfl)
  case taddReg =>
    intro tally neg sa amt huse
    refine (show execTadd i _ s = _ from (syncCommand_issues _ hissue (encodeSync_opcode (.taddReg tally neg sa)) (decodeSync_encodeSync rfl)).trans (answer_congr ?_))
    exact CoreState.withRegs_usable (o := originOf s i 6 _) (reads := [(.s, sa.toNat)]) (writes := []) _ huse
  case select =>
    intro mask rot sd r op o tk hmask huse hfree hring
    have hrange : inRangeSync op = true := bne_iff_ne.2 hmask
    have hmet : c.syncReady op = true := CoreState.syncReady_select.2 (by rw [hring]; exact Option.some_ne_none r)
    refine (show execSelect i _ s = _ from (waitCommand_issues _ hissue hrange hmet).trans (answer_congr ?_))
    simp only [op, c] at hring ⊢
    rw [hring]
    refine (CoreState.withRegs_usable (o := o) (reads := []) (writes := [(.s, sd.toNat)]) _ huse).trans ?_
    refine (CoreState.withClaims_unclaimed _ _ hfree).trans ?_
    simp only [CoreState.result_offset, claimed_offset, CoreState.ringPtr, CoreState.ring, claimed_work, claimed_tables]
    rfl
  case release =>
    refine (show execRelease i _ s = _ from (syncCommand_issues _ hissue (encodeSync_opcode (.release ring)) (decodeSync_encodeSync rfl)).trans (answer_congr ?_))
    exact if_neg hrd

/-- Settles O27: a condition that does not hold and an operation that would not fault hold the bundle. -/
theorem waitsHoldTheirBundle : Obligations.WaitsHoldTheirBundle := by
  unfold Obligations.WaitsHoldTheirBundle
  intro s i h op env fn c hcore hrun hfill hhead hrange hmay hnext hfaults hmet
  have hcancels : bundleCancels h false c.step.main.next = none := by
    refine Option.not_isSome_iff_eq_none.1 (mt (bundleCancels_isSome_iff h false _).1 ?_)
    simp [Nat.not_le.2 hnext, hfaults]
  have held {exempt : SyncOp → CoreState → Bool} {object : SyncOp → Option (BitVec 16)} (act : Env → SyncOp → Origin → CoreState → CoreState) (hready : ¬ c.syncReady op = true) (hexempt : exempt op c = false) :=
    waitCommand_holds (object := object) act hcore hrun hfill hhead hrange hmay hcancels (Bool.eq_false_iff.2 hready) hexempt
  refine ⟨_, ?_, rfl⟩
  cases op with
  | synop | test | tadd | taddReg | sig | bar | release | cadd | cput => exact absurd trivial hmet
  | wait tally sub thr => exact held _ (mt CoreState.syncReady_wait.1 hmet) rfl
  | waitReg tally sub sa =>
    obtain ⟨huse, hthr⟩ := not_or.1 hmet
    exact held _ (mt CoreState.syncReady_waitReg.1 hthr) (by simpa using huse)
  | post src sb count vec => exact held _ (mt of_decide_eq_true hmet) rfl
  | select mask rot sd => exact held _ (mt CoreState.syncReady_select.1 hmet) rfl
  | cwait k sa =>
    obtain ⟨hmay, horphan, huse, hthr⟩ : ¬ (s.plot fn).mayTally k.toNat = false ∧ ¬ s.commons.tallyOrphan k.toNat = true ∧ ¬ c.mayUse false (.s, sa.toNat) = false ∧ _ := by simpa only [WaitMet, not_or] using hmet
    have hexempt : (!(s.plot fn).mayTally k.toNat || s.commons.tallyOrphan k.toNat || !c.mayUse false (.s, sa.toNat)) = false := by
      rw [Bool.eq_true_of_not_eq_false hmay, Bool.eq_false_iff.2 horphan, Bool.eq_true_of_not_eq_false huse]
      rfl
    exact held _ (mt CoreState.syncReady_cwait.1 hthr) hexempt
  | ctake sd =>
    obtain ⟨horphan, hmail⟩ := not_or.1 hmet
    exact held _ (mt CoreState.syncReady_ctake.1 hmail) (Bool.eq_false_iff.2 horphan)
  | amsg sa sb handler count =>
    obtain ⟨hon, hfree⟩ := not_or.1 hmet
    exact held _ (mt of_decide_eq_true hfree) (by simpa using hon)

/-- Settles O29: a word that no table admits decodes to nothing, registers of the other stream stop SADD, and a bundle reports its reserved opcodes as it opens. -/
theorem reservedWordsAreBadBundles : Obligations.ReservedWordsAreBadBundles := by
  unfold Obligations.ReservedWordsAreBadBundles
  intro s i c hissue
  refine ⟨fun w hnone => ?scalar, fun w hnone => ?vector, fun _ w hnone => ?matrix, fun w hnone => ?load, fun w hnone => ?store, fun w hnone => ?sync, ?access, ?reserved⟩
  case scalar => exact (show execSadd i w s = _ from scalarCommand_reserved hissue _ hnone)
  case vector => exact (show execVadd i w s = _ from vectorCommand_reserved hissue _ hnone)
  case matrix => exact (show execManchor i w s = _ from matrixCommand_reserved hissue _ (by decide) hnone)
  case load => exact (show execLdvg i w s = _ from loadCommand_reserved hissue _ hnone)
  case store => exact (show execStv i w s = _ from storeCommand_reserved hissue _ hnone)
  case sync => exact (show execTest i w s = _ from syncCommand_reserved hissue _ hnone)
  case access =>
    intro d a b ov sub op hrange huse
    refine (show execSadd i _ s = _ from (scalarCommand_issues hissue (op := op) _ hrange).trans (answer_congr ?_))
    refine if_neg fun hall => ?_
    have hmay : ([(.s, a.toNat), (.s, b.toNat), (.s, d.toNat)] : List (RegClass × Nat)).all (c.mayUse i.fill) = true := hall
    obtain ⟨ha, hb, hd⟩ : c.mayUse i.fill (.s, a.toNat) = true ∧ c.mayUse i.fill (.s, b.toNat) = true ∧ c.mayUse i.fill (.s, d.toNat) = true := by simpa [and_assoc] using hmay
    simp [ha, hb, hd] at huse
  case reserved =>
    intro h hhead k hk
    have ho := opensIssuing_of_issues hissue hhead
    have hmem : k ∈ reservedSlots h := by
      unfold reservedSlots
      rcases hk with ⟨rfl, hk⟩ | ⟨rfl, hk⟩ | ⟨rfl, hk⟩ | ⟨rfl, hk⟩ | ⟨rfl, hk⟩ | ⟨rfl, hk⟩ <;> simp [-BitVec.extractLsb'_toNat, fieldOf, hk]
    have hreports := CoreState.issueBundle_reports ho.cancels hmem
    rw [← ho.opened_eq] at hreports
    exact hreports

end Sys2Proof.Claims
end

section
/-! What the passage of time in a core leaves alone (R166, R192 to R196): its tables, owner and views stand, its offset moves by the fc that pass, and its scratchpad stays canonical. -/

namespace Sys2Proof.Machine

/-- What work that takes effect in a fc keeps of its core: the tables, the owner, what the core waits for from outside, the bell image's bytes, the offset, the channels' firing numbers, and the canonical form of the scratchpad. -/
structure Keeps (c d : CoreState) : Prop where
  imageMem : d.image.mem = c.image.mem
  tables : d.tables = c.tables
  owner : d.owner = c.owner
  clearing : d.clearing = c.clearing
  checkPending : d.checkPending = c.checkPending
  viewTallies : d.viewTallies = c.viewTallies
  viewMail : d.viewMail = c.viewMail
  offset : d.step.offset = c.step.offset
  chanFired : d.traffic.chanFired = c.traffic.chanFired
  mem : Memory.wf c.work.mem = true → Memory.wf d.work.mem = true

/-- The parts of a core that are kept, its scratchpad as it is. -/
def CoreState.kept (c : CoreState) :=
  (c.image.mem, c.tables, c.owner, c.clearing, c.checkPending, c.viewTallies, c.viewMail, c.step.offset, c.traffic.chanFired, c.work.mem)

namespace Keeps

variable {c d e : CoreState}

theorem refl (c : CoreState) : Keeps c c := ⟨rfl, rfl, rfl, rfl, rfl, rfl, rfl, rfl, rfl, id⟩

theorem trans (h : Keeps c d) (k : Keeps d e) : Keeps c e :=
  ⟨k.imageMem.trans h.imageMem, k.tables.trans h.tables, k.owner.trans h.owner, k.clearing.trans h.clearing, k.checkPending.trans h.checkPending, k.viewTallies.trans h.viewTallies,
    k.viewMail.trans h.viewMail, k.offset.trans h.offset, k.chanFired.trans h.chanFired, k.mem ∘ h.mem⟩

/-- A record that differs in nothing that is kept. -/
theorem record (h : d.kept = c.kept) : Keeps c d := by
  simp only [CoreState.kept, Prod.mk.injEq] at h
  obtain ⟨hi, ht, ho, hc, hp, hv, hm, hf, hn, hw⟩ := h
  exact ⟨hi, ht, ho, hc, hp, hv, hm, hf, hn, fun hwf => by rw [hw]; exact hwf⟩

/-- A fold of steps that each keep what is kept. -/
theorem foldl {α : Type} (f : CoreState → α → CoreState) (hf : ∀ c a, Keeps c (f c a)) (l : List α) (c : CoreState) : Keeps c (l.foldl f c) := by
  induction l generalizing c with
  | nil => exact refl c
  | cons a l ih => exact (hf c a).trans (ih _)

/-- A fold that carries a core beside other data. -/
theorem foldl_fst {α β : Type} (f : CoreState × β → α → CoreState × β) (hf : ∀ p a, Keeps p.1 (f p a).1) (l : List α) (p : CoreState × β) : Keeps p.1 (l.foldl f p).1 := by
  induction l generalizing p with
  | nil => exact refl p.1
  | cons a l ih => exact (hf p a).trans (ih _)

end Keeps

/-! ### Counters, registers and reports -/

section Primitives

variable (c : CoreState)

theorem CoreState.countEvent_keeps (e : Event) : Keeps c (c.countEvent e) := by
  cases e
  · exact .refl c
  all_goals exact .record rfl

theorem CoreState.countEvents_keeps (es : List Event) : Keeps c (c.countEvents es) := .foldl _ CoreState.countEvent_keeps es c

theorem CoreState.markSumSat_keeps (b : Bool) : Keeps c (c.markSumSat b) := by cases b <;> exact .record rfl

theorem CoreState.markNarrowSat_keeps (b : Bool) : Keeps c (c.markNarrowSat b) := by cases b <;> exact .record rfl

theorem CoreState.markContribSat_keeps (b : Bool) : Keeps c (c.markContribSat b) := by cases b <;> exact .record rfl

theorem CoreState.keyWritten_keeps (r : BitVec 5) : Keeps c (c.keyWritten r) := by
  unfold CoreState.keyWritten
  split
  · exact .record rfl
  · split <;> exact .record rfl

theorem CoreState.writeS_keeps (r : BitVec 5) (v : Word) : Keeps c (c.writeS r v) := by
  unfold CoreState.writeS
  split
  · exact .refl c
  · exact Keeps.trans (d := { c with work.s := AMap.put 0 c.work.s r.toNat v }) (.record rfl) (CoreState.keyWritten_keeps _ _)

theorem CoreState.writeA_keeps (r : BitVec 4) (v : BitVec 32) : Keeps c (c.writeA r v) := by
  unfold CoreState.writeA
  split <;> exact .record rfl

theorem CoreState.fault_keeps (code : Code) (o : Origin) (d0 d1 d2 : Word) : Keeps c (c.fault code o d0 d1 d2) := .record rfl

theorem CoreState.push_keeps (fc : Nat) (ev : CoreEv) : Keeps c (c.push fc ev) := .record rfl

theorem CoreState.writeV_keeps (r : BitVec 5) (v : VReg) : Keeps c (c.writeV r v) := .record rfl

theorem CoreState.setEvents_keeps (es : List Timed) : Keeps c { c with step.events := es } := .record rfl

theorem CoreState.setTraffic_keeps {t : CoreTraffic} (h : t.chanFired = c.traffic.chanFired) : Keeps c { c with traffic := t } := ⟨rfl, rfl, rfl, rfl, rfl, rfl, rfl, rfl, h, id⟩

theorem CoreState.setSync_keeps (n : SyncStat) : Keeps c { c with work.sync := n } := .record rfl

theorem CoreState.setRingPtr_keeps (r : BitVec 3) (p : RingPtr) : Keeps c (c.setRingPtr r p) := .record rfl

/-! ### The scratchpad -/

theorem CoreState.bruiseWord_keeps (k : Nat) : Keeps c (c.bruiseWord k) := by
  unfold CoreState.bruiseWord
  dsimp only
  split <;> exact .record rfl

theorem CoreState.foundUe_keeps (k : Nat) (o : Origin) : Keeps c (c.foundUe k o) := (c.bruiseWord_keeps k).trans (.record rfl)

theorem CoreState.touchWord_keeps (k : Nat) (scalar : Bool) (o : Origin) : Keeps c (c.touchWord k scalar o).1 := by
  unfold CoreState.touchWord
  split
  · exact .refl c
  · exact .record rfl
  · exact .record rfl
  · exact (c.foundUe_keeps k o).trans (.record rfl)

theorem CoreState.touchWords_keeps (ks : List Nat) (scalar : Bool) (o : Origin) : Keeps c (c.touchWords ks scalar o).1 :=
  .foldl_fst (β := List Nat) _ (fun p k => p.1.touchWord_keeps k scalar o) _ (c, [])

theorem CoreState.writeWordClass_keeps (k : Nat) (full bruise : Bool) (o : Origin) : Keeps c (c.writeWordClass k full bruise o) := by
  unfold CoreState.writeWordClass
  dsimp only
  split
  · exact .record rfl
  · split
    · exact .record rfl
    · exact .record rfl
    · exact .refl c
    · exact c.foundUe_keeps k o

theorem CoreState.putByte_keeps (a : Nat) (v : Byte) : Keeps c (c.putByte a v) := ⟨rfl, rfl, rfl, rfl, rfl, rfl, rfl, rfl, rfl, AMap.wf_put a v⟩

theorem CoreState.writeBytes_keeps (bs : List WByte) (o : Origin) : Keeps c (c.writeBytes bs o) := by
  unfold CoreState.writeBytes
  exact ((Keeps.foldl _ (fun d k => d.writeWordClass_keeps k _ _ o) _ c).trans (Keeps.foldl _ (fun d b => d.putByte_keeps b.addr b.val) bs _)).trans (.record rfl)

theorem CoreState.foldCheck_keeps (word : Nat) (mask : Byte) (data : Word) (bruise : Bool) (order : Nat) : Keeps c (c.foldCheck word mask data bruise order) := .record rfl

theorem CoreState.foldAll_keeps : Keeps c c.foldAll := .record rfl

theorem CoreState.foldWrites_keeps (bs : List WByte) (order : Nat) : Keeps c (c.foldWrites bs order) := by
  unfold CoreState.foldWrites
  exact .foldl _ (fun d k => d.foldCheck_keeps _ _ _ _ _) _ c

theorem CoreState.readElements_keeps (h w : Nat) (bits : List Nat) (o : Origin) : Keeps c (c.readElements h w bits o).1 := c.touchWords_keeps _ _ _

/-! ### Accumulators -/

theorem CoreState.setGroup_keeps (g : Nat) (v : AccGroup) : Keeps c (c.setGroup g v) := .record rfl

theorem CoreState.accessEntry_keeps (narrow : Bool) (row e : Nat) (o : Origin) : Keeps c (c.accessEntry narrow row e o) := by
  unfold CoreState.accessEntry
  dsimp only
  split
  · exact .refl c
  · exact .record rfl
  · exact .record rfl

theorem CoreState.addContribution_keeps (narrow replace : Bool) (row e : Nat) (b : BlockSum) (o : Origin) : Keeps c (c.addContribution narrow replace row e b o) := by
  unfold CoreState.addContribution
  dsimp only
  refine Keeps.trans (Keeps.trans (Keeps.trans ?_ (CoreState.countEvent_keeps _ _)) (CoreState.markNarrowSat_keeps _ _)) (CoreState.markContribSat_keeps _ _)
  exact (c.accessEntry_keeps narrow row e o).trans (CoreState.setGroup_keeps _ _ _)

theorem CoreState.addBlocks_keeps (narrow ovw : Bool) (row e : Nat) (bs : List BlockSum) (o : Origin) : Keeps c (c.addBlocks narrow ovw row e bs o) := by
  cases bs with
  | nil => exact .refl c
  | cons b r => exact (c.addContribution_keeps narrow ovw row e b o).trans (.foldl _ (fun d b => d.addContribution_keeps narrow false row e b o) r _)

theorem CoreState.mergeEntry_keeps (narrow : Bool) (row e : Nat) (v : Int) (as : BitVec 10) (bruise : Bool) (o : Origin) : Keeps c (c.mergeEntry narrow row e v as bruise o) := by
  unfold CoreState.mergeEntry
  dsimp only
  refine Keeps.trans (Keeps.trans ?_ (CoreState.countEvent_keeps _ _)) (CoreState.markNarrowSat_keeps _ _)
  exact (c.accessEntry_keeps narrow row e o).trans (CoreState.setGroup_keeps _ _ _)

end Primitives

/-! ### Loads, streams and tiles -/

section Array

variable (c : CoreState)

theorem CoreState.setBank_keeps (b : Bool) (v : Bank) : Keeps c (c.setBank b v) := by cases b <;> exact .record rfl

theorem CoreState.takeTileRead_keeps (o : TileLoad) (r : TileRead) : Keeps c (c.takeTileRead o r).1 := by
  unfold CoreState.takeTileRead
  exact c.readElements_keeps _ _ _ _

theorem CoreState.doTileRead_keeps (o : TileLoad) : Keeps c (c.doTileRead o) := by
  unfold CoreState.doTileRead
  have hreads := Keeps.foldl_fst (fun (p : CoreState × TileLoad) r => p.1.takeTileRead p.2 r) (fun p r => p.1.takeTileRead_keeps p.2 r) (o.reads.take 2) (c, o)
  dsimp only
  split
  · exact hreads.trans ((CoreState.setBank_keeps _ _ _).trans (CoreState.countEvents_keeps _ _))
  · exact hreads.trans (.record rfl)

theorem CoreState.failStream_keeps (op : StreamOp) (b : Bad) : Keeps c (c.failStream op b) := .record rfl

theorem CoreState.holdLines_keeps (lines : List Nat) (o : Origin) : Keeps c (c.holdLines lines o).1 := c.touchWords_keeps _ _ _

theorem CoreState.columnRead_keeps (op : StreamOp) (k : Nat) : Keeps c (c.columnRead op k).1 := by
  unfold CoreState.columnRead
  dsimp only
  split
  · exact .refl c
  · refine Keeps.trans ?_ (CoreState.readElements_keeps _ _ _ _ _)
    split
    · exact c.holdLines_keeps _ _
    · exact .refl c

theorem CoreState.columnReads_keeps (op : StreamOp) (k n : Nat) : Keeps c (c.columnReads op k n).1 := by
  induction n generalizing c op k with
  | zero => exact .refl c
  | succ n ih => exact (c.columnRead_keeps op k).trans (ih _ _ _)

theorem CoreState.doColumn_keeps (id k : Nat) : Keeps c (c.doColumn id k) := by
  unfold CoreState.doColumn
  split
  · exact .refl c
  · next op _ =>
    split
    · exact .refl c
    · split
      · exact c.failStream_keeps _ _
      · dsimp only
        split
        · exact (c.columnRead_keeps op k).trans (.record rfl)
        · have hreads := c.columnReads_keeps op k (max 1 ((c.columnLines op op.column).length - k))
          generalize c.columnReads op k (max 1 ((c.columnLines op op.column).length - k)) = r at hreads ⊢
          split <;> exact hreads.trans ((CoreState.countEvents_keeps _ _).trans (.record rfl))

theorem CoreState.doContribution_keeps (k : Contribution) : Keeps c (c.doContribution k) := by
  unfold CoreState.doContribution
  exact (Keeps.foldl _ (fun d p => d.addBlocks_keeps _ _ _ _ _ _) _ c).trans (.record rfl)

theorem CoreState.doPassLoad_keeps (i : Nat) : Keeps c (c.doPassLoad i) := by
  unfold CoreState.doPassLoad
  split
  · exact .refl c
  · dsimp only
    split
    · exact .record rfl
    · split <;> exact .record rfl

theorem CoreState.doPassStream_keeps (i : Nat) : Keeps c (c.doPassStream i) := by
  unfold CoreState.doPassStream
  split
  · exact .refl c
  · exact .record rfl

end Array

/-! ### Loads and stores -/

section Access

variable (c : CoreState)

theorem CoreState.doRawRead_keeps (o : RawLoad) : Keeps c (c.doRawRead o) := by
  unfold CoreState.doRawRead
  split
  · exact .record rfl
  · dsimp only
    split <;> exact (c.touchWords_keeps _ _ _).trans (.record rfl)

theorem CoreState.gatherLane_keeps (o : Gather) (i : Nat) : Keeps c (c.gatherLane o i).1 := by
  unfold CoreState.gatherLane
  split
  · exact .refl c
  · exact c.touchWords_keeps _ _ _

theorem CoreState.doGather_keeps (o : Gather) (j : Nat) : Keeps c (c.doGather o j) := by
  unfold CoreState.doGather
  split
  · exact .record rfl
  · have hlanes := Keeps.foldl_fst (fun (p : CoreState × Gather) i => p.1.gatherLane p.2 (4 * j + i)) (fun p i => p.1.gatherLane_keeps p.2 _) [0, 1, 2, 3] (c, o)
    dsimp only
    split <;> exact hlanes.trans (.record rfl)

theorem CoreState.doIndexRead_keeps (o : Indexed) : Keeps c (c.doIndexRead o) := by
  unfold CoreState.doIndexRead
  split
  · exact .record rfl
  · exact (c.touchWords_keeps _ _ _).trans (.record rfl)

theorem CoreState.storePairs_keeps (first : Nat) (h : BitVec 6) (src : VReg) (places : List (Option (Nat × Nat))) (held : Bool) (o : Origin) :
    Keeps c (c.storePairs first h src places held o) := by
  unfold CoreState.storePairs
  dsimp only
  split
  · exact .record rfl
  · refine Keeps.foldl _ (fun d p => ?_) _ c
    split
    · exact .refl d
    · exact .record rfl

theorem CoreState.doIndexCheck_keeps (o : Indexed) : Keeps c (c.doIndexCheck o) := by
  unfold CoreState.doIndexCheck
  split
  · exact .record rfl
  · dsimp only
    split
    · split
      · exact c.doGather_keeps _ _
      · exact .record rfl
    · exact c.storePairs_keeps _ _ _ _ _ _

theorem CoreState.doFillStore_keeps (o : FillStore) : Keeps c (c.doFillStore o) := by
  unfold CoreState.doFillStore
  split
  · exact .refl c
  · split
    · exact .record rfl
    · dsimp only
      split
      · exact c.writeBytes_keeps _ _
      · exact (c.writeBytes_keeps _ _).trans (.record rfl)

theorem CoreState.doResult_keeps (w : RegWrite) : Keeps c (c.doResult w) := by
  cases w with
  | s r v => exact c.writeS_keeps r v
  | a r v => exact c.writeA_keeps r v
  | v r v => exact .record rfl
  | vpart r v lo len => exact c.writeV_keeps _ _
  | vlane r l x => exact c.writeV_keeps _ _
  | m r v => exact .record rfl

end Access

/-! ### Effects of single events -/

section Events

variable (c : CoreState)

theorem CoreState.doLoopInc_keeps (incs : List (Nat × Int)) : Keeps c (c.doLoopInc incs) := by
  unfold CoreState.doLoopInc
  dsimp only
  refine Keeps.trans (Keeps.trans (c.setEvents_keeps _) (Keeps.foldl _ (fun d i => d.writeA_keeps _ _) incs _)) (Keeps.foldl _ (fun d e => ?_) _ _)
  split
  · exact .record rfl
  · exact .refl d

theorem CoreState.doAccRead_keeps (vd : BitVec 5) (row entry shift : Nat) (mode : BitVec 2) (narrow : Bool) (draw : List Nat) (o : Origin) :
    Keeps c (c.doAccRead vd row entry shift mode narrow draw o) := by
  unfold CoreState.doAccRead
  exact (Keeps.foldl _ (fun d i => d.accessEntry_keeps _ _ _ _) _ c).trans ((CoreState.countEvents_keeps _ _).trans ((CoreState.markSumSat_keeps _ _).trans (.record rfl)))

theorem CoreState.doAccProbe_keeps (g : Nat) (sd : BitVec 5) (clear : Bool) (o : Origin) : Keeps c (c.doAccProbe g sd clear o) := by
  unfold CoreState.doAccProbe
  dsimp only
  have hmet : Keeps c ((c.group g).entries.foldl (fun (c' : CoreState) e => c'.accessEntry (c.group g).narrow (e.1 / 64) (g * (if (c.group g).narrow = true then 64 else 32) + e.1 % 64) o) c) :=
    Keeps.foldl _ (fun d e => d.accessEntry_keeps _ _ _ _) _ c
  split <;> exact hmet.trans (.record rfl)

theorem CoreState.doPartialRead_keeps (row entry count : Nat) (narrow : Bool) (out : FlitOut) (block : PartialBlock) : Keeps c (c.doPartialRead row entry count narrow out block) := by
  unfold CoreState.doPartialRead
  exact (Keeps.foldl _ (fun d i => d.accessEntry_keeps _ _ _ _) _ c).trans (.record rfl)

theorem CoreState.doLineRead_keeps (line : Nat) (out : FlitOut) (o : Origin) : Keeps c (c.doLineRead line out o) := by
  unfold CoreState.doLineRead
  dsimp only
  exact Keeps.trans (c.touchWords_keeps _ _ _) (CoreState.setTraffic_keeps _ rfl)

theorem CoreState.doSourceRead_keeps (l : SourceLine) : Keeps c (c.doSourceRead l) := by
  unfold CoreState.doSourceRead
  dsimp only
  split
  · exact .refl c
  · split
    · exact .record rfl
    · have hread (ks : List Nat) (o : Origin) (us : List WriteUnit) : Keeps c { (c.touchWords ks false o).1 with traffic.unitsOut := us } :=
        Keeps.trans (c.touchWords_keeps ks false o) (.record rfl)
      split
      · exact (hread _ _ _).trans (CoreState.push_keeps _ _ _)
      · exact hread _ _ _

theorem CoreState.doMerge_keeps (env : Env) (b : PartialBlock) : Keeps c (c.doMerge env b) := by
  unfold CoreState.doMerge
  dsimp only
  split
  · exact .record rfl
  · have hmerge := Keeps.foldl (fun (d : CoreState) (j : Nat) =>
        let e := b.entry + j
        let d := d.mergeEntry (bitOf b.header 10) b.row e (bodyEntry (bitOf b.header 10) b.body j) (b.header.extractLsb' 0 10) (bitOf b.header (32 + j)) { site := b.site, num := b.train }
        let en := (d.group (entryGroup (bitOf b.header 10) e)).entry (entryKey (bitOf b.header 10) b.row e)
        d.foldCheck (196608 + 1024 * b.row + e) 0xFF (en.content.setWidth 64) en.bruise (landingPlace b.port))
      (fun d j => (d.mergeEntry_keeps _ _ _ _ _ _ _).trans (CoreState.foldCheck_keeps _ _ _ _ _ _)) (List.range b.count) (c.dropBlock b)
    have hall := (Keeps.record (c := c) (d := c.dropBlock b) rfl).trans hmerge
    split
    · exact hall.trans (.record rfl)
    · exact hall

theorem CoreState.doPostedLand_keeps (r : BitVec 3) (e : RingEntry) (drained : Bool) : Keeps c (c.doPostedLand r e drained) := by
  unfold CoreState.doPostedLand
  dsimp only
  have hland (bs : List WByte) (p : RingPtr) (n : SyncStat) : Keeps c { (c.writeBytes bs {}).setRingPtr r p with work.sync := n } :=
    ((c.writeBytes_keeps bs {}).trans (CoreState.setRingPtr_keeps _ r p)).trans (CoreState.setSync_keeps _ n)
  split
  · exact (hland _ _ _).trans (CoreState.push_keeps _ _ _)
  · exact hland _ _ _

theorem CoreState.doRingMove_keeps (r : BitVec 3) (take rot : Bool) : Keeps c (c.doRingMove r take rot) := by
  unfold CoreState.doRingMove
  dsimp only
  split <;> exact .record rfl

theorem CoreState.scrubWord_keeps (k : Nat) : Keeps c (c.scrubWord k) := by
  unfold CoreState.scrubWord
  split
  · exact .record rfl
  · exact (c.bruiseWord_keeps k).trans (.record rfl)
  · exact .refl c

theorem CoreState.doScrubWrite_keeps : Keeps c c.doScrubWrite := by
  unfold CoreState.doScrubWrite
  dsimp only
  split
  · exact .record rfl
  · exact (Keeps.foldl _ CoreState.scrubWord_keeps _ c).trans (.record rfl)

/-- One event keeps what the passage of time keeps. -/
theorem CoreState.fire_keeps (env : Env) (ev : CoreEv) : Keeps c (c.fire env ev) := by
  cases ev with
  | result w o => exact c.doResult_keeps w
  | loopInc incs => exact c.doLoopInc_keeps incs
  | rawRead o => exact c.doRawRead_keeps o
  | gather o j => exact c.doGather_keeps o j
  | indexRead o => exact c.doIndexRead_keeps o
  | indexCheck o => exact c.doIndexCheck_keeps o
  | write bs landing o =>
    unfold CoreState.fire
    dsimp only
    split
    · exact (c.writeBytes_keeps bs o).trans (CoreState.foldWrites_keeps _ _ _)
    · split
      · exact (c.writeBytes_keeps bs o).trans (CoreState.foldWrites_keeps _ _ _)
      · exact c.writeBytes_keeps bs o
  | tileRead o => exact c.doTileRead_keeps o
  | passLoad i => exact c.doPassLoad_keeps i
  | passStream i => exact c.doPassStream_keeps i
  | column op k => exact c.doColumn_keeps op k
  | contribution k => exact c.doContribution_keeps k
  | merge b => exact c.doMerge_keeps env b
  | anchor g narrow a => exact .record rfl
  | accRead vd row entry shift mode narrow draw o => exact c.doAccRead_keeps vd row entry shift mode narrow draw o
  | accProbe g sd clear o => exact c.doAccProbe_keeps g sd clear o
  | lineRead line out o => exact c.doLineRead_keeps line out o
  | partialRead row entry count narrow out block => exact c.doPartialRead_keeps row entry count narrow out block
  | sourceRead l => exact c.doSourceRead_keeps l
  | postedLand ring port e drained => exact c.doPostedLand_keeps ring e drained
  | ringMove ring take rot o => exact c.doRingMove_keeps ring take rot
  | takeMail o => exact .record rfl
  | fillStore o => exact c.doFillStore_keeps o
  | scrubWrite => exact c.doScrubWrite_keeps
  | tally t d => exact .refl c

end Events

/-! ### A field cycle -/

section Cycle

variable (env : Env) (c : CoreState)

theorem CoreState.fireRank_keeps (rank : Nat) : Keeps c (c.fireRank env rank) := by
  unfold CoreState.fireRank
  exact Keeps.trans (c.setEvents_keeps _) (Keeps.foldl _ (fun (d : CoreState) (e : Timed) => d.fire_keeps env e.ev) _ _)

theorem CoreState.applyTally_keeps (t : BitVec 6) (net : Int) : Keeps c (c.applyTally t net) := by
  unfold CoreState.applyTally
  dsimp only
  split <;> exact .record rfl

theorem CoreState.applyTallies_keeps : Keeps c c.applyTallies := by
  unfold CoreState.applyTallies
  refine Keeps.trans (c.setEvents_keeps _) (Keeps.foldl _ (fun d i => ?_) _ _)
  dsimp only
  split
  · exact d.applyTally_keeps _ _
  · exact .refl d

theorem CoreState.arrange_keeps : Keeps c (((c.noteLate.arrangePosted env).arrangeFill env).arrangeScrub env) := by
  have hlate : Keeps c c.noteLate := by
    unfold CoreState.noteLate
    dsimp only
    split <;> exact .record rfl
  refine hlate.trans (Keeps.trans (d := (c.noteLate.arrangePosted env).arrangeFill env) (.record rfl) ?_)
  unfold CoreState.arrangeScrub
  split <;> exact .record rfl

theorem CoreState.sendOne_keeps : Keeps c (c.sendOne env) := by
  unfold CoreState.sendOne
  split
  · split
    · exact .record rfl
    · exact .refl c
  · exact .refl c

theorem CoreState.countCycle_keeps : Keeps c (c.countCycle env) := .record rfl

/-- The work of a fc, before the next fc begins. -/
def CoreState.fcWork : CoreState :=
  ((((List.range 20).foldl (fun c r => c.fireRank env r) (((c.noteLate.arrangePosted env).arrangeFill env).arrangeScrub env)).foldAll.applyTallies).sendOne env).countCycle env

theorem CoreState.fcWork_keeps : Keeps c (c.fcWork env) := by
  unfold CoreState.fcWork
  have hfire := (c.arrange_keeps env).trans (Keeps.foldl _ (fun d r => d.fireRank_keeps env r) (List.range 20) _)
  exact (((hfire.trans (CoreState.foldAll_keeps _)).trans (CoreState.applyTallies_keeps _)).trans (CoreState.sendOne_keeps env _)).trans (CoreState.countCycle_keeps env _)

theorem CoreState.tick_eq_fcWork :
    c.tick env = { c.fcWork env with
      step.offset := (c.fcWork env).step.offset + 1
      step.regClaims := (c.fcWork env).step.regClaims.filter (fun r => (c.fcWork env).step.offset < r.fc)
      step.ports := (c.fcWork env).step.ports.filter (fun p => (c.fcWork env).step.offset < p.fc) } := rfl

@[simp] theorem CoreState.tick_offset : (c.tick env).step.offset = c.step.offset + 1 := by
  rw [CoreState.tick_eq_fcWork, (c.fcWork_keeps env).offset]

theorem CoreState.tick_keeps : Keeps { c with step.offset := c.step.offset + 1 } (c.tick env) := by
  have hwork := c.fcWork_keeps env
  rw [CoreState.tick_eq_fcWork]
  generalize c.fcWork env = d at hwork ⊢
  obtain ⟨hi, ht, ho, hc, hp, hv, hm, hf, hn, hw⟩ := hwork
  exact ⟨hi, ht, ho, hc, hp, hv, hm, congrArg (· + 1) hf, hn, hw⟩

end Cycle

/-! ### The passage of time -/

/-- A core may be set to another fc before or after work that does not look at the fc. -/
theorem Keeps.atOffset {c d : CoreState} {n : Nat} (h : Keeps { c with step.offset := n } d) (m : Nat) : Keeps { c with step.offset := m } { d with step.offset := m } :=
  ⟨h.imageMem, h.tables, h.owner, h.clearing, h.checkPending, h.viewTallies, h.viewMail, rfl, h.chanFired, h.mem⟩

theorem CoreState.run_keeps (env : Env) (n : Nat) (c : CoreState) : Keeps { c with step.offset := c.step.offset + n } (c.run env n) := by
  induction n generalizing c with
  | zero => exact .record rfl
  | succ n ih =>
    have hrun := ih (c.tick env)
    rw [CoreState.tick_offset, Nat.add_assoc, Nat.add_comm 1 n] at hrun
    exact ((c.tick_keeps env).atOffset _).trans hrun

theorem CoreState.runTo_keeps (env : Env) (f : Nat) (c : CoreState) : Keeps { c with step.offset := max c.step.offset f } (c.runTo env f) := by
  have hrun := c.run_keeps env (f - c.step.offset)
  rwa [show c.step.offset + (f - c.step.offset) = max c.step.offset f by omega] at hrun

theorem CoreState.runTo_owner (env : Env) (f : Nat) (c : CoreState) : (c.runTo env f).owner = c.owner := (c.runTo_keeps env f).owner

theorem CoreState.runTo_chanFired (env : Env) (f : Nat) (c : CoreState) : (c.runTo env f).traffic.chanFired = c.traffic.chanFired := (c.runTo_keeps env f).chanFired

/-! ### Opening a bundle -/

theorem CoreState.setStreamState_keeps (c : CoreState) (fill : Bool) (v : StreamState) : Keeps c (c.setStreamState fill v) := by
  cases fill <;> exact .record rfl

theorem CoreState.countFill_keeps (c : CoreState) (n : BitVec 24) : Keeps c { c with work.issue.fill := n } := .record rfl

theorem CoreState.endDoze_keeps (c : CoreState) : Keeps c { c with totals.doze := false } := .record rfl

theorem foldl_issueFault_keeps (code : Code) (f : Nat × Word → Origin) (ks : List (Nat × Word)) (c : CoreState) :
    Keeps c (ks.foldl (fun (c : CoreState) k => c.issueFault code (f k)) c) :=
  .foldl _ (fun d _ => d.fault_keeps _ _ _ _ _) ks c

theorem CoreState.issueBundle_keeps (c : CoreState) (fill : Bool) (h : BundleHead) : Keeps c (c.issueBundle fill h) := by
  unfold CoreState.issueBundle
  dsimp only
  split <;> cases fill
  · exact (c.endDoze_keeps.trans (CoreState.setStreamState_keeps _ _ _)).trans (CoreState.fault_keeps _ _ _ _ _ _)
  · exact (CoreState.setStreamState_keeps _ _ _).trans (CoreState.fault_keeps _ _ _ _ _ _)
  · exact (c.endDoze_keeps.trans (CoreState.setStreamState_keeps _ _ _)).trans (foldl_issueFault_keeps _ _ _ _)
  · exact ((CoreState.setStreamState_keeps c _ _).trans (foldl_issueFault_keeps _ _ _ _)).trans (CoreState.countFill_keeps _ _)

theorem CoreState.presented_keeps (c : CoreState) (env : Env) (i : Issue) :
    Keeps { c with step.offset := (c.presented env i).step.offset } (c.presented env i) := by
  have hopen (h : BundleHead) (ready : CoreState → Bool) : Keeps (c.runTo env (c.step.offset + h.dt)) (c.openBundle env i.fill h ready) := by
    unfold CoreState.openBundle
    dsimp only
    split
    · exact CoreState.setStreamState_keeps _ _ _
    · exact CoreState.issueBundle_keeps _ _ _
  unfold CoreState.presented
  split
  · next h _ =>
    have hall := (c.runTo_keeps env (c.step.offset + h.dt)).trans (hopen h (fun c => c.waitMet h))
    exact hall.atOffset _
  · exact .record rfl

theorem opened_owner (s : State) (i : Issue) : (Claims.opened s i).owner = (s.core i.core).owner := (CoreState.presented_keeps _ _ _).owner

end Sys2Proof.Machine
end

section
/-! Messages, barriers and the commons (R256 to R262, R271 to R278): sync operations that act outside their core where their bundle issues. -/

namespace Sys2Proof.Machine

open Claims (Usable Unclaimed schedule opened originOf became syncBits syncRow Issues)

theorem claimed_viewMail (c : CoreState) (o : Origin) (u : RegClass × Nat) (fc : Nat) : (Claims.claimed c o u fc).viewMail = c.viewMail := by
  unfold Claims.claimed
  split <;> rfl

/-! ### Operations that also act outside the core -/

theorem became_plot (s : State) (cid : CoreId) (c : CoreState) (fn : Fn) : (became s cid c).plot fn = s.plot fn := by
  obtain ⟨m, ch, h⟩ := (s.setCore cid c).drainOutbox_frame cid
  rw [became, h]
  rfl

theorem became_commons (s : State) (cid : CoreId) (c : CoreState) : (became s cid c).commons = s.commons := by
  obtain ⟨m, ch, h⟩ := (s.setCore cid c).drainOutbox_frame cid
  rw [became, h]
  rfl

theorem became_core (s : State) (cid : CoreId) (c : CoreState) : (became s cid c).core cid = { c with traffic.outbox := [], traffic.unitsOut := [] } :=
  s.onCore_core cid (fun _ _ => c)

/-- The owner of the core, once its bundle is opened and what it sent has left. -/
theorem became_opened_owner (s : State) (i : Issue) : ((became s i.core (opened s i)).core i.core).owner = (s.core i.core).owner := by
  rw [became_core]
  exact opened_owner s i

/-- Where the bundle issues, opening it for an operation that acts outside the core leaves that operation to act. -/
theorem openSync_issues {s : State} {i : Issue} {op : SyncOp} (hissue : Issues s i) (hrange : inRangeSync op = true) :
    openSync s i (syncOpcode op) ((encodeSync op).setWidth 27) = (became s i.core (opened s i), some (originOf s i 6 (syncBits op), op)) := by
  obtain ⟨hcore, hrun, hlive⟩ := hissue
  have hopen : s.onCore i.core (fun env c => c.inBundle env i 6 ((encodeSync op).setWidth 64) (fun o c => if (decodeSync (encodeSync op)).isSome then c else c.issueFault 0x2007 o)) =
      became s i.core (opened s i) := by
    rw [State.onCore, CoreState.inBundle_live _ _ _ hlive, decodeSync_encodeSync hrange]
    rfl
  unfold openSync syncWord
  rw [syncOpcode_append]
  dsimp only
  rw [hopen, became_bundleLive, decodeSync_encodeSync hrange, became_stream]
  exact if_pos hlive

theorem outerCommand_issues {s : State} {i : Issue} {op : SyncOp} (act : State → SyncOp → Origin → State) (hissue : Issues s i) (hrange : inRangeSync op = true) :
    outerCommand s i (syncOpcode op) ((encodeSync op).setWidth 27) act = .next (act (became s i.core (opened s i)) op (originOf s i 6 (syncBits op))) := by
  unfold outerCommand
  rw [openSync_issues hissue hrange, hissue.1, hissue.2.1]
  rfl

/-- A commons request that the plot may make of an object with an owner, below the step's limit, joins the plot's requests. -/
theorem State.commonsRequest_allowed {s : State} {cid : CoreId} {object : BitVec 16} {r : CommonsReq} (o : Origin) (h : (s.plot ((s.core cid).owner.getD 0)).commons.requests.length < 256) :
    s.commonsRequest cid o true false object r =
      s.setPlot ((s.core cid).owner.getD 0) { s.plot ((s.core cid).owner.getD 0) with commons.requests := (s.plot ((s.core cid).owner.getD 0)).commons.requests ++ [r] } :=
  if_neg (Nat.not_le.2 h)

/-- An arrival at a barrier group by a member with no open round (R258, R260). -/
theorem exec_bar_arrives {s : State} {i : Issue} {group : BitVec 6} (hissue : Issues s i) :
    let c := opened s i
    let u := became s i.core c
    let fn := (s.core i.core).owner.getD 0
    let p := s.plot fn
    let g := group.toNat
    let n := AMap.get 0 c.work.rounds g
    let round := AMap.get {} p.rounds (c.roundKey g)
    let before := AMap.get {} p.rounds (64 * (n - 1) + g)
    p.isMember g c.featY.toNat c.featX.toNat = true → (n ≠ 0 → (∀ a ∈ before.arrivals, a.1 ≠ i.core.toNat) ∨ before.landed.getLsbD (fieldOfCore i.core).toNat = true) →
    exec (syncRow i (.bar group)) s =
      .next ((u.setPlot fn { p with rounds := AMap.set p.rounds (c.roundKey g) { round with arrivals := round.arrivals ++ [(i.core.toNat, c.step.offset)] } }).modCore i.core
        (fun k => { k with work.rounds := AMap.put 0 k.work.rounds g (n + 1) })) := by
  intro c u fn p g n round before hmember hopen
  refine (show execBar i _ s = _ from outerCommand_issues (op := .bar group) _ hissue rfl).trans (congrArg Host.Outcome.next ?_)
  have hfn : (u.core i.core).owner.getD 0 = fn := by rw [became_opened_owner]
  have hplot : u.plot fn = p := became_plot s i.core c fn
  have hcore : u.core i.core = { c with traffic.outbox := [], traffic.unitsOut := [] } := became_core s i.core c
  have hround : (n != 0 && before.arrivals.any (fun a => a.1 == i.core.toNat) && !before.landed.getLsbD (fieldOfCore i.core).toNat) = false := by
    by_cases hn : n = 0
    · simp [hn]
    · rcases hopen hn with hnone | hlanded
      · have hany : before.arrivals.any (fun a => a.1 == i.core.toNat) = false := by simpa using hnone
        rw [hany, Bool.and_false, Bool.false_and]
      · rw [hlanded, Bool.not_true, Bool.and_false]
  refine (if_neg ?_).trans ?_
  · rw [hfn, hplot, hcore]
    change ¬ (!p.isMember g c.featY.toNat c.featX.toNat || (n != 0 && before.arrivals.any (fun a => a.1 == i.core.toNat) && !before.landed.getLsbD (fieldOfCore i.core).toNat)) = true
    rw [hmember, hround]
    decide
  · rw [hfn, hplot, hcore]
    rfl

end Sys2Proof.Machine

namespace Sys2Proof.Claims

open Sys2Proof.Machine

/-- Settles O26: each operation passes its checks and makes its request. -/
theorem messageAndCommonsOperations : Obligations.MessageAndCommonsOperations := by
  unfold Obligations.MessageAndCommonsOperations
  intro s i c u env f fn p hissue
  have hfn : (u.core i.core).owner.getD 0 = fn := by rw [became_opened_owner]
  have hplot : u.plot fn = p := became_plot s i.core c fn
  have hcommons : u.commons = s.commons := became_commons s i.core c
  refine ⟨?post, ?amsg, fun group => exec_bar_arrives hissue, fun hroom => ⟨?cadd, ?cput⟩, ?cwait, ?ctake⟩
  case post =>
    intro src sb count vec d op regs h ws hrange hfree huse hzero hdest
    refine (show execPost i _ s = _ from (waitCommand_issues _ hissue hrange hfree).trans (answer_congr ?_))
    refine (CoreState.withRegs_usable (o := originOf s i 6 (syncBits op)) (writes := []) _ ?_).trans ?_
    · rw [List.append_nil]
      simp only [beq_iff_eq]
      exact huse
    · have hnone : (if fieldOf h 48 16 != 0 then none else env.dest.resolve (h.extractLsb' 0 32)) = some d := by
        rw [if_neg (by simp [fieldOf, hzero, -BitVec.extractLsb'_toNat]), hdest]
      change (match (if fieldOf h 48 16 != 0 then none else env.dest.resolve (h.extractLsb' 0 32)) with | none => _ | some d => _) = _
      rw [hnone]
  case amsg =>
    intro sa sb handler count d op ws hrange hon hfree huse hdest
    refine (show execAmsg i _ s = _ from (waitCommand_issues _ hissue hrange hfree).trans (answer_congr ?_))
    refine (CoreState.withRegs_usable (o := originOf s i 6 (syncBits op)) (writes := []) _ (by rw [List.append_nil]; exact huse)).trans ?_
    have hresolve : env.dest.resolve ((c.readS sa).extractLsb' 0 32) = some d := hdest
    simp only [env, c] at hresolve
    rw [hresolve]
    exact if_neg (ne_true_of_eq_false (congrArg (!·) hon))
  case cadd =>
    intro k amount hamount hmay horphan
    refine (show execCadd i _ s = _ from outerCommand_issues (op := .cadd k amount) _ hissue (bne_iff_ne.2 hamount)).trans (congrArg Host.Outcome.next ?_)
    have hmayU : (u.plot ((u.core i.core).owner.getD 0)).mayTally k.toNat = true := by rw [hfn, hplot, hmay]
    have horphanU : u.commons.tallyOrphan k.toNat = false := by rw [hcommons, horphan]
    change u.commonsRequest i.core _ ((u.plot ((u.core i.core).owner.getD 0)).mayTally k.toNat) (u.commons.tallyOrphan k.toNat) _ _ = _
    rw [hmayU, horphanU, State.commonsRequest_allowed _ (by rw [hfn, hplot]; exact hroom), hfn, hplot]
  case cput =>
    intro m sa huse hmay horphan
    refine (show execCput i _ s = _ from outerCommand_issues (op := .cput m sa) _ hissue rfl).trans (congrArg Host.Outcome.next ?_)
    have hcore : u.core i.core = { c with traffic.outbox := [], traffic.unitsOut := [] } := became_core s i.core c
    have huseU : (!(u.core i.core).mayUse false (.s, sa.toNat)) = false := by rw [hcore]; exact congrArg (!·) huse
    have hmayU : (u.plot fn).mayPut fn m = true := by rw [hplot, hmay]
    have horphanU : u.commons.mailOrphan m = false := by rw [hcommons, horphan]
    have hreadU : (u.core i.core).readS sa = c.readS sa := by rw [hcore]; rfl
    refine (if_neg (ne_true_of_eq_false huseU)).trans ?_
    change u.commonsRequest i.core _ ((u.plot ((u.core i.core).owner.getD 0)).mayPut ((u.core i.core).owner.getD 0) m) (u.commons.mailOrphan m) _
      { core := i.core, put := true, target := m.setWidth 12, value := (u.core i.core).readS sa, accepted := false } = _
    rw [hreadU, hfn, hmayU, horphanU, State.commonsRequest_allowed _ (by rw [hfn, hplot]; exact hroom), hfn, hplot]
  case cwait =>
    intro k sa huse hmay horphan hmet
    refine (show execCwait i _ s = _ from (waitCommand_issues _ hissue (op := .cwait k sa) rfl (CoreState.syncReady_cwait.2 hmet)).trans (answer_congr ?_))
    refine (CoreState.withRegs_usable (o := originOf s i 6 _) (reads := [(.s, sa.toNat)]) (writes := []) _ huse).trans ?_
    exact (if_neg (ne_true_of_eq_false (congrArg (!·) hmay))).trans (if_neg (ne_true_of_eq_false horphan))
  case ctake =>
    intro sd w huse hfree horphan hmail
    refine (show execCtake i _ s = _ from (waitCommand_issues _ hissue (op := .ctake sd) rfl (CoreState.syncReady_ctake.2 (by rw [hmail]; exact Option.some_ne_none w))).trans (answer_congr ?_))
    refine (if_neg (ne_true_of_eq_false horphan)).trans ?_
    refine (CoreState.withRegs_usable (o := originOf s i 6 _) (reads := []) (writes := [(.s, sd.toNat)]) _ huse).trans ?_
    refine (CoreState.withClaims_unclaimed _ _ hfree).trans ?_
    have hview : (claimed (opened s i) (originOf s i 6 (syncBits (.ctake sd))) (.s, sd.toNat) (f + 1)).viewMail = some w := (claimed_viewMail _ _ _ _).trans hmail
    simp only [c, f] at hview ⊢
    rw [hview]
    rfl

end Sys2Proof.Claims
end

section
/-! Conversions between vector registers and formats (R96, R100, R101, R167, R175): what VUNPK and VPACK draw, count and schedule. -/

namespace Sys2Proof.Machine

open Claims (schedule Usable Unclaimed opened originOf became vectorBits vectorRow Issues)

/-! ### Counting and drawing beside work in flight -/

section Step

variable (c : CoreState) (st : CoreStep)

theorem CoreState.countEvent_setStep (e : Event) : ({ c with step := st } : CoreState).countEvent e = { c.countEvent e with step := st } := by
  cases e <;> rfl

/-- Events are counted whatever is in flight. -/
theorem CoreState.countEvents_setStep (es : List Event) : ({ c with step := st } : CoreState).countEvents es = { c.countEvents es with step := st } := by
  unfold CoreState.countEvents
  induction es generalizing c with
  | nil => rfl
  | cons e es ih =>
    rw [List.foldl_cons, CoreState.countEvent_setStep]
    exact ih _

/-- Lanes draw alike whatever is in flight. -/
theorem CoreState.drawLanes_setStep (env : Env) (mode : BitVec 2) (stream : Nat) :
    ({ c with step := st } : CoreState).drawLanes env mode stream = ((c.drawLanes env mode stream).1, { (c.drawLanes env mode stream).2 with step := st }) := by
  unfold CoreState.drawLanes
  by_cases hmode : (mode != 3) = true
  · rw [if_pos hmode, if_pos hmode]
  · rw [if_neg hmode, if_neg hmode]
    rfl

theorem CoreState.drawLanes_step (env : Env) (mode : BitVec 2) (stream : Nat) : (c.drawLanes env mode stream).2.step = c.step := by
  unfold CoreState.drawLanes
  split <;> rfl

theorem CoreState.countEvents_step (es : List Event) : (c.countEvents es).step = c.step := by
  have h : ({ c with step := c.step } : CoreState).countEvents es = _ := c.countEvents_setStep c.step es
  exact (congrArg CoreState.step h).trans rfl

end Step

/-- What a core holds in flight once it has claimed a register write. -/
def claimedStep (st : CoreStep) (o : Origin) (u : RegClass × Nat) (fc : Nat) : CoreStep :=
  if hardZero u.1 u.2 then st else { st with regClaims := st.regClaims ++ [{ cls := u.1, reg := u.2, fc := fc, fill := o.fill, slot := o.slot, issued := st.offset }] }

theorem claimed_eq_setStep (c : CoreState) (o : Origin) (u : RegClass × Nat) (fc : Nat) : Claims.claimed c o u fc = { c with step := claimedStep c.step o u fc } := by
  unfold Claims.claimed claimedStep
  split <;> rfl

/-- A claim and what an operation draws and counts come in either order. -/
theorem claimed_drawn_counted (c : CoreState) (env : Env) (mode : BitVec 2) (stream : Nat) (es : List Event) (o : Origin) (u : RegClass × Nat) (fc : Nat) :
    ((Claims.claimed c o u fc).drawLanes env mode stream).2.countEvents es = Claims.claimed ((c.drawLanes env mode stream).2.countEvents es) o u fc := by
  rw [claimed_eq_setStep, claimed_eq_setStep, CoreState.drawLanes_setStep, CoreState.countEvents_setStep, CoreState.countEvents_step, CoreState.drawLanes_step]

@[simp] theorem claimed_laneExponent (c : CoreState) (o : Origin) (u : RegClass × Nat) (fc : Nat) (k : BitVec 10) (kreg : Bool) :
    (Claims.claimed c o u fc).laneExponent k kreg = c.laneExponent k kreg := by
  unfold CoreState.laneExponent
  rw [claimed_readS]

/-! ### VUNPK (R175) -/

/-- Each lane of VUNPK, the conversion of its element and whether it comes bruised. -/
def unpackedLane (c : CoreState) (a b : BitVec 5) (fmt : BitVec 4) (part : Nat) (k : BitVec 10) (kreg : Bool) (mode : BitVec 2) (draws : List Nat) (l : Nat) :=
  unpackLane (c.readV a) (c.readV b) fmt part (c.laneExponent k kreg) mode (listGet 0 draws l) l

/-- The register that holds the lanes of VUNPK. -/
def unpackedReg (c : CoreState) (a b : BitVec 5) (fmt : BitVec 4) (part : Nat) (k : BitVec 10) (kreg : Bool) (mode : BitVec 2) (draws : List Nat) : VReg :=
  let ls := (List.range 32).map (unpackedLane c a b fmt part k kreg mode draws)
  VReg.ofLanes (fun l => (listGet ({ val := 0, event := .none }, false) ls l).1.val) (fun l => (listGet ({ val := 0, event := .none }, false) ls l).2)

theorem unpackedReg_lane (c : CoreState) (a b : BitVec 5) (fmt : BitVec 4) (part : Nat) (k : BitVec 10) (kreg : Bool) (mode : BitVec 2) (draws : List Nat) {l : Nat} (hl : l < 32) :
    (unpackedReg c a b fmt part k kreg mode draws).lane l = (unpackedLane c a b fmt part k kreg mode draws l).1.val ∧
      (unpackedReg c a b fmt part k kreg mode draws).bruise.getLsbD l = (unpackedLane c a b fmt part k kreg mode draws l).2 := by
  unfold unpackedReg
  rw [VReg.ofLanes_lane _ _ hl, VReg.ofLanes_bruise _ _ hl, listGet_map_range _ _ hl]
  exact ⟨rfl, rfl⟩

/-- Where VUNPK's destination is free, its register is scheduled and its events are counted. -/
theorem exec_vunpk_schedules {s : State} {i : Issue} {d a b : BitVec 5} {fmt : BitVec 4} {part : BitVec 3} {k : BitVec 10} {kreg : BitVec 1} {mode : BitVec 2} (hissue : Issues s i) :
    let c := opened s i
    let op : VectorOp := .vunpk d a b fmt part k kreg mode
    let dr := c.drawLanes (s.env i.core) mode (vectorStream i.fill)
    inRangeVector op = true → fmtWidth fmt ≠ 0 →
    Usable c i.fill ([vUse a] ++ (if fmtIsMx fmt || fmt == 11 then [vUse b] else []) ++ exponentUse k (kreg == 1) ++ [vUse d]) → Unclaimed c (vUse d) (c.step.offset + 3) →
    exec (vectorRow i op) s =
      .next (became s i.core
        (schedule (dr.2.countEvents ((List.range 32).map (fun l => (unpackedLane c a b fmt part.toNat k (kreg == 1) mode dr.1 l).1.event))) (originOf s i 2 (vectorBits op)) (c.step.offset + 3)
          (.v d (unpackedReg c a b fmt part.toNat k (kreg == 1) mode dr.1)))) := by
  intro c op dr hrange hfmt huse hfree
  refine (show execVunpk i _ s = _ from (vectorCommand_issues hissue _ hrange).trans (answer_congr ?_))
  refine (CoreState.withRegs_usable (o := originOf s i 2 (vectorBits op)) (reads := _) (writes := [vUse d]) _ huse).trans ?_
  refine (if_neg hfmt).trans ?_
  refine (CoreState.withClaims_unclaimed _ _ hfree).trans ?_
  simp only [claimed_drawn_counted, claimed_readV, claimed_laneExponent, claimed_offset]
  simp only [claimed_drawLanes, schedule, unpackedReg, unpackedLane, List.map_map]
  rfl

/-! ### VPACK (R96, R167, R175) -/

/-- A claim for a register beside another meets no other write, where each meets none. -/
theorem unclaimed_claimed {c : CoreState} {o : Origin} {u w : RegClass × Nat} {fc : Nat} (hne : u.2 ≠ w.2) (h : Unclaimed c w fc) : Unclaimed (c.claim u.1 u.2 fc o) w fc := by
  have hc : c.clashes w.1 w.2 fc false = false := h
  unfold Unclaimed CoreState.clashes at *
  simp only [CoreState.claim, List.any_append, hc, List.any_cons, List.any_nil, Bool.or_false, Bool.false_or]
  simp [hne]

/-- An operation whose two vector writes meet no other claims both registers and acts. -/
theorem CoreState.withClaims_two {c : CoreState} {d b : BitVec 5} {fc : Nat} (o : Origin) (act : CoreState → CoreState) (hne : d ≠ b) (hd : Unclaimed c (vUse d) fc) (hb : Unclaimed c (vUse b) fc) :
    c.withClaims o [vUse d, vUse b] fc act = act ((c.claim .v d.toNat fc o).claim .v b.toNat fc o) := by
  have hkept : [vUse d, vUse b].filter (fun w => !hardZero w.1 w.2) = [vUse d, vUse b] := by simp [vUse, hardZero]
  have hnone : [vUse d, vUse b].find? (fun w => c.clashes w.1 w.2 fc false && (c.laterClaim o w.1 w.2 fc).isNone) = none := by
    refine List.find?_eq_none.2 fun w hw => ?_
    have hclash : c.clashes w.1 w.2 fc false = false := by
      rcases List.mem_pair.1 hw with rfl | rfl
      · exact hd
      · exact hb
    simp [hclash]
  have hsecond : (c.claim .v d.toNat fc o).giveWay o (vUse b) fc = c.claim .v d.toNat fc o :=
    CoreState.giveWay_unclaimed o (unclaimed_claimed (u := vUse d) (fun h => hne (BitVec.eq_of_toNat_eq h)) hb)
  unfold CoreState.withClaims
  simp only [hkept, hnone, ite_self, List.foldl_cons, List.foldl_nil, CoreState.giveWay_unclaimed o hd]
  change act (((c.claim .v d.toNat fc o).giveWay o (vUse b) fc).claim .v b.toNat fc o) = _
  rw [hsecond]

/-- The claims of VPACK: its part's register, and for MX formats the scale lane's. -/
def packClaims (c : CoreState) (d b : BitVec 5) (mx : Bool) (fc : Nat) (o : Origin) : CoreStep :=
  if mx then ((c.claim .v d.toNat fc o).claim .v b.toNat fc o).step else (c.claim .v d.toNat fc o).step

theorem packClaims_offset (c : CoreState) (d b : BitVec 5) (mx : Bool) (fc : Nat) (o : Origin) : (packClaims c d b mx fc o).offset = c.step.offset := by
  cases mx <;> rfl

theorem packClaims_events (c : CoreState) (d b : BitVec 5) (mx : Bool) (fc : Nat) (o : Origin) : (packClaims c d b mx fc o).events = c.step.events := by
  cases mx <;> rfl

/-- Where VPACK's registers are free, it claims them and acts. -/
theorem CoreState.withClaims_pack {c : CoreState} {d b : BitVec 5} {mx : Bool} {fc : Nat} (o : Origin) (act : CoreState → CoreState) (hne : mx = true → d ≠ b)
    (hfree : ∀ w ∈ [vUse d] ++ (if mx then [vUse b] else []), Unclaimed c w fc) :
    c.withClaims o ([vUse d] ++ (if mx then [vUse b] else [])) fc act = act { c with step := packClaims c d b mx fc o } := by
  cases mx with
  | false =>
    refine (CoreState.withClaims_unclaimed o act (hfree (vUse d) (by simp))).trans (congrArg act ?_)
    exact if_neg (by simp [vUse, hardZero])
  | true => exact CoreState.withClaims_two o act (hne rfl) (hfree (vUse d) (by simp)) (hfree (vUse b) (by simp))

/-- What VPACK draws, counts and schedules, its registers claimed. -/
def packedCore (c : CoreState) (env : Env) (d a b : BitVec 5) (fmt : BitVec 4) (part : BitVec 3) (k : BitVec 10) (kreg : Bool) (mode : BitVec 2) (rule : BitVec 1) (o : Origin) : CoreState :=
  let dr := c.drawLanes env mode (vectorStream o.fill)
  let e := c.laneExponent k kreg
  let av := c.readV a
  let x := if fmtIsMx fmt then packExponent fmt rule e ((List.range 32).map (fun l => (l, (av.lane l).toInt, av.bruise.getLsbD l))) mode dr.1 else 0
  let els := packElements av (c.readV b) fmt e x mode env.nan dr.1
  let c2 := (dr.2.countEvents (els.map (·.2.2))).result (c.step.offset + 3) (.vpart d (packImage fmt part.toNat els) (part.toNat * partBytes fmt) (partBytes fmt)) o
  if fmtIsMx fmt then c2.result (c.step.offset + 3) (.vlane b part.toNat (BitVec.ofInt 32 (x + 127))) o else c2

/-- What is in flight has no part in what VPACK draws, converts and counts. -/
theorem packedCore_setStep (c : CoreState) (st : CoreStep) (env : Env) (d a b : BitVec 5) (fmt : BitVec 4) (part : BitVec 3) (k : BitVec 10) (kreg : Bool) (mode : BitVec 2) (rule : BitVec 1) (o : Origin) :
    packedCore { c with step := st } env d a b fmt part k kreg mode rule o =
      (let dr := c.drawLanes env mode (vectorStream o.fill)
       let e := c.laneExponent k kreg
       let av := c.readV a
       let x := if fmtIsMx fmt then packExponent fmt rule e ((List.range 32).map (fun l => (l, (av.lane l).toInt, av.bruise.getLsbD l))) mode dr.1 else 0
       let els := packElements av (c.readV b) fmt e x mode env.nan dr.1
       let c2 := ({ dr.2.countEvents (els.map (·.2.2)) with step := st } : CoreState).result (st.offset + 3) (.vpart d (packImage fmt part.toNat els) (part.toNat * partBytes fmt) (partBytes fmt)) o
       if fmtIsMx fmt then c2.result (st.offset + 3) (.vlane b part.toNat (BitVec.ofInt 32 (x + 127))) o else c2) := by
  unfold packedCore
  rw [CoreState.drawLanes_setStep]
  dsimp only
  rw [CoreState.countEvents_setStep]
  rfl

/-- Where VPACK's registers are free, it claims them, draws, counts and schedules. -/
theorem exec_vpack_schedules {s : State} {i : Issue} {d a b : BitVec 5} {fmt : BitVec 4} {part : BitVec 3} {k : BitVec 10} {kreg : BitVec 1} {mode : BitVec 2} {rule : BitVec 1} (hissue : Issues s i) :
    let c := opened s i
    let op : VectorOp := .vpack d a b fmt part k kreg mode rule
    let o := originOf s i 2 (vectorBits op)
    let dests := [vUse d] ++ (if fmtIsMx fmt then [vUse b] else [])
    inRangeVector op = true → fmtWidth fmt ≠ 0 → (fmtIsMx fmt = true → d ≠ b) →
    Usable c i.fill ([vUse a] ++ (if fmt == 11 then [vUse b] else []) ++ exponentUse k (kreg == 1) ++ dests) → (∀ w ∈ dests, Unclaimed c w (c.step.offset + 3)) →
    exec (vectorRow i op) s =
      .next (became s i.core (packedCore { c with step := packClaims c d b (fmtIsMx fmt) (c.step.offset + 3) o } (s.env i.core) d a b fmt part k (kreg == 1) mode rule o)) := by
  intro c op o dests hrange hfmt hne huse hfree
  refine (show execVpack i _ s = _ from (vectorCommand_issues hissue _ hrange).trans (answer_congr ?_))
  refine (CoreState.withRegs_usable (o := o) (reads := _) (writes := dests) _ huse).trans ?_
  refine (if_neg hfmt).trans ((if_neg ?_).trans (CoreState.withClaims_pack o _ hne hfree))
  cases hmx : fmtIsMx fmt with
  | false => simp
  | true => simpa using hne hmx

theorem CoreState.countEvents_eq (c : CoreState) (es : List Event) : ∃ (n : ArithStat) (t : CoreTotals), c.countEvents es = { c with work.arith := n, totals := t } := by
  unfold CoreState.countEvents
  induction es generalizing c with
  | nil => exact ⟨_, _, rfl⟩
  | cons e es ih =>
    obtain ⟨n, t, h⟩ := ih (c.countEvent e)
    have he : ∃ (n : ArithStat) (t : CoreTotals), c.countEvent e = { c with work.arith := n, totals := t } := by cases e <;> exact ⟨_, _, rfl⟩
    obtain ⟨m, u, he⟩ := he
    exact ⟨n, t, by rw [List.foldl_cons, h, he]⟩

theorem CoreState.drawLanes_eq (c : CoreState) (env : Env) (mode : BitVec 2) (stream : Nat) : ∃ ds : AMap (BitVec 27), (c.drawLanes env mode stream).2 = { c with work.dseq := ds } := by
  unfold CoreState.drawLanes
  split
  · exact ⟨_, rfl⟩
  · exact ⟨_, rfl⟩

end Sys2Proof.Machine

namespace Sys2Proof.Claims

open Sys2Proof.Machine

/-- Settles O15: VUNPK schedules its register, VPACK its part and, for MX formats, its scale lane. -/
theorem conversionsScheduleTheirResults : Obligations.ConversionsScheduleTheirResults := by
  unfold Obligations.ConversionsScheduleTheirResults
  intro s i c f hissue
  constructor
  · intro d a b fmt part k kreg mode op uses dr lane counted hrange hfmt huse hfree
    exact ⟨_, exec_vunpk_schedules hissue hrange hfmt huse hfree, fun l hl => unpackedReg_lane _ _ _ _ _ _ _ _ _ hl⟩
  · intro d a b fmt part k kreg mode rule op o mx uses dests e av dr x els counted hrange hfmt hne huse hfree
    refine ⟨_, exec_vpack_schedules hissue hrange hfmt hne huse hfree, ?_⟩
    rw [packedCore_setStep]
    obtain ⟨ds, hds⟩ : ∃ ds, dr.2 = { c with work.dseq := ds } := c.drawLanes_eq (s.env i.core) mode (vectorStream i.fill)
    obtain ⟨n, tot, hcounted⟩ : ∃ n tot, counted = { dr.2 with work.arith := n, totals := tot } := dr.2.countEvents_eq _
    rw [hds] at hcounted
    change let k := ({ counted with step := packClaims c d b mx f o } : CoreState).result ((packClaims c d b mx f o).offset + 3) (.vpart d (packImage fmt part.toNat els) (part.toNat * partBytes fmt) (partBytes fmt)) o
      let t := if mx then k.result ((packClaims c d b mx f o).offset + 3) (.vlane b part.toNat (BitVec.ofInt 32 (x + 127))) o else k
      t.step.events = _ ∧ t.work.arith = _ ∧ t.totals = _ ∧ t.work.mem = _ ∧ t.work.v = _ ∧ t.work.s = _ ∧ t.work.a = _ ∧ t.work.m = _
    rw [packClaims_offset, hcounted]
    cases hmx : mx with
    | false =>
      refine ⟨?_, rfl, rfl, rfl, rfl, rfl, rfl, rfl⟩
      exact (congrArg (· ++ _) (packClaims_events c d b false f o)).trans (List.append_nil _).symm
    | true =>
      refine ⟨?_, rfl, rfl, rfl, rfl, rfl, rfl, rfl⟩
      exact congrArg (fun es => es ++ _ ++ _) (packClaims_events c d b true f o)

end Sys2Proof.Claims
end

section
/-! Loads, stores and table lookups (R176, R177, R240 to R244): what an access that passes its checks claims and schedules. -/

namespace Sys2Proof.Machine

open Claims (schedule Usable Unclaimed PortsFree withPorts opened originOf became vectorBits vectorRow loadBits loadRow storeBits storeRow Issues)

/-! ### Accesses that pass their checks (R244) -/

/-- An access that passes every check claims its register write and its ports and acts. -/
theorem CoreState.withAccess_passes {c : CoreState} {env : Env} {o : Origin} {a : AccessJudged} (writes : List (RegClass × Nat)) (fc : Nat) (act : Bool → CoreState → CoreState)
    (hmay : c.mayAccess a.handle o.fill a.write = true) (hfmt : a.fmtOk = true) (hplace : a.place = none) (hbytes : a.bytes = none) (hports : PortsFree c env o.fill a.ports) :
    c.withAccess env o a writes fc act = c.withClaims o writes fc (fun k => act (c.heldFirst env o a.ports) (withPorts k o.fill a.ports)) := by
  have hclash : (if o.fill then none else c.portClash env a.ports) = none := by
    cases hfill : o.fill with
    | true => rfl
    | false => exact hports hfill
  unfold CoreState.withAccess
  simp only [hmay, hfmt, hplace, hbytes, hclash, Option.toList_none, ite_self, List.append_nil]
  rfl

/-- An operation that writes no register claims none. -/
theorem CoreState.withClaims_nil (c : CoreState) (o : Origin) (fc : Nat) (act : CoreState → CoreState) : c.withClaims o [] fc act = act c := by
  unfold CoreState.withClaims
  cases o.fill <;> rfl

theorem CoreState.offBytes_offsFrom (c : CoreState) (h : BitVec 6) (b n : Nat) : c.offBytes h ((List.range n).map (fun k => b + k)) = c.rawBytes h.toNat b n := by
  unfold CoreState.offBytes CoreState.rawBytes
  rw [List.map_map]
  rfl

/-- A raw load that passes its checks schedules its read (R240, R241). -/
theorem CoreState.rawLoad_schedules {c : CoreState} {env : Env} {o : Origin} {vec : Bool} {d : BitVec 5} {h : BitVec 6} {ar : BitVec 4} {off : Int} {b : Nat} :
    let n := if vec then 128 else 8
    let dest : RegClass × Nat := (if vec then .v else .s, d.toNat)
    let pos := posOf (c.readA ar) off
    let offs := (List.range n).map (fun k => b + k)
    let ports : List PortClaim := [{ fc := c.step.offset + 1, reads := (linesOf (c.rawBytes h.toNat b n)).length, writes := 0 }]
    Usable c o.fill [(.a, ar.toNat), dest] → c.mayAccess h.toNat o.fill false = true → fmtWidth (c.descOf h.toNat).fmt ≠ 0 →
    c.rawOffset h.toNat (c.readA ar) off = .ok b → c.checkBytes h.toNat false pos offs = none → PortsFree c env o.fill ports → Unclaimed c dest (c.step.offset + 4) →
    c.rawLoad env o vec d h ar off =
      (withPorts (Claims.claimed c o dest (c.step.offset + 4)) o.fill ports).push (c.step.offset + 1)
        (.rawRead { vec := vec, reg := d, handle := h, pos := pos, offs := offs, held := c.heldFirst env o ports, origin := o }) := by
  intro n dest pos offs ports huse hmay hfmt hplace hbytes hports hfree
  have hrawPlace : c.rawPlace h (c.readA ar) off = (none, some b) := by simp only [CoreState.rawPlace, hplace]
  have hoffs : c.offBytes h offs = c.rawBytes h.toNat b n := c.offBytes_offsFrom h b n
  unfold CoreState.rawLoad
  refine (CoreState.withRegs_usable (reads := [(.a, ar.toNat)]) (writes := [dest]) _ huse).trans ?_
  rw [hrawPlace]
  change c.withAccess env o { handle := h.toNat, write := false, fmtOk := fmtWidth (c.descOf h.toNat).fmt != 0, place := none, bytes := c.checkBytes h.toNat false pos offs
                              ports := [{ fc := c.step.offset + 1, reads := (linesOf (c.offBytes h offs)).length, writes := 0 }], pos := pos } [dest] (c.step.offset + 4)
    (fun held k => k.push (c.step.offset + 1) (.rawRead { vec := vec, reg := d, handle := h, pos := pos, offs := offs, held := held, origin := o })) = _
  rw [hoffs]
  refine (CoreState.withAccess_passes _ _ _ hmay (bne_iff_ne.2 hfmt) rfl hbytes hports).trans ?_
  exact CoreState.withClaims_unclaimed _ _ hfree

/-- The index read of an indexed access that passes its checks (R240, R241, R243). -/
theorem CoreState.indexedAccess_reads {c : CoreState} {env : Env} {o : Origin} {load : Bool} {r : BitVec 5} {h : BitVec 6} {ar : BitVec 4} {ih : BitVec 6} {sx : Bool} {offs : List Nat} :
    let t := c.step.offset
    let p := (c.readA ar).toNat
    let ports : List PortClaim := { fc := t + 1, reads := (linesOf (c.offBytes ih offs)).length, writes := 0 } :: (if load then lanePorts (t + 3) else storePorts (t + 3))
    let dest : List (RegClass × Nat) := if load then [(.v, r.toNat)] else []
    Usable c o.fill ([(.a, ar.toNat)] ++ (if load then [] else [(.v, r.toNat)]) ++ dest) → c.mayAccess ih.toNat o.fill false = true → c.mayAccess h.toNat o.fill (!load) = true →
    laneFormat (c.descOf h.toNat).fmt = true → (c.descOf ih.toNat).fmt = 2 → (c.handle h.toNat).valid = true → c.indexOffs ih.toNat p = .ok offs → c.checkBytes ih.toNat false p offs = none →
    PortsFree c env o.fill ports →
    c.indexedAccess env o load r h ar ih sx =
      c.withClaims o dest (t + 14) (fun k =>
        (withPorts k o.fill ports).push (t + 1) (.indexRead { load := load, reg := r, handle := h, idxHandle := ih, idxPos := p, idxOffs := offs, signExt := sx, idx := []
                                                              src := if load then {} else (withPorts k o.fill ports).readV r, held := c.heldFirst env o ports, origin := o })) := by
  intro t p ports dest huse hmayi hmay hfmt hidx hvalid hplace hbytes hports
  have hvalidNot : (!(c.handle h.toNat).valid) = false := by rw [hvalid]; rfl
  unfold CoreState.indexedAccess
  refine (CoreState.withRegs_usable _ huse).trans ?_
  simp only [t, p] at hplace ⊢
  rw [hplace]
  refine (if_neg (ne_true_of_eq_false (congrArg (!·) hmayi))).trans ?_
  exact CoreState.withAccess_passes _ _ _ hmay (by simp [hfmt, hidx]) (if_neg (ne_true_of_eq_false hvalidNot)) hbytes hports

/-! ### Lanes of a strided access (R240 to R242) -/

/-- What succeeds for every element of a list gives one result for each. -/
theorem length_of_mapM_eq_some {α β : Type} {f : α → Option β} {l : List α} {r : List β} (h : l.mapM f = some r) : r.length = l.length := by
  induction l generalizing r with
  | nil => cases h; rfl
  | cons a l ih =>
    simp only [List.mapM_cons, Option.bind_eq_bind, Option.bind_eq_some_iff, Option.pure_def, Option.some.injEq] at h
    obtain ⟨b, -, rs, hrs, rfl⟩ := h
    rw [List.length_cons, List.length_cons, ih hrs]

/-- A strided access has a place for each of its 32 lanes. -/
theorem CoreState.strided_length {c : CoreState} {h p dim step : Nat} {offs : List Nat} (hplace : c.strided h p dim step = .ok offs) : offs.length = 32 := by
  unfold CoreState.strided at hplace
  dsimp only at hplace
  split at hplace
  · cases hplace
  · split at hplace
    · next l hl =>
      cases hplace
      rw [List.length_map, length_of_mapM_eq_some hl, List.length_range]
    · cases hplace

/-- The two lanes of a pair, each with a place, are written together (R241, R242). -/
theorem CoreState.pairWrites_stridedLanes (c : CoreState) (h : BitVec 6) (src : VReg) (p : Nat) {offs : List Nat} {j : Nat} (hj : 2 * j + 1 < offs.length) :
    c.pairWrites h src (offs.map (fun b => some (p, b))) j =
      (laneBytes (c.handle h.toNat) (c.descOf h.toNat) src (2 * j) (offs.getD (2 * j) 0) ++ laneBytes (c.handle h.toNat) (c.descOf h.toNat) src (2 * j + 1) (offs.getD (2 * j + 1) 0),
        [offs.getD (2 * j) 0, offs.getD (2 * j + 1) 0].flatMap (fun b => (List.range (fmtWidth (c.descOf h.toNat).fmt / 8)).map (fun k => (p, b + k)))) := by
  have hget : ∀ i, i < offs.length → listGet none (offs.map (fun b => some (p, b))) i = some (p, offs.getD i 0) := fun i hi => by
    simp [listGet, List.getD_eq_getElem?_getD, List.getElem?_map, List.getElem?_eq_getElem hi]
  unfold CoreState.pairWrites
  simp only [List.filterMap_cons, List.filterMap_nil, hget _ hj, hget (2 * j) (Nat.lt_of_succ_lt hj), Option.map_some, List.flatMap_cons, List.flatMap_nil, List.append_nil]

/-- A lane of a width that moves lane by lane writes some byte. -/
theorem laneBytes_ne_nil {h : Handle} {d : Desc} (v : VReg) (i b : Nat) (hfmt : laneFormat d.fmt = true) : laneBytes h d v i b ≠ [] := by
  have hwidth : fmtWidth d.fmt / 8 ≠ 0 := by
    have hcases : (fmtWidth d.fmt = 8 ∨ fmtWidth d.fmt = 16) ∨ fmtWidth d.fmt = 32 := by simpa [laneFormat] using hfmt
    omega
  simp [laneBytes, hwidth]

/-- A fold over a list numbered from 0 is a fold over the numbers. -/
theorem foldl_zipIdx_map_range {α β : Type} (f : Nat → α) (g : β → α × Nat → β) (n : Nat) (b : β) :
    ((List.range n).map f).zipIdx.foldl g b = (List.range n).foldl (fun b j => g b (f j, j)) b := by
  have hzip : ((List.range n).map f).zipIdx = (List.range n).map (fun j => (f j, j)) := by
    refine List.ext_getElem (by simp) fun j h1 h2 => ?_
    simp
  rw [hzip, List.foldl_map]

/-- The pairs of a strided store are on their way, the main stream's in their own fc (R207, R241). -/
theorem CoreState.storePairs_strided {c : CoreState} {first : Nat} {h : BitVec 6} {src : VReg} {p : Nat} {offs : List Nat} {held : Bool} {o : Origin} (hlen : offs.length = 32)
    (hfmt : laneFormat (c.descOf h.toNat).fmt = true) :
    let pair (j : Nat) := laneBytes (c.handle h.toNat) (c.descOf h.toNat) src (2 * j) (offs.getD (2 * j) 0) ++ laneBytes (c.handle h.toNat) (c.descOf h.toNat) src (2 * j + 1) (offs.getD (2 * j + 1) 0)
    let places (j : Nat) := [offs.getD (2 * j) 0, offs.getD (2 * j + 1) 0].flatMap (fun b => (List.range (fmtWidth (c.descOf h.toNat).fmt / 8)).map (fun k => (p, b + k)))
    c.storePairs first h src (offs.map (fun b => some (p, b))) held o =
      if o.fill then c.push first (.fillStore { handle := h, writes := (List.range 16).map (fun j => (pair j, places j)), held := held, origin := o })
      else (List.range 16).foldl (fun k j => k.push (first + j) (.write (pair j) false o)) c := by
  intro pair places
  have hpairs : (List.range 16).map (c.pairWrites h src (offs.map (fun b => some (p, b)))) = (List.range 16).map (fun j => (pair j, places j)) :=
    List.map_congr_left fun j hj => c.pairWrites_stridedLanes h src p (by have := List.mem_range.1 hj; omega)
  unfold CoreState.storePairs
  rw [hpairs]
  cases o.fill with
  | true => rfl
  | false =>
    refine (if_neg Bool.false_ne_true).trans (Eq.trans ?_ (if_neg Bool.false_ne_true).symm)
    refine (foldl_zipIdx_map_range _ _ 16 c).trans ?_
    have hpair : ∀ j, (pair j).isEmpty = false := fun j => by simp [pair, laneBytes_ne_nil _ _ _ hfmt]
    simp only [hpair]
    rfl

@[simp] theorem withPorts_readV (c : CoreState) (fill : Bool) (ports : List PortClaim) (r : BitVec 5) : (withPorts c fill ports).readV r = c.readV r := by
  cases fill <;> rfl

theorem withPorts_offBytes (c : CoreState) (fill : Bool) (ports : List PortClaim) (h : BitVec 6) (offs : List Nat) : (withPorts c fill ports).offBytes h offs = c.offBytes h offs := by
  cases fill <;> rfl

theorem withPorts_descOf (c : CoreState) (fill : Bool) (ports : List PortClaim) (h : Nat) : (withPorts c fill ports).descOf h = c.descOf h := by
  cases fill <;> rfl

theorem claimPorts_descOf (c : CoreState) (ports : List PortClaim) (h : Nat) : (c.claimPorts ports).descOf h = c.descOf h := rfl

theorem claimPorts_handle (c : CoreState) (ports : List PortClaim) (h : Nat) : (c.claimPorts ports).handle h = c.handle h := rfl

/-- The same with the ports of the main stream's pairs claimed; the fill stream's claim none. -/
theorem CoreState.storePairs_withPorts {c : CoreState} {first : Nat} {h : BitVec 6} {src : VReg} {p : Nat} {offs : List Nat} {held : Bool} {o : Origin} (ports : List PortClaim) (hlen : offs.length = 32)
    (hfmt : laneFormat (c.descOf h.toNat).fmt = true) :
    let pair (j : Nat) := laneBytes (c.handle h.toNat) (c.descOf h.toNat) src (2 * j) (offs.getD (2 * j) 0) ++ laneBytes (c.handle h.toNat) (c.descOf h.toNat) src (2 * j + 1) (offs.getD (2 * j + 1) 0)
    let places (j : Nat) := [offs.getD (2 * j) 0, offs.getD (2 * j + 1) 0].flatMap (fun b => (List.range (fmtWidth (c.descOf h.toNat).fmt / 8)).map (fun k => (p, b + k)))
    (withPorts c o.fill ports).storePairs first h src (offs.map (fun b => some (p, b))) held o =
      if o.fill then c.push first (.fillStore { handle := h, writes := (List.range 16).map (fun j => (pair j, places j)), held := held, origin := o })
      else (List.range 16).foldl (fun k j => k.push (first + j) (.write (pair j) false o)) (c.claimPorts ports) := by
  intro pair places
  cases hfill : o.fill with
  | true =>
    rw [show withPorts c true ports = c from rfl, CoreState.storePairs_strided hlen hfmt, hfill]
    rfl
  | false =>
    rw [show withPorts c false ports = c.claimPorts ports from rfl, CoreState.storePairs_strided hlen (by rw [claimPorts_descOf]; exact hfmt), hfill, claimPorts_descOf, claimPorts_handle]
    rfl

/-- A raw store that passes its checks has its writes on their way (R225, R240, R241). -/
theorem CoreState.rawStore_schedules {c : CoreState} {env : Env} {o : Origin} {src : RegClass × Nat} {h : BitVec 6} {ar : BitVec 4} {off : Int} {data : List (Byte × Bool)} {dataOf : CoreState → List (Byte × Bool)}
    {b : Nat} (hdata : dataOf c = data) :
    let t := c.step.offset
    let pos := posOf (c.readA ar) off
    let offs := (List.range data.length).map (fun k => b + k)
    let ws := storeByFc (((c.rawBytes h.toNat b data.length).zip data).map (fun p => { addr := p.1, val := p.2.1, bruise := p.2.2 }))
    Usable c o.fill [(.a, ar.toNat), src] → c.mayAccess h.toNat o.fill true = true → fmtWidth (c.descOf h.toNat).fmt ≠ 0 →
    c.rawOffset h.toNat (c.readA ar) off = .ok b → c.checkBytes h.toNat true pos offs = none → PortsFree c env o.fill (storeClaims t ws) →
    c.rawStore env o src h ar off dataOf =
      (withPorts c o.fill (storeClaims t ws)).storeBytes (t + 2) h pos (offs.zip (c.rawBytes h.toNat b data.length)) ws (c.heldFirst env o (storeClaims t ws)) o := by
  intro t pos offs ws huse hmay hfmt hplace hbytes hports
  have hrawPlace : c.rawPlace h (c.readA ar) off = (none, some b) := by simp only [CoreState.rawPlace, hplace]
  have hoffs : c.offBytes h offs = c.rawBytes h.toNat b data.length := c.offBytes_offsFrom h b data.length
  unfold CoreState.rawStore
  refine (CoreState.withRegs_usable (reads := [(.a, ar.toNat), src]) (writes := []) _ huse).trans ?_
  rw [hrawPlace, hdata]
  dsimp only
  rw [show offsFrom (some b) data.length = offs from rfl, hoffs]
  refine (CoreState.withAccess_passes _ _ _ hmay (bne_iff_ne.2 hfmt) rfl hbytes hports).trans ((CoreState.withClaims_nil _ _ _ _).trans ?_)
  rw [withPorts_offBytes, hoffs]

/-! ### Table lookups (R177) -/

/-- Where no failure is found among several possible ones, none is there. -/
theorem worst_eq_none {l : List Bad} : worst l = none ↔ l = [] := by
  cases l with
  | nil => exact iff_of_true rfl rfl
  | cons b l =>
    refine iff_of_false (fun h => ?_) (List.cons_ne_nil b l)
    unfold worst at h
    split at h
    · cases h
    · split at h <;> cases h

/-- Entries that pass their checks pass those that a held lookup makes at its issue. -/
theorem CoreState.lutCheck_held {c : CoreState} {a : BitVec 5} {h : BitVec 6} (held : Bool) (hcheck : c.lutCheck a h false = none) : c.lutCheck a h held = none := by
  cases held with
  | false => exact hcheck
  | true =>
    unfold CoreState.lutCheck at hcheck ⊢
    rw [worst_eq_none, List.filterMap_eq_nil_iff] at hcheck ⊢
    intro l hl
    have hlane := hcheck l hl
    dsimp only at hlane ⊢
    split at hlane
    · cases hlane
    · next hin => rw [if_neg hin]; rfl

/-- The lanes that a lookup reads are those of its registers as they stand at issue. -/
theorem withPorts_claimed_lutLanes (c : CoreState) (o : Origin) (dest : RegClass × Nat) (fc : Nat) (fill : Bool) (ports : List PortClaim) (a : BitVec 5) (h : BitVec 6) :
    (withPorts (Claims.claimed c o dest fc) fill ports).lutLanes a h = c.lutLanes a h := by
  have hdesc : (Claims.claimed c o dest fc).descOf h.toNat = c.descOf h.toNat := by
    rw [claimed_eq_setStep]; rfl
  unfold CoreState.lutLanes
  rw [withPorts_readV, withPorts_descOf, claimed_readV, hdesc]

end Sys2Proof.Machine

namespace Sys2Proof.Claims

open Sys2Proof.Machine

/-- Settles O16: each load passes its checks and schedules its first read. -/
theorem loadsScheduleTheirReads : Obligations.LoadsScheduleTheirReads := by
  unfold Obligations.LoadsScheduleTheirReads
  intro s i c env t hissue
  refine ⟨?raw, ?strided, ?indexed⟩
  case raw =>
    intro d h ar off vec b n dest pos offs ports op o huse hmay hfmt hplace hbytes hports hfree
    have hload : c.rawLoad env o vec d h ar off.toInt = _ := CoreState.rawLoad_schedules (o := o) huse hmay hfmt hplace hbytes hports hfree
    cases vec with
    | true => exact (show execLdv i _ s = _ from (loadCommand_issues hissue (op := .ldv d h ar off) _).trans (answer_congr hload))
    | false => exact (show execLds i _ s = _ from (loadCommand_issues hissue (op := .lds d h ar off) _).trans (answer_congr hload))
  case strided =>
    intro d h ar dim sx step offs ds p op o huse hrank hmay hfmt hplace hbytes hports hfree
    refine (show execLdvs i _ s = _ from (loadCommand_issues hissue (op := op) _).trans (answer_congr ?_))
    refine (if_neg (Nat.not_le.2 hrank)).trans ?_
    refine (CoreState.withRegs_usable (o := o) (reads := [(.a, ar.toNat)]) (writes := [(.v, d.toNat)]) _ huse).trans ?_
    simp only [c, p] at hplace hbytes ⊢
    rw [hplace]
    refine (CoreState.withAccess_passes _ _ _ hmay hfmt rfl hbytes hports).trans ?_
    exact CoreState.withClaims_unclaimed _ _ hfree
  case indexed =>
    intro d h ar ih sx offs p op o ports huse hmayi hmay hfmt hidx hvalid hplace hbytes hports hfree
    refine (show execLdvg i _ s = _ from (loadCommand_issues hissue (op := op) _).trans (answer_congr ?_))
    refine (CoreState.indexedAccess_reads (o := o) (load := true) huse hmayi hmay hfmt hidx hvalid hplace hbytes hports).trans ?_
    exact CoreState.withClaims_unclaimed _ _ hfree

/-- Settles O17: each store passes its checks and schedules its writes. -/
theorem storesScheduleTheirWrites : Obligations.StoresScheduleTheirWrites := by
  unfold Obligations.StoresScheduleTheirWrites
  intro s i c env t hissue
  refine ⟨?raw, ?strided, ?indexed⟩
  case raw =>
    intro op src h ar off data b o pos offs ws inLines hop huse hmay hfmt hplace hbytes hports
    have hbytesEq : (withPorts c i.fill (storeClaims t ws)).storeBytes (t + 2) h pos (offs.zip (c.rawBytes h.toNat b data.length)) ws (c.heldFirst env o (storeClaims t ws)) o =
        if i.fill then c.push (t + 2) (.fillStore { handle := h, writes := ws.map (fun bs => (bs, inLines bs)), held := c.heldFirst env o (storeClaims t ws), origin := o })
        else ws.zipIdx.foldl (fun k p => k.push (t + 2 + p.2) (.write p.1 false o)) (c.claimPorts (storeClaims t ws)) := by
      unfold CoreState.storeBytes withPorts
      rw [show o.fill = i.fill from rfl]
      cases i.fill <;> rfl
    obtain ⟨vs, firstw, nw, x, hrange, rfl, rfl, rfl, hdata⟩ | ⟨ss, x, rfl, rfl, rfl, hdata⟩ := hop
    · rw [← hbytesEq]
      refine (show execStv i _ s = _ from (storeCommand_issues hissue (op := .stv vs h ar firstw nw x) _ hrange).trans (answer_congr ?_))
      dsimp only
      exact CoreState.rawStore_schedules (o := o) hdata.symm huse hmay hfmt hplace hbytes hports
    · rw [← hbytesEq]
      refine (show execSts i _ s = _ from (storeCommand_issues hissue (op := .sts ss h ar x) _ rfl).trans (answer_congr ?_))
      dsimp only
      exact CoreState.rawStore_schedules (o := o) hdata.symm huse hmay hfmt hplace hbytes hports
  case strided =>
    intro vs h ar dim step offs hd ds p op o pair places huse hrank hmay hfmt hplace hbytes hports
    refine (show execStvs i _ s = _ from (storeCommand_issues hissue (op := op) _ rfl).trans (answer_congr ?_))
    refine (if_neg (Nat.not_le.2 hrank)).trans ?_
    refine (CoreState.withRegs_usable (o := o) (reads := [(.a, ar.toNat), (.v, vs.toNat)]) (writes := []) _ huse).trans ?_
    have hlen := CoreState.strided_length hplace
    simp only [c, p] at hplace hbytes ⊢
    rw [hplace]
    refine (CoreState.withAccess_passes _ _ _ hmay hfmt rfl hbytes hports).trans ((CoreState.withClaims_nil _ _ _ _).trans ?_)
    rw [withPorts_readV]
    exact CoreState.storePairs_withPorts (o := o) _ hlen hfmt
  case indexed =>
    intro vs h ar ih offs p op o ports huse hmayi hmay hfmt hidx hvalid hplace hbytes hports
    refine (show execStvg i _ s = _ from (storeCommand_issues hissue (op := op) _ rfl).trans (answer_congr ?_))
    refine (CoreState.indexedAccess_reads (o := o) (load := false) huse hmayi hmay hfmt hidx hvalid hplace hbytes hports).trans ((CoreState.withClaims_nil _ _ _ _).trans ?_)
    cases hfill : i.fill
    · simp only [show o.fill = i.fill from rfl, hfill]; rfl
    · simp only [show o.fill = i.fill from rfl, hfill]; rfl

/-- Settles O18: a lookup that passes its checks schedules its reads. -/
theorem vlutSchedulesItsReads : Obligations.VlutSchedulesItsReads := by
  unfold Obligations.VlutSchedulesItsReads
  intro s i d a th t16 c t ds op o ports lanes k hissue huse hmay hrank hfmt hbusy hcheck hports hfree
  refine (show execVlut i _ s = _ from (vectorCommand_issues hissue (op := op) _ rfl).trans (answer_congr ?_))
  refine (CoreState.withRegs_usable (o := o) (reads := [vUse a]) (writes := [vUse d]) _ huse).trans ?_
  have hclash : (if o.fill then none else c.portClash (s.env i.core) ports) = none := by
    cases hfill : o.fill with
    | true => rfl
    | false => exact hports hfill
  have hfree' : ¬ (!o.fill && decide (t < c.step.vlutEnd)) = true := by
    cases hfill : o.fill with
    | true => simp
    | false => simpa using hbusy hfill
  refine (if_neg (ne_true_of_eq_false (congrArg (!·) hmay))).trans ((if_neg ?_).trans ((if_neg hfree').trans ?_))
  · rw [show (c.descOf th.toNat).rank = 1 from hrank, show (c.descOf th.toNat).fmt = _ from hfmt]
    simp only [bne_self_eq_false, Bool.or_self, Bool.false_eq_true, not_false_eq_true]
  rw [CoreState.lutCheck_held _ hcheck]
  refine (if_neg (Option.not_isSome_iff_eq_none.2 hclash)).trans ((CoreState.withClaims_unclaimed _ _ hfree).trans ?_)
  have hlanes : k.lutLanes a th = lanes := withPorts_claimed_lutLanes ..
  exact congrArg (fun ls => ({ k with step.vlutEnd := if i.fill then k.step.vlutEnd else t + 8 } : CoreState).push (t + 1)
    (.gather { reg := d, handle := th, lanes := ls, width := fmtWidth ds.fmt, signExt := t16 == 1, acc := {}, held := i.fill && c.fillHeld (s.env i.core) (t + 1) { reads := 4, lookup := true }, origin := o } 0)) hlanes

end Sys2Proof.Claims
end

section
/-! Matrix operations (R111 to R125, R149 to R154): what an operation that passes its checks claims and begins; and the commands that run a core to its next event. -/

namespace Sys2Proof.Machine

open Claims (OnBlock)

/-- A start position on a block boundary is no misaligned one (R128). -/
theorem misaligned_of_onBlock {d : Desc} {pos : BitVec 32} (h : OnBlock d pos) : (match d.coords pos.toNat with | some q => !mxAligned d q | none => false) = false := by
  cases hcoords : d.coords pos.toNat with
  | none => rfl
  | some q => exact congrArg (!·) (h q hcoords)

/-- An operand of K that fits a pass, in whole blocks from a block boundary where the format has scale blocks, breaks no rule of shape (R128). -/
theorem loadShape_ok {d : Desc} {pos : BitVec 32} {n : Nat} (hlen : n ≤ kpassOf d.fmt) (hmx : fmtIsMx d.fmt = true → n % 32 = 0 ∧ OnBlock d pos) :
    (decide (n > kpassOf d.fmt) || (fmtIsMx d.fmt && (n % 32 != 0 || (match d.coords pos.toNat with | some q => !mxAligned d q | none => false)))) = false := by
  refine Bool.or_eq_false_iff.2 ⟨decide_eq_false (Nat.not_lt.2 hlen), ?_⟩
  cases hfmt : fmtIsMx d.fmt with
  | false => rfl
  | true => rw [misaligned_of_onBlock (hmx hfmt).2, (hmx hfmt).1]; rfl

/-! ### The next event of a kind -/

/-- The earlier of a fc found so far and that of an event. -/
theorem earliest_isLeast (es : List Timed) (m : Nat) :
    ∃ x, es.foldl (fun (m : Option Nat) e => some (match m with | some x => min x e.fc | none => e.fc)) (some m) = some x ∧
      (x = m ∨ ∃ e ∈ es, e.fc = x) ∧ x ≤ m ∧ ∀ e ∈ es, x ≤ e.fc := by
  induction es generalizing m with
  | nil => exact ⟨m, rfl, .inl rfl, le_rfl, by simp⟩
  | cons e es ih =>
    obtain ⟨x, hx, hmem, hle, hall⟩ := ih (min m e.fc)
    refine ⟨x, hx, ?_, by omega, ?_⟩
    · obtain hmem | ⟨e', he', hfc⟩ := hmem
      · rcases Nat.le_total m e.fc with h | h
        · exact .inl (by omega)
        · exact .inr ⟨e, List.mem_cons_self, by omega⟩
      · exact .inr ⟨e', List.mem_cons_of_mem _ he', hfc⟩
    · intro e' he'
      rcases List.mem_cons.1 he' with rfl | he'
      · omega
      · exact hall e' he'

/-- The fc of the next event of a kind is the least one of them. -/
theorem CoreState.nextEvent_of_nextOf {c : CoreState} {p : CoreEv → Bool} {f : Nat} (h : Claims.NextOf c p f) : c.nextEvent p = some f := by
  obtain ⟨⟨e, he, hp, hfc⟩, hmin⟩ := h
  have hmem : e ∈ c.step.events.filter (fun e => p e.ev) := List.mem_filter.2 ⟨he, hp⟩
  unfold CoreState.nextEvent
  cases hes : c.step.events.filter (fun e => p e.ev) with
  | nil => rw [hes] at hmem; cases hmem
  | cons e' es =>
    obtain ⟨x, hx, hxmem, hxle, hxall⟩ := earliest_isLeast es e'.fc
    have hin : ∀ d ∈ e' :: es, f ≤ d.fc := fun d hd => by
      rw [← hes] at hd
      exact hmin d (List.mem_filter.1 hd).1 (List.mem_filter.1 hd).2
    have hle : x ≤ f := by
      rw [hes] at hmem
      rcases List.mem_cons.1 hmem with rfl | hmem
      · omega
      · exact hfc ▸ hxall e hmem
    have hge : f ≤ x := by
      rcases hxmem with rfl | ⟨d, hd, rfl⟩
      · exact hin e' List.mem_cons_self
      · exact hin d (List.mem_cons_of_mem _ hd)
    exact hx.trans (congrArg some (Nat.le_antisymm hle hge))

/-- The core runs through its next event of a kind. -/
theorem CoreState.runThrough_nextOf {c : CoreState} {env : Env} {p : CoreEv → Bool} {f : Nat} (h : Claims.NextOf c p f) : c.runThrough env p = c.runTo env (f + 1) := by
  unfold CoreState.runThrough
  rw [CoreState.nextEvent_of_nextOf h]

end Sys2Proof.Machine

namespace Sys2Proof.Claims

open Sys2Proof.Machine

/-- Settles O22: each matrix operation passes its checks and begins its work. -/
theorem matrixOperationsBeginTheirWork : Obligations.MatrixOperationsBeginTheirWork := by
  unfold Obligations.MatrixOperationsBeginTheirWork
  intro s i c env t hissue hmain
  refine ⟨?mload, ?mstream, ?mtile, ?manchor, ?mread, ?mprobe, ?mnop⟩
  case mload =>
    intro bank xh ax rows klen r op b d pos n len ports hrange huse hmay hkpass hfree htile hlen hmx hreads hcheck hports
    refine (show execMload i _ s = _ from (matrixCommand_issues hissue (op := op) _ hrange).trans (answer_congr ?_))
    refine (CoreState.withRegs_usable (o := originOf s i 3 (matrixBits op)) (reads := [(.a, ax.toNat)]) (writes := []) _ (show Usable c i.fill _ from hmain.symm ▸ huse)).trans ?_
    have hmay' : c.mayReadTensor xh i.fill = true := hmain.symm ▸ hmay
    refine (if_neg (ne_true_of_eq_false (congrArg (!·) hmay'))).trans ((if_neg hkpass).trans ((if_neg ?busy).trans ((if_neg ?shape).trans ?_)))
    case busy => exact ne_true_of_eq_false (Bool.or_eq_false_iff.2 ⟨decide_eq_false (Nat.not_lt.2 hfree), htile⟩)
    case shape => exact ne_true_of_eq_false (loadShape_ok hlen hmx)
    have hclash : c.portClash (s.env i.core) ports = none := hports rfl
    simp only [pos, ports, len, t] at hcheck hclash
    rw [hreads]
    dsimp only
    rw [hcheck]
    dsimp only
    rw [hclash]
  case mstream =>
    intro bank wh aw ss kind ovw op b d so op0 st len hrange huse hmay hkpass hloaded hsame hfree hready hok hblock hacc hports
    refine (show execMstream i _ s = _ from (matrixCommand_issues hissue (op := op) _ hrange).trans (answer_congr ?_))
    refine (CoreState.withRegs_usable (o := originOf s i 3 (matrixBits op)) (reads := [(.a, aw.toNat), (.s, ss.toNat)]) (writes := []) _ (show Usable c i.fill _ from hmain.symm ▸ huse)).trans ?_
    have hmay' : c.mayReadTensor wh i.fill = true := hmain.symm ▸ hmay
    refine (if_neg (ne_true_of_eq_false (congrArg (!·) hmay'))).trans ((if_neg ?format).trans ((if_neg ?busy).trans ((if_neg ?shape).trans ((if_neg (ne_true_of_eq_false (congrArg (!·) hacc))).trans ?_))))
    case format => exact ne_true_of_eq_false (Bool.or_eq_false_iff.2 ⟨decide_eq_false hkpass, Bool.and_eq_false_imp.2 fun _ => bne_eq_false_iff_eq.2 hsame⟩)
    case busy =>
      exact ne_true_of_eq_false (Bool.or_eq_false_iff.2 ⟨Bool.or_eq_false_iff.2 ⟨decide_eq_false (Nat.not_lt.2 hfree), decide_eq_false (Nat.not_lt.2 hready)⟩, congrArg (!·) hloaded⟩)
    case shape => exact ne_true_of_eq_false (Bool.or_eq_false_iff.2 ⟨congrArg (!·) hok, misaligned_of_onBlock hblock⟩)
    have hclash : c.portClash (s.env i.core) _ = none := hports rfl
    dsimp only
    simp only [len, st, op0, so, t, b, streamStart] at hclash
    rw [hclash]
    rfl
  case mtile =>
    intro xh ax wh aw ss kind ovw op dx dw sh q hrange huse hmayx hmayw hkpass hsame hfree hbank0 hbank1 hok hmx hblockx hblockw hacc hports
    refine (show execMtile i _ s = _ from (matrixCommand_issues hissue (op := op) _ hrange).trans (answer_congr ?_))
    refine (CoreState.withRegs_usable (o := originOf s i 3 (matrixBits op)) (reads := [(.a, ax.toNat), (.a, aw.toNat), (.s, ss.toNat)]) (writes := []) _ (show Usable c i.fill _ from hmain.symm ▸ huse)).trans ?_
    have hmayx' : c.mayReadTensor xh i.fill = true := hmain.symm ▸ hmayx
    have hmayw' : c.mayReadTensor wh i.fill = true := hmain.symm ▸ hmayw
    refine (if_neg ?may).trans ((if_neg ?format).trans ((if_neg ?busy).trans ((if_neg ?shape).trans ((if_neg (ne_true_of_eq_false (congrArg (!·) hacc))).trans ?_))))
    case may => exact ne_true_of_eq_false (Bool.or_eq_false_iff.2 ⟨congrArg (!·) hmayx', congrArg (!·) hmayw'⟩)
    case format => exact ne_true_of_eq_false (Bool.or_eq_false_iff.2 ⟨decide_eq_false hkpass, bne_eq_false_iff_eq.2 hsame⟩)
    case busy =>
      exact ne_true_of_eq_false (Bool.or_eq_false_iff.2 ⟨Bool.or_eq_false_iff.2 ⟨decide_eq_false (Nat.not_lt.2 hfree), decide_eq_false (Nat.not_lt.2 hbank0)⟩, decide_eq_false (Nat.not_lt.2 hbank1)⟩)
    case shape =>
      have hblocks : ((fmtIsMx dx.fmt || fmtIsMx dw.fmt) && sh.k % 32 != 0) = false :=
        Bool.and_eq_false_imp.2 fun h => bne_eq_false_iff_eq.2 (hmx (Bool.or_eq_true_iff.1 h))
      exact ne_true_of_eq_false (Bool.or_eq_false_iff.2 ⟨Bool.or_eq_false_iff.2 ⟨Bool.or_eq_false_iff.2 ⟨congrArg (!·) hok, hblocks⟩, misaligned_of_onBlock hblockx⟩, misaligned_of_onBlock hblockw⟩)
    have hclash : c.portClash (s.env i.core) (c.tilePorts q) = none := hports rfl
    dsimp only
    simp only [q, tileTimed, tileStart, sh, t] at hclash
    rw [hclash]
    rfl
  case manchor =>
    intro group kind anchor n size hrange hrun
    refine (show execManchor i _ s = _ from (matrixCommand_issues hissue (op := .manchor group kind anchor) _ hrange).trans (answer_congr ?_))
    exact if_neg (ne_true_of_eq_false hrun)
  case mread =>
    intro vd row entry shift mode sreg kind op o sr k dr hrange huse hacc hpending hfree
    refine (show execMread i _ s = _ from (matrixCommand_issues hissue (op := op) _ hrange).trans (answer_congr ?_))
    refine (CoreState.withRegs_usable (o := o) (reads := if sreg = 1 then [(.s, sr.toNat)] else []) (writes := [vUse vd]) _ (show Usable c i.fill _ from hmain.symm ▸ huse)).trans ?_
    refine (if_neg (ne_true_of_eq_false (congrArg (!·) hacc))).trans ((if_neg ?_).trans ((CoreState.withClaims_unclaimed _ _ hfree).trans ?_))
    · exact ne_true_of_eq_false (List.any_eq_false.2 fun j hj => ne_true_of_eq_false (hpending j (List.mem_range.1 hj)))
    · rw [claimed_readS]
  case mprobe =>
    intro group sd clear op o n size hrange huse hpending hfree
    refine (show execMprobe i _ s = _ from (matrixCommand_issues hissue (op := op) _ hrange).trans (answer_congr ?_))
    refine (CoreState.withRegs_usable (o := o) (reads := []) (writes := [(.s, sd.toNat)]) _ (show Usable c i.fill _ from hmain.symm ▸ huse)).trans ?_
    refine (if_neg ?_).trans (CoreState.withClaims_unclaimed _ _ hfree)
    exact ne_true_of_eq_false (List.any_eq_false.2 fun row hrow => ne_true_of_eq_false (List.any_eq_false.2 fun j hj => ne_true_of_eq_false (hpending row (List.mem_range.1 hrow) j (List.mem_range.1 hj))))
  case mnop =>
    intro hidle
    refine (show execMnop i _ s = _ from (matrixCommand_issues hissue (op := .mnop 1) _ rfl).trans (answer_congr ?_))
    have hnot : (!(opened s i).arrayRuns (opened s i).step.offset) = true := congrArg (!·) hidle
    exact if_pos hnot

/-- Settles O19: each landing command runs its core through its next event of the kind. -/
theorem landingCommandsRunToTheirEvent : Obligations.LandingCommandsRunToTheirEvent := by
  unfold Obligations.LandingCommandsRunToTheirEvent
  intro s cid hcore hrun r hr f hnext
  have hlands : ∀ p : CoreEv → Bool, NextOf (s.core cid) p f →
      coreCommand s cid (fun env c => c.runThrough env p) = .next (became s cid ((s.core cid).runTo (s.env cid) (f + 1))) := fun p hp => by
    rw [coreCommand_running _ hcore hrun, ← CoreState.runThrough_nextOf hp]
    rfl
  simp only [landingRows, List.mem_cons, List.not_mem_nil, or_false] at hr
  obtain rfl | rfl | rfl | rfl | rfl | rfl | rfl := hr
  · exact hlands _ hnext
  · exact hlands _ hnext
  · exact hlands _ hnext
  · exact hlands _ hnext
  · exact hlands _ hnext
  · exact hlands _ hnext
  · exact hlands _ hnext

end Sys2Proof.Claims
end

section
/-! Landed results and stores (R166, R196, R207, R227). -/

namespace Sys2Proof.Machine

/-! ### Field cycles with one store in flight -/

/-- What a landing store may change of a core, beside the marks of its words: the work in flight, the fc, the registers and the data array. -/
def CoreState.standing (c : CoreState) : List Timed × Nat × AMap Word × AMap (BitVec 32) × AMap VReg × AMap MReg × AMap Byte :=
  (c.step.events, c.step.offset, c.work.s, c.work.a, c.work.v, c.work.m, c.work.mem)

/-- The core with a write of the main stream or of a landing alone in flight. -/
structure StoreAlone (c : CoreState) (f : Nat) (bs : List WByte) (landing : Bool) (o : Origin) : Prop where
  events : c.step.events = [{ fc := f, ev := .write bs landing o }]
  main : o.fill = false

/-- A fold whose every step keeps a value keeps it. -/
theorem foldl_keeps_value {α β γ : Type} (g : β → γ) (f : β → α → β) (h : ∀ b a, g (f b a) = g b) (l : List α) (b : β) : g (l.foldl f b) = g b := by
  induction l generalizing b with
  | nil => rfl
  | cons a l ih => exact (ih (f b a)).trans (h b a)

section Cycle

variable {c : CoreState} {env : Env} {f : Nat} {bs : List WByte} {landing : Bool} {o : Origin}

theorem CoreState.noteLate_standing (c : CoreState) : c.noteLate.standing = c.standing := by
  unfold CoreState.noteLate
  dsimp only
  split <;> rfl

theorem CoreState.standing_events {d : CoreState} (h : d.standing = c.standing) : d.step.events = c.step.events := congrArg Prod.fst h

theorem CoreState.standing_offset {d : CoreState} (h : d.standing = c.standing) : d.step.offset = c.step.offset := congrArg (·.2.1) h

theorem CoreState.standing_registers {d : CoreState} (h : d.standing = c.standing) : d.work.s = c.work.s ∧ d.work.a = c.work.a ∧ d.work.v = c.work.v ∧ d.work.m = c.work.m ∧ d.work.mem = c.work.mem :=
  ⟨congrArg (·.2.2.1) h, congrArg (·.2.2.2.1) h, congrArg (·.2.2.2.2.1) h, congrArg (·.2.2.2.2.2.1) h, congrArg (·.2.2.2.2.2.2) h⟩

/-- Work that is rearranged to what it was stands. -/
theorem CoreState.standing_setEvents {es : List Timed} (h : es = c.step.events) : ({ c with step.events := es } : CoreState).standing = c.standing := by
  subst h; rfl

theorem CoreState.arrangePosted_standing (h : ∀ e ∈ c.step.events, e.ev.isPosted = false) : (c.arrangePosted env).standing = c.standing := by
  have hdue : ∀ f, c.postedDue f = [] := fun f => by
    simp only [CoreState.postedDue, List.flatMap_eq_nil_iff, List.filter_eq_nil_iff]
    intro k _ e he
    simp [h e he]
  unfold CoreState.arrangePosted
  refine CoreState.standing_setEvents ?_
  simp [hdue]

theorem CoreState.arrangeFill_standing (h : ∀ e ∈ c.step.events, e.ev.isFill = false) : (c.arrangeFill env).standing = c.standing := by
  have hshare : ∀ f, c.fillShare f = ([], []) := fun f => by
    have hnone : c.step.events.filter (fun e => e.fc == f && e.ev.isFill) = [] := List.filter_eq_nil_iff.2 fun e he => by simp [h e he]
    simp only [CoreState.fillShare, hnone]
    rfl
  unfold CoreState.arrangeFill
  refine CoreState.standing_setEvents (List.map_congr_left (g := id) (fun e he => if_neg ?_) |>.trans (List.map_id _))
  simp [h e he, hshare]

theorem CoreState.arrangeScrub_standing (h : ∀ e ∈ c.step.events, e.ev ≠ .scrubWrite) : (c.arrangeScrub env).standing = c.standing := by
  unfold CoreState.arrangeScrub
  split
  · rfl
  · refine CoreState.standing_setEvents (List.map_congr_left (g := id) (fun e he => if_neg ?_) |>.trans (List.map_id _))
    simp [h e he]

/-- No order of ports moves work that is no posted delivery, no fill-stream work and no scrub write. -/
theorem CoreState.arrange_standing (h : ∀ e ∈ c.step.events, e.ev.isPosted = false ∧ e.ev.isFill = false ∧ e.ev ≠ .scrubWrite) :
    (((c.noteLate.arrangePosted env).arrangeFill env).arrangeScrub env).standing = c.standing := by
  have hevents {d : CoreState} (hd : d.standing = c.standing) : d.step.events = c.step.events := congrArg Prod.fst hd
  have hposted : (c.noteLate.arrangePosted env).standing = c.standing :=
    (CoreState.arrangePosted_standing fun e he => (h e (hevents c.noteLate_standing ▸ he)).1).trans c.noteLate_standing
  have hfill : ((c.noteLate.arrangePosted env).arrangeFill env).standing = c.standing :=
    (CoreState.arrangeFill_standing fun e he => (h e (hevents hposted ▸ he)).2.1).trans hposted
  exact (CoreState.arrangeScrub_standing fun e he => (h e (hevents hfill ▸ he)).2.2).trans hfill

/-- Nothing of a rank fires while all work in flight is of a later fc or of another rank. -/
theorem CoreState.fireRank_idle {r : Nat} (h : ∀ e ∈ c.step.events, ¬ (e.fc ≤ c.step.offset ∧ e.ev.rank = r)) : c.fireRank env r = c := by
  have hdue : c.step.events.filter (fun e => decide (e.fc ≤ c.step.offset) && e.ev.rank == r) = [] := List.filter_eq_nil_iff.2 fun e he => by simpa using h e he
  have hrest : c.step.events.filter (fun e => !(decide (e.fc ≤ c.step.offset) && e.ev.rank == r)) = c.step.events := List.filter_eq_self.2 fun e he => by simpa [imp_iff_not_or] using h e he
  unfold CoreState.fireRank
  simp only [hdue, hrest]
  rfl

/-- Ranks of which nothing is due leave the core as it is. -/
theorem CoreState.fireRanks_idle {rs : List Nat} (h : ∀ r ∈ rs, ∀ e ∈ c.step.events, ¬ (e.fc ≤ c.step.offset ∧ e.ev.rank = r)) : rs.foldl (fun c r => c.fireRank env r) c = c := by
  induction rs with
  | nil => rfl
  | cons r rs ih =>
    rw [List.foldl_cons, CoreState.fireRank_idle (h r List.mem_cons_self)]
    exact ih fun r' hr' => h r' (List.mem_cons_of_mem _ hr')

/-- Tallies with no change due stand. -/
theorem CoreState.applyTallies_idle (h : ∀ e ∈ c.step.events, e.ev.rank ≠ 20) : c.applyTallies = c := by
  have hdue : c.step.events.filter (fun e => decide (e.fc ≤ c.step.offset) && e.ev.rank == 20) = [] := List.filter_eq_nil_iff.2 fun e he => by simp [h e he]
  have hrest : c.step.events.filter (fun e => !(decide (e.fc ≤ c.step.offset) && e.ev.rank == 20)) = c.step.events := List.filter_eq_self.2 fun e he => by simp [h e he]
  unfold CoreState.applyTallies
  simp only [hdue, hrest, List.any_nil, Bool.false_eq_true, if_false]
  exact foldl_keeps_value id _ (fun _ _ => rfl) _ _

theorem CoreState.sendOne_standing : (c.sendOne env).standing = c.standing := by
  unfold CoreState.sendOne
  split
  · split <;> rfl
  · rfl

/-- The end of a fc with no tally change due leaves the work in flight, the registers and the data array. -/
theorem CoreState.endOfFc_standing (h : ∀ e ∈ c.step.events, e.ev.rank ≠ 20) : ((c.foldAll.applyTallies.sendOne env).countCycle env).standing = c.standing := by
  rw [CoreState.applyTallies_idle (c := c.foldAll) h]
  exact CoreState.sendOne_standing

/-- What the work of a fc leaves standing stands in the next fc. -/
theorem CoreState.tick_standing {d : CoreState} (h : (c.fcWork env).standing = d.standing) : (c.tick env).standing = ({ d with step.offset := d.step.offset + 1 } : CoreState).standing := by
  rw [CoreState.tick_eq_fcWork]
  generalize c.fcWork env = w at h ⊢
  exact congrArg (fun p => (p.1, p.2.1 + 1, p.2.2)) h

/-- What a fc leaves standing while nothing is due in it. -/
theorem CoreState.tick_idle (h : ∀ e ∈ c.step.events, e.ev.isPosted = false ∧ e.ev.isFill = false ∧ e.ev ≠ .scrubWrite) (hlate : ∀ e ∈ c.step.events, c.step.offset < e.fc) (htally : ∀ e ∈ c.step.events, e.ev.rank ≠ 20) :
    (c.tick env).standing = ({ c with step.offset := c.step.offset + 1 } : CoreState).standing := by
  have harr := CoreState.arrange_standing (env := env) h
  have hwork : (c.fcWork env).standing = c.standing := by
    unfold CoreState.fcWork
    generalize ((c.noteLate.arrangePosted env).arrangeFill env).arrangeScrub env = d at harr ⊢
    have hevents : d.step.events = c.step.events := congrArg Prod.fst harr
    have hoffset : d.step.offset = c.step.offset := congrArg (·.2.1) harr
    have hidle : ∀ r ∈ List.range 20, ∀ e ∈ d.step.events, ¬ (e.fc ≤ d.step.offset ∧ e.ev.rank = r) := fun r _ e he hdue => by
      have hnext := hlate e (hevents ▸ he)
      omega
    rw [CoreState.fireRanks_idle hidle]
    have hend : ∀ e ∈ d.step.events, e.ev.rank ≠ 20 := fun e he => htally e (hevents ▸ he)
    exact (CoreState.endOfFc_standing hend).trans harr
  exact CoreState.tick_standing hwork

/-! ### The write itself -/

/-- The core with bytes written. -/
def CoreState.putBytes (c : CoreState) (bs : List WByte) : CoreState := bs.foldl (fun c b => c.putByte b.addr b.val) c

theorem CoreState.putBytes_congr {c d : CoreState} (bs : List WByte) (h : d.standing = c.standing) : (d.putBytes bs).standing = (c.putBytes bs).standing := by
  unfold CoreState.putBytes
  induction bs generalizing c d with
  | nil => exact h
  | cons b bs ih => exact ih (congrArg (fun p => (p.1, p.2.1, p.2.2.1, p.2.2.2.1, p.2.2.2.2.1, p.2.2.2.2.2.1, AMap.put 0 p.2.2.2.2.2.2 b.addr b.val)) h)

theorem CoreState.writeWordClass_standing (c : CoreState) (k : Nat) (full bruise : Bool) (o : Origin) : (c.writeWordClass k full bruise o).standing = c.standing := by
  have hfound : (c.foundUe k o).standing = c.standing := by
    unfold CoreState.foundUe CoreState.bruiseWord
    dsimp only
    split <;> rfl
  unfold CoreState.writeWordClass
  dsimp only
  split
  · rfl
  · split
    · rfl
    · rfl
    · rfl
    · exact hfound

/-- A write changes its bytes. -/
theorem CoreState.writeBytes_standing (c : CoreState) (bs : List WByte) (o : Origin) : (c.writeBytes bs o).standing = (c.putBytes bs).standing := by
  unfold CoreState.writeBytes
  refine CoreState.putBytes_congr bs ?_
  exact foldl_keeps_value _ _ (fun d k => d.writeWordClass_standing _ _ _ o) _ _

theorem CoreState.foldWrites_standing (c : CoreState) (bs : List WByte) (order : Nat) : (c.foldWrites bs order).standing = c.standing := by
  unfold CoreState.foldWrites
  refine foldl_keeps_value CoreState.standing _ (fun d k => ?_) _ _
  rfl

theorem CoreState.fire_write_standing (c : CoreState) : (c.fire env (.write bs landing o)).standing = (c.putBytes bs).standing := by
  unfold CoreState.fire
  dsimp only
  split
  · exact (CoreState.foldWrites_standing _ _ _).trans (c.writeBytes_standing bs o)
  · split
    · exact (CoreState.foldWrites_standing _ _ _).trans (c.writeBytes_standing bs o)
    · exact c.writeBytes_standing bs o

/-- After a write each byte holds the last value that the write gives it, else what it held. -/
theorem CoreState.putBytes_byte (c : CoreState) (bs : List WByte) (a : Nat) :
    (c.putBytes bs).byte a = (((bs.filter (fun b => b.addr == a)).getLast?).map (·.val)).getD (c.byte a) := by
  unfold CoreState.putBytes
  induction bs generalizing c with
  | nil => rfl
  | cons b bs ih =>
    rw [List.foldl_cons, ih]
    by_cases hb : b.addr = a
    · rw [List.filter_cons_of_pos (by simpa using hb), List.getLast?_cons, ← hb, CoreState.byte_putByte_same]
      cases (bs.filter (fun x => x.addr == b.addr)).getLast? <;> rfl
    · rw [List.filter_cons_of_neg (by simpa using hb), CoreState.byte_putByte_ne _ _ (Ne.symm hb)]

theorem CoreState.putBytes_setOffset (c : CoreState) (bs : List WByte) (n : Nat) :
    ({ c.putBytes bs with step.offset := n } : CoreState).standing = (({ c with step.offset := n } : CoreState).putBytes bs).standing := by
  unfold CoreState.putBytes
  induction bs generalizing c with
  | nil => rfl
  | cons b bs ih => exact ih (c.putByte b.addr b.val)

/-- Registers, work in flight and fc stand through a write. -/
theorem CoreState.putBytes_registers (c : CoreState) (bs : List WByte) :
    (c.putBytes bs).step.events = c.step.events ∧ (c.putBytes bs).step.offset = c.step.offset ∧
      (c.putBytes bs).work.s = c.work.s ∧ (c.putBytes bs).work.a = c.work.a ∧ (c.putBytes bs).work.v = c.work.v ∧ (c.putBytes bs).work.m = c.work.m := by
  unfold CoreState.putBytes
  induction bs generalizing c with
  | nil => exact ⟨rfl, rfl, rfl, rfl, rfl, rfl⟩
  | cons b bs ih => exact ih (c.putByte b.addr b.val)

/-- The ranks of the fc in which the write is due: all but its own pass, and it fires in its own. -/
theorem StoreAlone.fireRanks (h : StoreAlone c c.step.offset bs landing o) :
    (List.range 20).foldl (fun c r => c.fireRank env r) c = ({ c with step.events := [] } : CoreState).fire env (.write bs landing o) := by
  have hsplit : List.range 20 = List.range 11 ++ 11 :: (List.range 8).map (· + 12) := by decide
  have hbefore : ∀ r ∈ List.range 11, ∀ e ∈ c.step.events, ¬ (e.fc ≤ c.step.offset ∧ e.ev.rank = r) := fun r hr e he hdue => by
    rw [h.events, List.mem_singleton] at he
    rw [he] at hdue
    exact absurd hdue.2.symm (Nat.ne_of_lt (List.mem_range.1 hr))
  have hwrite : c.fireRank env 11 = ({ c with step.events := [] } : CoreState).fire env (.write bs landing o) := by
    unfold CoreState.fireRank
    rw [h.events]
    simp only [List.filter_cons, List.filter_nil, le_refl, CoreEv.rank, beq_self_eq_true, decide_true, Bool.and_self, Bool.not_true, Bool.false_eq_true, if_true, if_false, List.foldl_cons, List.foldl_nil]
  have hdone : (({ c with step.events := [] } : CoreState).fire env (.write bs landing o)).step.events = [] :=
    (congrArg Prod.fst (CoreState.fire_write_standing _)).trans (CoreState.putBytes_registers _ bs).1
  rw [hsplit, List.foldl_append, List.foldl_cons, CoreState.fireRanks_idle hbefore, hwrite]
  exact CoreState.fireRanks_idle fun r _ e he => by rw [hdone] at he; cases he

theorem StoreAlone.quiet (h : StoreAlone c f bs landing o) : ∀ e ∈ c.step.events, e.ev.isPosted = false ∧ e.ev.isFill = false ∧ e.ev ≠ .scrubWrite := fun e he => by
  rw [h.events, List.mem_singleton] at he
  rw [he]
  exact ⟨rfl, rfl, CoreEv.noConfusion⟩

/-- What the fc of the write leaves standing. -/
theorem StoreAlone.tick_due (h : StoreAlone c c.step.offset bs landing o) :
    (c.tick env).standing = (({ c with step.events := [], step.offset := c.step.offset + 1 } : CoreState).putBytes bs).standing := by
  have harr := CoreState.arrange_standing (env := env) h.quiet
  have hwork : (c.fcWork env).standing = (({ c with step.events := [] } : CoreState).putBytes bs).standing := by
    unfold CoreState.fcWork
    generalize ((c.noteLate.arrangePosted env).arrangeFill env).arrangeScrub env = d at harr ⊢
    have hd : StoreAlone d d.step.offset bs landing o := ⟨by rw [CoreState.standing_events harr, CoreState.standing_offset harr, h.events], h.main⟩
    rw [hd.fireRanks]
    have hfired := (CoreState.fire_write_standing (env := env) (bs := bs) (landing := landing) (o := o) { d with step.events := [] }).trans
      (CoreState.putBytes_congr bs (show _ = ({ c with step.events := [] } : CoreState).standing from congrArg (fun p => (([] : List Timed), p.2)) harr))
    refine (CoreState.endOfFc_standing fun e he => ?_).trans hfired
    rw [CoreState.standing_events hfired, (CoreState.putBytes_registers _ bs).1] at he
    cases he
  refine (CoreState.tick_standing hwork).trans ?_
  rw [CoreState.putBytes_setOffset, (CoreState.putBytes_registers _ bs).2.1]

/-- A core with one write in flight, run through the fc of the write, has written its bytes and stands otherwise. -/
theorem StoreAlone.runTo (h : StoreAlone c f bs landing o) (hf : c.step.offset ≤ f) :
    (c.runTo env (f + 1)).standing = (({ c with step.events := [], step.offset := f + 1 } : CoreState).putBytes bs).standing := by
  unfold CoreState.runTo
  obtain ⟨n, rfl⟩ := Nat.exists_eq_add_of_le hf
  rw [show c.step.offset + n + 1 - c.step.offset = n + 1 by omega]
  induction n generalizing c with
  | zero => exact StoreAlone.tick_due h
  | succ n ih =>
    have hidle : (c.tick env).standing = ({ c with step.offset := c.step.offset + 1 } : CoreState).standing :=
      CoreState.tick_idle h.quiet (fun e he => by rw [h.events, List.mem_singleton] at he; rw [he]; dsimp only; omega) (fun e he => by rw [h.events, List.mem_singleton] at he; rw [he]; exact (by decide : 11 ≠ 20))
    have hoffset : (c.tick env).step.offset + n = c.step.offset + (n + 1) := by rw [CoreState.tick_offset]; omega
    have hnext : StoreAlone (c.tick env) ((c.tick env).step.offset + n) bs landing o := ⟨by rw [CoreState.standing_events hidle, hoffset]; exact h.events, h.main⟩
    have hrun := ih hnext (Nat.le_add_right _ _)
    rw [hoffset] at hrun
    refine hrun.trans (CoreState.putBytes_congr bs ?_)
    exact congrArg (fun p => (([] : List Timed), c.step.offset + (n + 1) + 1, p.2.2)) hidle

end Cycle

end Sys2Proof.Machine

namespace Sys2Proof.Claims

open Sys2Proof.Machine

/-- Settles O21: the write fires in its fc, alone, and each byte takes the last value given. -/
theorem storeWritesLand : Obligations.StoreWritesLand := by
  unfold Obligations.StoreWritesLand
  intro s cid f bs landing o c hcore hrun hevents hf hmain
  have hnext : NextOf c ((landingRows cid)[4]'(by simp [landingRows])).2 f := by
    unfold NextOf
    rw [hevents]
    simp [landingRows]
  refine ⟨_, landingCommandsRunToTheirEvent s cid hcore hrun _ (List.getElem_mem _) f hnext, ?_⟩
  intro k
  have hstore := StoreAlone.runTo (env := s.env cid) ⟨hevents, hmain⟩ hf
  obtain ⟨-, -, hs, ha, hv, hm⟩ := CoreState.putBytes_registers { c with step.events := [], step.offset := f + 1 } bs
  have hk : k.standing = ((s.core cid).runTo (s.env cid) (f + 1)).standing := by
    simp only [k, became_core]
    rfl
  obtain ⟨hs', ha', hv', hm', hmem⟩ := CoreState.standing_registers (hk.trans hstore)
  refine ⟨fun a => ?_, fun r => ?_, fun r => ?_, fun r => ?_, fun r => ?_⟩
  · exact (congrArg (AMap.get 0 · a) hmem).trans (CoreState.putBytes_byte _ bs a)
  · exact congrArg (fun x : AMap Word => if r = 0 then 0 else AMap.get 0 x r.toNat) (hs'.trans hs)
  · exact congrArg (fun x : AMap (BitVec 32) => if r = 0 then 0 else AMap.get 0 x r.toNat) (ha'.trans ha)
  · exact congrArg (fun x : AMap VReg => AMap.get {} x r.toNat) (hv'.trans hv)
  · exact congrArg (fun x : AMap MReg => AMap.get {} x r.toNat) (hm'.trans hm)

/-! ### A held result of the fill stream -/

/-- The origin of a load of the fill stream. -/
def heldOrigin : Origin := { fill := true, slot := 4 }

/-- A core of a running plot with one result of the fill stream due in fc 0, in which main-stream work has claimed every read port and one more. -/
def heldCore : CoreState :=
  { owner := some 1, step.events := [{ fc := 0, ev := .result (.s 5 7) heldOrigin }], step.ports := [{ fc := 0, reads := 5, writes := 0 }] }

/-- The module with that core alone, its plot running. -/
def heldState : State := { State.reset with cores := [(0, heldCore)], plots := [(1, { place := { state := 3, rows := 2, cols := 2, image := some 0 }, step := { phase := .running, released := 1 } })] }

/-- What S5 of the core holds after the command: the result was held for the main stream (R207) and has not landed. -/
theorem heldState_keeps_register : (match execResultWriteLands 0 heldState with | .next t => (t.core 0).readS 5 | _ => 1) = 0 := by decide +kernel

/-- Refutes O20: a fill-stream result alone in flight is held past its fc where the claimed ports of that fc are exceeded (R207), so that it has not landed when the command has run its core through that fc. -/
theorem not_resultWritesLand : ¬ Obligations.ResultWritesLand := by
  unfold Obligations.ResultWritesLand
  intro h
  obtain ⟨t, ht, -, hreadS, -⟩ := h heldState 0 0 (.s 5 7) heldOrigin (by decide) (by decide) rfl (by decide)
  have hkept := heldState_keeps_register
  rw [show execResultWriteLands 0 heldState = .next t from ht] at hkept
  have hlanded : (t.core 0).readS 5 = 7 := hreadS 5
  exact absurd (hlanded.symm.trans hkept) (by decide)

end Sys2Proof.Claims
end

section
/-! What a slot operation leaves as it was (R195): its results land later, and beside its core it touches only the barrier rounds and the commons requests of the core's plot and the queues of writes. -/

namespace Sys2Proof.Machine

open Claims (SlotRow)

/-! ### The contents of a core -/

/-- What a core holds that a slot operation leaves to its landings: scratchpad, registers, tallies, accumulator groups and ring pointers; its owner, and the scratchpad of its bell image. -/
def CoreState.contents (c : CoreState) : Option Fn × AMap Byte × AMap Byte × AMap Word × AMap (BitVec 32) × AMap VReg × AMap MReg × AMap (BitVec 32) × AMap AccGroup × AMap RingPtr :=
  (c.owner, c.image.mem, c.work.mem, c.work.s, c.work.a, c.work.v, c.work.m, c.work.tallies, c.work.groups, c.work.ringPtr)

section Contents

variable (c : CoreState)

@[simp] theorem CoreState.fault_contents (code : Code) (o : Origin) (d0 d1 d2 : Word) : (c.fault code o d0 d1 d2).contents = c.contents := rfl

@[simp] theorem CoreState.issueFault_contents (code : Code) (o : Origin) : (c.issueFault code o).contents = c.contents := rfl

@[simp] theorem CoreState.accessFault_contents (b : Bad) (o : Origin) : (c.accessFault b o).contents = c.contents := rfl

@[simp] theorem CoreState.push_contents (fc : Nat) (ev : CoreEv) : (c.push fc ev).contents = c.contents := rfl

@[simp] theorem CoreState.result_contents (fc : Nat) (w : RegWrite) (o : Origin) : (c.result fc w o).contents = c.contents := rfl

@[simp] theorem CoreState.claimFor_contents (fill : Bool) (ports : List PortClaim) : (c.claimFor fill ports).contents = c.contents := by
  cases fill <;> rfl

@[simp] theorem CoreState.claimPorts_contents (ports : List PortClaim) : (c.claimPorts ports).contents = c.contents := rfl

@[simp] theorem CoreState.setStreamState_contents (fill : Bool) (v : StreamState) : (c.setStreamState fill v).contents = c.contents := by
  cases fill <;> rfl

@[simp] theorem CoreState.setFrame_contents (fill : Bool) (k : Nat) (v : Frame) : (c.setFrame fill k v).contents = c.contents := by
  cases fill <;> rfl

@[simp] theorem CoreState.countClamps_contents (k : Nat) : (c.countClamps k).contents = c.contents := by
  unfold CoreState.countClamps
  split <;> rfl

@[simp] theorem CoreState.countScalarClamp_contents (b : Bool) : (c.countScalarClamp b).contents = c.contents := by
  cases b <;> rfl

@[simp] theorem CoreState.countEscape_contents (b : Bool) : (c.countEscape b).contents = c.contents := by
  cases b <;> rfl

@[simp] theorem CoreState.countEvents_contents (es : List Event) : (c.countEvents es).contents = c.contents := by
  unfold CoreState.countEvents
  refine foldl_keeps_value CoreState.contents _ (fun d e => ?_) _ _
  unfold CoreState.countEvent
  cases e <;> rfl

@[simp] theorem CoreState.drawLanes_contents (env : Env) (mode : BitVec 2) (stream : Nat) : (c.drawLanes env mode stream).2.contents = c.contents := by
  unfold CoreState.drawLanes
  split <;> rfl

@[simp] theorem CoreState.setBankReady_contents (b : Bool) (f : Nat) : (c.setBankReady b f).contents = c.contents := by
  cases b <;> rfl

@[simp] theorem CoreState.setBankFree_contents (b : Bool) (f : Nat) : (c.setBankFree b f).contents = c.contents := by
  cases b <;> rfl

@[simp] theorem CoreState.heatUp_contents (env : Env) (free ended : Nat) : (c.heatUp env free ended).contents = c.contents := rfl

@[simp] theorem CoreState.enqueue_contents (d : Dest) (o : Origin) (kind : FlitKind) : (c.enqueue d o kind).contents = c.contents := rfl

@[simp] theorem CoreState.waitSub_contents (tally : BitVec 6) (sub : BitVec 1) (thr : BitVec 32) : (c.waitSub tally sub thr).contents = c.contents := by
  unfold CoreState.waitSub
  split <;> rfl

@[simp] theorem CoreState.giveWay_contents (o : Origin) (w : RegClass × Nat) (fc : Nat) : (c.giveWay o w fc).contents = c.contents := by
  unfold CoreState.giveWay
  dsimp only
  split
  · rfl
  · split <;> rfl

/-- Neither way of a choice changes the contents. -/
theorem contents_ite {p : Prop} [Decidable p] {a b d : CoreState} (ha : a.contents = d.contents) (hb : b.contents = d.contents) : (if p then a else b).contents = d.contents := by
  split
  · exact ha
  · exact hb

/-! ### What an operation does once its checks pass -/

variable {c}

theorem CoreState.withRegs_contents (o : Origin) (reads writes : List (RegClass × Nat)) {act : CoreState → CoreState} (h : (act c).contents = c.contents) :
    (c.withRegs o reads writes act).contents = c.contents := by
  unfold CoreState.withRegs
  split
  · exact h
  · rfl

theorem CoreState.withClaims_contents (o : Origin) (ws : List (RegClass × Nat)) (fc : Nat) {act : CoreState → CoreState} (h : ∀ d : CoreState, (act d).contents = d.contents) :
    (c.withClaims o ws fc act).contents = c.contents := by
  unfold CoreState.withClaims
  dsimp only
  split
  · rfl
  · refine (h _).trans (foldl_keeps_value CoreState.contents _ (fun d w => ?_) _ _)
    exact d.giveWay_contents o w fc

theorem CoreState.withAccess_contents (env : Env) (o : Origin) (a : AccessJudged) (ws : List (RegClass × Nat)) (fc : Nat) {act : Bool → CoreState → CoreState}
    (h : ∀ held (d : CoreState), (act held d).contents = d.contents) : (c.withAccess env o a ws fc act).contents = c.contents := by
  unfold CoreState.withAccess
  dsimp only
  split
  · rfl
  · split
    · rfl
    · split
      · rfl
      · split
        · rfl
        · exact CoreState.withClaims_contents o ws fc fun d => (h _ _).trans (d.claimFor_contents o.fill a.ports)

@[simp] theorem CoreState.scalarResult_contents (o : Origin) (reads : List (BitVec 5)) (d : BitVec 5) (lat : Nat) (v : Word) (clamp : Bool) : (c.scalarResult o reads d lat v clamp).contents = c.contents := by
  unfold CoreState.scalarResult
  exact CoreState.withRegs_contents _ _ _ (CoreState.withClaims_contents _ _ _ fun d => by simp)

@[simp] theorem CoreState.addressResult_contents (o : Origin) (reads : List (RegClass × Nat)) (d : BitVec 4) (v : BitVec 32) : (c.addressResult o reads d v).contents = c.contents := by
  unfold CoreState.addressResult
  exact CoreState.withRegs_contents _ _ _ (CoreState.withClaims_contents _ _ _ fun d => d.result_contents _ _ _)

@[simp] theorem CoreState.laneResult_contents (env : Env) (o : Origin) (reads : List (RegClass × Nat)) (d : BitVec 5) (lat : Nat) (mode : BitVec 2) (f : CoreState → Nat → Nat → BitVec 32 × Bool)
    (b : CoreState → Nat → Bool) : (c.laneResult env o reads d lat mode f b).contents = c.contents := by
  unfold CoreState.laneResult
  exact CoreState.withRegs_contents _ _ _ (CoreState.withClaims_contents _ _ _ fun d => by simp)

@[simp] theorem CoreState.maskResult_contents (o : Origin) (reads : List (RegClass × Nat)) (md : BitVec 3) (f : CoreState → MReg) : (c.maskResult o reads md f).contents = c.contents := by
  unfold CoreState.maskResult
  exact CoreState.withRegs_contents _ _ _ (CoreState.withClaims_contents _ _ _ fun d => d.result_contents _ _ _)

@[simp] theorem CoreState.rawLoad_contents (env : Env) (o : Origin) (vec : Bool) (d : BitVec 5) (h : BitVec 6) (ar : BitVec 4) (off : Int) : (c.rawLoad env o vec d h ar off).contents = c.contents := by
  unfold CoreState.rawLoad
  exact CoreState.withRegs_contents _ _ _ (CoreState.withAccess_contents _ _ _ _ _ fun _ d => d.push_contents _ _)

@[simp] theorem CoreState.storeBytes_contents (first : Nat) (h : BitVec 6) (pos : Nat) (places : List (Nat × Nat)) (ws : List (List WByte)) (held : Bool) (o : Origin) :
    (c.storeBytes first h pos places ws held o).contents = c.contents := by
  unfold CoreState.storeBytes
  split
  · rfl
  · exact foldl_keeps_value CoreState.contents _ (fun d p => d.push_contents _ _) _ _

@[simp] theorem CoreState.storePairs_contents (first : Nat) (h : BitVec 6) (src : VReg) (lanes : List (Option (Nat × Nat))) (held : Bool) (o : Origin) :
    (c.storePairs first h src lanes held o).contents = c.contents := by
  unfold CoreState.storePairs
  dsimp only
  split
  · rfl
  · refine foldl_keeps_value CoreState.contents _ (fun d p => ?_) _ _
    split <;> rfl

@[simp] theorem CoreState.rawStore_contents (env : Env) (o : Origin) (src : RegClass × Nat) (h : BitVec 6) (ar : BitVec 4) (off : Int) (data : CoreState → List (Byte × Bool)) :
    (c.rawStore env o src h ar off data).contents = c.contents := by
  unfold CoreState.rawStore
  exact CoreState.withRegs_contents _ _ _ (CoreState.withAccess_contents _ _ _ _ _ fun _ d => CoreState.storeBytes_contents _ _ _ _ _ _ _)

@[simp] theorem CoreState.indexedAccess_contents (env : Env) (o : Origin) (load : Bool) (r : BitVec 5) (h : BitVec 6) (ar : BitVec 4) (ih : BitVec 6) (sx : Bool) :
    (c.indexedAccess env o load r h ar ih sx).contents = c.contents := by
  unfold CoreState.indexedAccess
  refine CoreState.withRegs_contents _ _ _ ?_
  dsimp only
  split
  · rfl
  · exact CoreState.withAccess_contents _ _ _ _ _ fun _ d => d.push_contents _ _

end Contents

/-! ### Slot commands that leave the contents -/

/-- The answers of slot commands whose operation leaves the contents of its core to its landings. -/
inductive QuietShape (s : State) (i : Issue) : Host.Outcome State Fault Refusal → Prop where
  | slot (slot : Nat) (word : Word) (act : Env → Origin → CoreState → CoreState) (h : ∀ env o c, (act env o c).contents = c.contents) : QuietShape s i (slotCommand s i slot word act)
  | wait (opc : BitVec 5) (w : BitVec 27) (exempt : SyncOp → CoreState → Bool) (object : SyncOp → Option (BitVec 16)) (act : Env → SyncOp → Origin → CoreState → CoreState)
    (h : ∀ env op o c, (act env op o c).contents = c.contents) : QuietShape s i (waitCommand s i opc w exempt object act)
  | bar (w : BitVec 27) : QuietShape s i (execBar i w s)
  | cadd (w : BitVec 27) : QuietShape s i (execCadd i w s)
  | cput (w : BitVec 27) : QuietShape s i (execCput i w s)

section Quiet

variable {s : State} {i : Issue}

theorem scalarCommand_quiet {opc : BitVec 6} {w : BitVec 34} {act : ScalarOp → Origin → CoreState → CoreState} (h : ∀ op o c, (act op o c).contents = c.contents) :
    QuietShape s i (scalarCommand s i opc w act) := by
  refine .slot _ _ _ fun env o c => ?_
  cases decodeScalar (opc ++ w) with
  | some op => exact h op o c
  | none => rfl

theorem vectorCommand_quiet {opc : BitVec 8} {w : BitVec 40} {act : Env → VectorOp → Origin → CoreState → CoreState} (h : ∀ env op o c, (act env op o c).contents = c.contents) :
    QuietShape s i (vectorCommand s i opc w act) := by
  refine .slot _ _ _ fun env o c => ?_
  cases decodeVector (opc ++ w) with
  | some op => exact h env op o c
  | none => rfl

theorem matrixCommand_quiet {opc : BitVec 4} {w : BitVec 44} {act : Env → MatrixOp → Origin → CoreState → CoreState} (h : ∀ env op o c, (act env op o c).contents = c.contents) :
    QuietShape s i (matrixCommand s i opc w act) := by
  refine .slot _ _ _ fun env o c => ?_
  cases decodeMatrix (opc ++ w) with
  | some op => exact h env op o c
  | none => rfl

theorem loadCommand_quiet {opc : BitVec 4} {w : BitVec 32} {act : Env → LoadOp → Origin → CoreState → CoreState} (h : ∀ env op o c, (act env op o c).contents = c.contents) :
    QuietShape s i (loadCommand s i opc w act) := by
  refine .slot _ _ _ fun env o c => ?_
  cases decodeLoad (opc ++ w) with
  | some op => exact h env op o c
  | none => rfl

theorem storeCommand_quiet {opc : BitVec 4} {w : BitVec 32} {act : Env → StoreOp → Origin → CoreState → CoreState} (h : ∀ env op o c, (act env op o c).contents = c.contents) :
    QuietShape s i (storeCommand s i opc w act) := by
  refine .slot _ _ _ fun env o c => ?_
  cases decodeStore (opc ++ w) with
  | some op => exact h env op o c
  | none => rfl

theorem syncCommand_quiet {opc : BitVec 5} {w : BitVec 27} {act : Env → SyncOp → Origin → CoreState → CoreState} (h : ∀ env op o c, (act env op o c).contents = c.contents) :
    QuietShape s i (syncCommand s i opc w act) := by
  refine .slot _ _ _ fun env o c => ?_
  cases decodeSync (opc ++ w) with
  | some op => exact h env op o c
  | none => rfl

/-! ### Operations with work of their own at issue -/

theorem execAget_quiet (w : BitVec 34) : QuietShape s i (execAget i w s) :=
  scalarCommand_quiet fun op o c => by
    split
    · exact CoreState.withRegs_contents _ _ _ (CoreState.withClaims_contents _ _ _ fun d => d.result_contents _ _ _)
    · rfl

theorem execLbegin_quiet (w : BitVec 34) : QuietShape s i (execLbegin i w s) :=
  scalarCommand_quiet fun op o c => by
    split
    · exact CoreState.withRegs_contents _ _ _ (contents_ite rfl (by simp))
    · rfl

theorem execLinc_quiet (w : BitVec 34) : QuietShape s i (execLinc i w s) :=
  scalarCommand_quiet fun op o c => by
    split
    · split
      · rfl
      · exact CoreState.withRegs_contents _ _ _ (c.setFrame_contents _ _ _)
    · rfl

theorem execSnext_quiet (w : BitVec 34) : QuietShape s i (execSnext i w s) :=
  scalarCommand_quiet fun op o c => by
    split
    · exact contents_ite rfl (CoreState.withRegs_contents _ _ _ (contents_ite rfl rfl))
    · rfl

theorem execSown_quiet (w : BitVec 34) : QuietShape s i (execSown i w s) :=
  scalarCommand_quiet fun op o c => by
    split
    · exact contents_ite rfl rfl
    · rfl

theorem execVunpk_quiet (w : BitVec 40) : QuietShape s i (execVunpk i w s) :=
  vectorCommand_quiet fun env op o c => by
    split
    · exact CoreState.withRegs_contents _ _ _ (contents_ite rfl (CoreState.withClaims_contents _ _ _ fun d => by simp))
    · rfl

theorem execVpack_quiet (w : BitVec 40) : QuietShape s i (execVpack i w s) :=
  vectorCommand_quiet fun env op o c => by
    split
    · exact CoreState.withRegs_contents _ _ _ (contents_ite rfl (contents_ite rfl (CoreState.withClaims_contents _ _ _ fun d => contents_ite (by simp) (by simp))))
    · rfl

theorem execVlut_quiet (w : BitVec 40) : QuietShape s i (execVlut i w s) :=
  vectorCommand_quiet fun env op o c => by
    split
    · refine CoreState.withRegs_contents _ _ _ (contents_ite rfl (contents_ite rfl (contents_ite rfl ?_)))
      split
      · rfl
      · exact contents_ite rfl (CoreState.withClaims_contents _ _ _ fun d => d.claimFor_contents _ _)
    · rfl

theorem execVget_quiet (w : BitVec 40) : QuietShape s i (execVget i w s) :=
  vectorCommand_quiet fun env op o c => by
    split
    · exact CoreState.withRegs_contents _ _ _ (CoreState.withClaims_contents _ _ _ fun d => by simp)
    · rfl

theorem execMnop_quiet (w : BitVec 44) : QuietShape s i (execMnop i w s) :=
  matrixCommand_quiet fun env op o c => by
    split
    · exact contents_ite rfl rfl
    · rfl

theorem execMload_quiet (w : BitVec 44) : QuietShape s i (execMload i w s) :=
  matrixCommand_quiet fun env op o c => by
    split
    · refine CoreState.withRegs_contents _ _ _ (contents_ite rfl (contents_ite rfl (contents_ite rfl (contents_ite rfl ?_))))
      split
      · rfl
      · split
        · rfl
        · dsimp only
          split
          · rfl
          · exact (CoreState.push_contents _ _ _).trans ((CoreState.setBankReady_contents _ _ _).trans (c.claimPorts_contents _))
    · rfl

theorem execMstream_quiet (w : BitVec 44) : QuietShape s i (execMstream i w s) :=
  matrixCommand_quiet fun env op o c => by
    split
    · refine CoreState.withRegs_contents _ _ _ (contents_ite rfl (contents_ite rfl (contents_ite rfl (contents_ite rfl (contents_ite rfl ?_)))))
      dsimp only
      split
      · rfl
      · exact (CoreState.setBankFree_contents _ _ _).trans (c.heatUp_contents _ _ _)
    · rfl

theorem execMtile_quiet (w : BitVec 44) : QuietShape s i (execMtile i w s) :=
  matrixCommand_quiet fun env op o c => by
    split
    · refine CoreState.withRegs_contents _ _ _ (contents_ite rfl (contents_ite rfl (contents_ite rfl (contents_ite rfl (contents_ite rfl ?_)))))
      dsimp only
      split
      · rfl
      · refine (foldl_keeps_value CoreState.contents _ (fun d p => ?_) _ _).trans ((foldl_keeps_value CoreState.contents _ (fun d b => ?_) _ _).trans rfl)
        · rfl
        · split
          · exact d.setBankFree_contents _ _
          · rfl
    · rfl

theorem execManchor_quiet (w : BitVec 44) : QuietShape s i (execManchor i w s) :=
  matrixCommand_quiet fun env op o c => by
    split
    · exact contents_ite rfl rfl
    · rfl

theorem execMread_quiet (w : BitVec 44) : QuietShape s i (execMread i w s) :=
  matrixCommand_quiet fun env op o c => by
    split
    · exact CoreState.withRegs_contents _ _ _ (contents_ite rfl (contents_ite rfl (CoreState.withClaims_contents _ _ _ fun d => d.drawLanes_contents _ _ _)))
    · rfl

theorem execMprobe_quiet (w : BitVec 44) : QuietShape s i (execMprobe i w s) :=
  matrixCommand_quiet fun env op o c => by
    split
    · exact CoreState.withRegs_contents _ _ _ (contents_ite rfl (CoreState.withClaims_contents _ _ _ fun d => d.push_contents _ _))
    · rfl

theorem execLdvs_quiet (w : BitVec 32) : QuietShape s i (execLdvs i w s) :=
  loadCommand_quiet fun env op o c => by
    split
    · exact contents_ite rfl (CoreState.withRegs_contents _ _ _ (CoreState.withAccess_contents _ _ _ _ _ fun _ d => d.push_contents _ _))
    · rfl

theorem execStvs_quiet (w : BitVec 32) : QuietShape s i (execStvs i w s) :=
  storeCommand_quiet fun env op o c => by
    split
    · exact contents_ite rfl (CoreState.withRegs_contents _ _ _ (CoreState.withAccess_contents _ _ _ _ _ fun _ d => CoreState.storePairs_contents _ _ _ _ _ _))
    · rfl

theorem execWait_quiet (w : BitVec 27) : QuietShape s i (execWait i w s) :=
  .wait _ _ _ _ _ fun env op o c => by
    split
    · exact c.waitSub_contents _ _ _
    · exact CoreState.withRegs_contents _ _ _ (c.waitSub_contents _ _ _)
    · rfl

theorem execTadd_quiet (w : BitVec 27) : QuietShape s i (execTadd i w s) :=
  syncCommand_quiet fun env op o c => by
    split
    · rfl
    · exact CoreState.withRegs_contents _ _ _ rfl
    · rfl

theorem execSig_quiet (w : BitVec 27) : QuietShape s i (execSig i w s) :=
  syncCommand_quiet fun env op o c => by
    split
    · refine CoreState.withRegs_contents _ _ _ ?_
      dsimp only
      split
      · rfl
      · split <;> rfl
    · rfl

theorem execPost_quiet (w : BitVec 27) : QuietShape s i (execPost i w s) :=
  .wait _ _ _ _ _ fun env op o c => by
    split
    · refine CoreState.withRegs_contents _ _ _ ?_
      dsimp only
      split <;> rfl
    · rfl

theorem execSelect_quiet (w : BitVec 27) : QuietShape s i (execSelect i w s) :=
  .wait _ _ _ _ _ fun env op o c => by
    split
    · split
      · rfl
      · exact CoreState.withRegs_contents _ _ _ (CoreState.withClaims_contents _ _ _ fun _ => rfl)
    · rfl

theorem execRelease_quiet (w : BitVec 27) : QuietShape s i (execRelease i w s) :=
  syncCommand_quiet fun env op o c => by
    split
    · exact contents_ite rfl rfl
    · rfl

theorem execCwait_quiet (w : BitVec 27) : QuietShape s i (execCwait i w s) :=
  .wait _ _ _ _ _ fun env op o c => by
    split
    · exact CoreState.withRegs_contents _ _ _ (contents_ite rfl (contents_ite rfl rfl))
    · rfl

theorem execCtake_quiet (w : BitVec 27) : QuietShape s i (execCtake i w s) :=
  .wait _ _ _ _ _ fun env op o c => by
    split
    · exact contents_ite rfl (CoreState.withRegs_contents _ _ _ (CoreState.withClaims_contents _ _ _ fun _ => rfl))
    · rfl

theorem execAmsg_quiet (w : BitVec 27) : QuietShape s i (execAmsg i w s) :=
  .wait _ _ _ _ _ fun env op o c => by
    split
    · refine CoreState.withRegs_contents _ _ _ ?_
      split
      · rfl
      · exact contents_ite rfl rfl
    · rfl

/-- Every slot row answers in a shape that leaves the contents of its core. -/
theorem exec_quietShape {row : Instr} (h : SlotRow i row) : QuietShape s i (exec row s) := by
  cases row with
  | snop => cases h; exact scalarCommand_quiet fun _ _ _ => rfl
  | sadd | saddi | smul | slogic | sshift | sminmax | scmp | ssel | slui | smovi | sfeat | amov | aadd => cases h; exact scalarCommand_quiet fun op o c => by split <;> simp
  | vnop => cases h; exact vectorCommand_quiet fun _ _ _ _ => rfl
  | vadd | vmul | vmulh | vshift | vlogic | vminmax | vcount | vcmp | vsel | vperm | vmovi | vsplat | mset | mlogic => cases h; exact vectorCommand_quiet fun env op o c => by split <;> simp
  | lnop => cases h; exact loadCommand_quiet fun _ _ _ _ => rfl
  | ldv | lds | ldvg => cases h; exact loadCommand_quiet fun env op o c => by split <;> simp
  | snopst => cases h; exact storeCommand_quiet fun _ _ _ _ => rfl
  | stv | sts | stvg => cases h; exact storeCommand_quiet fun env op o c => by split <;> simp
  | synop => cases h; exact syncCommand_quiet fun _ _ _ _ => rfl
  | test => cases h; exact syncCommand_quiet fun env op o c => by split <;> simp
  | aget => cases h; exact execAget_quiet _
  | lbegin => cases h; exact execLbegin_quiet _
  | linc => cases h; exact execLinc_quiet _
  | snext => cases h; exact execSnext_quiet _
  | sown => cases h; exact execSown_quiet _
  | vunpk => cases h; exact execVunpk_quiet _
  | vpack => cases h; exact execVpack_quiet _
  | vlut => cases h; exact execVlut_quiet _
  | vget => cases h; exact execVget_quiet _
  | mnop => cases h; exact execMnop_quiet _
  | mload => cases h; exact execMload_quiet _
  | mstream => cases h; exact execMstream_quiet _
  | mtile => cases h; exact execMtile_quiet _
  | manchor => cases h; exact execManchor_quiet _
  | mread => cases h; exact execMread_quiet _
  | mprobe => cases h; exact execMprobe_quiet _
  | ldvs => cases h; exact execLdvs_quiet _
  | stvs => cases h; exact execStvs_quiet _
  | wait => cases h; exact execWait_quiet _
  | tadd => cases h; exact execTadd_quiet _
  | sig => cases h; exact execSig_quiet _
  | post => cases h; exact execPost_quiet _
  | select => cases h; exact execSelect_quiet _
  | release => cases h; exact execRelease_quiet _
  | cwait => cases h; exact execCwait_quiet _
  | ctake => cases h; exact execCtake_quiet _
  | amsg => cases h; exact execAmsg_quiet _
  | bar => cases h; exact .bar _
  | cadd => cases h; exact .cadd _
  | cput => cases h; exact .cput _
  | _ => cases h

end Quiet

/-! ### The rest of the module -/

/-- What a slot operation of core `cid` leaves of the module: everything but the core, the mesh, the barrier rounds and commons requests of its plot, and the queues of writes. -/
structure SlotFrame (s t : State) (cid : CoreId) : Prop where
  others : ∀ q : CoreId, q ≠ cid → t.core q = s.core q
  owner : (t.core cid).owner = (s.core cid).owner
  hub : t.hub = s.hub
  fields : t.fields = s.fields
  fieldHold : t.fieldHold = s.fieldHold
  edges : t.edges = s.edges
  ports : t.ports = s.ports
  system : t.system = s.system
  commons : t.commons = s.commons
  grade : t.grade = s.grade
  pending : t.pending = s.pending
  plots : ∀ fn : Fn, fn ≠ (s.core cid).owner.getD 0 → t.plot fn = s.plot fn
  plot : ∀ fn : Fn, ∃ (r : AMap BarRound) (q : List CommonsReq), t.plot fn = { s.plot fn with rounds := r, commons.requests := q }
  channel : ∀ ch : ChanId, ∃ w : List WriteUnit, t.channel ch = { s.channel ch with writes := w }

theorem SlotFrame.refl (s : State) (cid : CoreId) : SlotFrame s s cid :=
  ⟨fun _ _ => rfl, rfl, rfl, rfl, rfl, rfl, rfl, rfl, rfl, rfl, rfl, fun _ _ => rfl, fun _ => ⟨_, _, rfl⟩, fun _ => ⟨_, rfl⟩⟩

theorem SlotFrame.trans {s t u : State} {cid : CoreId} (h : SlotFrame s t cid) (k : SlotFrame t u cid) : SlotFrame s u cid where
  others q hq := (k.others q hq).trans (h.others q hq)
  owner := k.owner.trans h.owner
  hub := k.hub.trans h.hub
  fields := k.fields.trans h.fields
  fieldHold := k.fieldHold.trans h.fieldHold
  edges := k.edges.trans h.edges
  ports := k.ports.trans h.ports
  system := k.system.trans h.system
  commons := k.commons.trans h.commons
  grade := k.grade.trans h.grade
  pending := k.pending.trans h.pending
  plots fn hfn := (k.plots fn (h.owner ▸ hfn)).trans (h.plots fn hfn)
  plot fn := by
    obtain ⟨r, q, hk⟩ := k.plot fn
    obtain ⟨r', q', hh⟩ := h.plot fn
    exact ⟨r, q, by rw [hk, hh]⟩
  channel ch := by
    obtain ⟨w, hk⟩ := k.channel ch
    obtain ⟨w', hh⟩ := h.channel ch
    exact ⟨w, by rw [hk, hh]⟩

section Frame

variable {s t : State} {cid : CoreId}

theorem State.setCore_slotFrame {v : CoreState} (h : v.owner = (s.core cid).owner) : SlotFrame s (s.setCore cid v) cid :=
  { SlotFrame.refl s cid with
    others := fun _ hq => State.setCore_core_ne s v hq
    owner := (congrArg CoreState.owner (State.setCore_core_same s cid v)).trans h
    plots := fun _ _ => rfl
    plot := fun _ => ⟨_, _, rfl⟩
    channel := fun _ => ⟨_, rfl⟩ }

/-- What a core sends to its channels joins their queues of writes. -/
theorem State.queueWrites_slotFrame (l : List WriteUnit) : SlotFrame s (l.foldl (fun (s : State) (w : WriteUnit) => s.setChannel w.chan ((s.channel w.chan).addWrite { w with core := cid })) s) cid := by
  induction l generalizing s with
  | nil => exact .refl s cid
  | cons w l ih =>
    refine SlotFrame.trans ?_ ih
    refine { SlotFrame.refl s cid with plots := fun _ _ => rfl, plot := fun _ => ⟨_, _, rfl⟩, channel := fun ch => ?_ }
    by_cases hch : ch = w.chan
    · subst hch
      exact ⟨_, State.setChannel_channel_same s _ _⟩
    · exact ⟨_, State.setChannel_channel_ne s _ hch⟩

theorem State.drainOutbox_slotFrame : SlotFrame s (s.drainOutbox cid) cid := by
  have hqueued : SlotFrame s _ cid := State.queueWrites_slotFrame (s := s) (cid := cid) (s.core cid).traffic.unitsOut
  unfold State.drainOutbox
  dsimp only
  refine hqueued.trans ?_
  generalize List.foldl _ s (s.core cid).traffic.unitsOut = u at hqueued ⊢
  generalize List.foldl _ s.mesh (s.core cid).traffic.outbox = m
  have hmesh : SlotFrame u { u with mesh := m } cid := ⟨fun _ _ => rfl, rfl, rfl, rfl, rfl, rfl, rfl, rfl, rfl, rfl, rfl, fun _ _ => rfl, fun _ => ⟨_, _, rfl⟩, fun _ => ⟨_, rfl⟩⟩
  exact hmesh.trans (State.setCore_slotFrame hqueued.owner.symm)

/-- A change of a core that keeps its owner leaves the rest. -/
theorem State.onCore_slotFrame {f : Env → CoreState → CoreState} (h : (f (s.env cid) (s.core cid)).owner = (s.core cid).owner) : SlotFrame s (s.onCore cid f) cid :=
  (State.setCore_slotFrame h).trans State.drainOutbox_slotFrame

theorem State.onCore_contents (f : Env → CoreState → CoreState) : ((s.onCore cid f).core cid).contents = (f (s.env cid) (s.core cid)).contents := by
  rw [State.onCore_core]
  rfl

theorem CoreState.contents_owner {c d : CoreState} (h : d.contents = c.contents) : d.owner = c.owner := congrArg Prod.fst h

/-! ### Slot commands -/

variable {i : Issue}

theorem CoreState.presented_owner (c : CoreState) (env : Env) (i : Issue) : (c.presented env i).owner = c.owner := (c.presented_keeps env i).owner

theorem CoreState.openBundle_owner (c : CoreState) (env : Env) (fill : Bool) (h : BundleHead) (ready : CoreState → Bool) : (c.openBundle env fill h ready).owner = c.owner := by
  unfold CoreState.openBundle
  dsimp only
  split
  · exact (CoreState.setStreamState_keeps _ _ _).owner.trans (c.runTo_owner env _)
  · exact (CoreState.issueBundle_keeps _ _ _).owner.trans (c.runTo_owner env _)

theorem CoreState.inBundle_contents {c : CoreState} {env : Env} {slot : Nat} {word : Word} {act : Origin → CoreState → CoreState} (h : ∀ o c, (act o c).contents = c.contents) :
    (c.inBundle env i slot word act).contents = (c.presented env i).contents := by
  unfold CoreState.inBundle
  dsimp only
  split
  · exact h _ _
  · rfl

theorem CoreState.inBundle_owner {c : CoreState} {env : Env} {slot : Nat} {word : Word} {act : Origin → CoreState → CoreState} (h : ∀ o c, (act o c).contents = c.contents) :
    (c.inBundle env i slot word act).owner = c.owner :=
  (CoreState.contents_owner (CoreState.inBundle_contents h)).trans (c.presented_owner env i)

/-- A command of a core answers a next state only with the core's change, or with nothing changed. -/
theorem coreCommand_next {f : Env → CoreState → CoreState} (h : coreCommand s cid f = .next t) : t = s ∨ t = s.onCore cid f := by
  obtain ⟨-, hc⟩ | ⟨-, -, hc⟩ | ⟨-, -, hc⟩ := coreCommand_cases s cid f
  · rw [hc] at h; cases h
  · rw [hc] at h; cases h; exact .inl rfl
  · rw [hc] at h; cases h; exact .inr rfl

/-- What a slot command leaves as it was: the rest of the module, and the contents of its core when it is not the first of its bundle. -/
def SlotLeaves (s t : State) (i : Issue) : Prop := SlotFrame s t i.core ∧ (i.head = none → (t.core i.core).contents = (s.core i.core).contents)

theorem SlotLeaves.refl (s : State) (i : Issue) : SlotLeaves s s i := ⟨.refl s i.core, fun _ => rfl⟩

theorem SlotLeaves.trans {u : State} (h : SlotLeaves s t i) (k : SlotLeaves t u i) : SlotLeaves s u i := ⟨h.1.trans k.1, fun hh => (k.2 hh).trans (h.2 hh)⟩

theorem State.onCore_slotLeaves {f : Env → CoreState → CoreState} (howner : (f (s.env i.core) (s.core i.core)).owner = (s.core i.core).owner)
    (hcontents : i.head = none → (f (s.env i.core) (s.core i.core)).contents = (s.core i.core).contents) : SlotLeaves s (s.onCore i.core f) i :=
  ⟨State.onCore_slotFrame howner, fun hh => (State.onCore_contents f).trans (hcontents hh)⟩

theorem coreCommand_slotLeaves {f : Env → CoreState → CoreState} (h : coreCommand s i.core f = .next t) (howner : (f (s.env i.core) (s.core i.core)).owner = (s.core i.core).owner)
    (hcontents : i.head = none → (f (s.env i.core) (s.core i.core)).contents = (s.core i.core).contents) : SlotLeaves s t i := by
  obtain rfl | rfl := coreCommand_next h
  · exact .refl t i
  · exact State.onCore_slotLeaves howner hcontents

theorem CoreState.presented_next {c : CoreState} {env : Env} (h : i.head = none) : c.presented env i = c := by
  unfold CoreState.presented
  rw [h]

theorem CoreState.inBundle_next {c : CoreState} {env : Env} {slot : Nat} {word : Word} {act : Origin → CoreState → CoreState} (hact : ∀ o c, (act o c).contents = c.contents) (h : i.head = none) :
    (c.inBundle env i slot word act).contents = c.contents := by
  rw [CoreState.inBundle_contents hact, CoreState.presented_next h]

theorem waitCommand_slotLeaves {opc : BitVec 5} {w : BitVec 27} {exempt : SyncOp → CoreState → Bool} {object : SyncOp → Option (BitVec 16)} {act : Env → SyncOp → Origin → CoreState → CoreState}
    (hact : ∀ env op o c, (act env op o c).contents = c.contents) (h : waitCommand s i opc w exempt object act = .next t) : SlotLeaves s t i := by
  have hrun (env : Env) : ∀ o c, (match decodeSync (opc ++ w) with | some op => if c.syncReady op || exempt op c then act env op o c else c | none => c.issueFault 0x2007 o : CoreState).contents = c.contents := fun o c => by
    split
    · exact contents_ite (hact _ _ _ _) rfl
    · rfl
  refine coreCommand_slotLeaves h ?_ ?_
  · dsimp only
    split
    · exact CoreState.inBundle_owner (hrun _)
    · split
      · exact CoreState.runTo_owner _ _ _
      · exact (CoreState.inBundle_owner (hrun _)).trans ((CoreState.openBundle_owner _ _ _ _ _).trans (CoreState.runTo_owner _ _ _))
  · intro hh
    dsimp only
    rw [hh]
    exact CoreState.inBundle_next (hrun _) rfl

/-- A sync operation that also acts outside its core leaves what its own part leaves. -/
theorem outerCommand_slotLeaves {opc : BitVec 5} {w : BitVec 27} {act : State → SyncOp → Origin → State} (hact : ∀ u op o, SlotLeaves u (act u op o) i) (h : outerCommand s i opc w act = .next t) :
    SlotLeaves s t i := by
  have hopens : ∀ o c, (if (decodeSync (opc ++ w)).isSome then c else c.issueFault 0x2007 o : CoreState).contents = c.contents := fun o c => contents_ite rfl rfl
  have hopened : SlotLeaves s (openSync s i opc w).1 i := by
    unfold openSync
    dsimp only
    have hbundle : SlotLeaves s (s.onCore i.core (fun env c => c.inBundle env i 6 (syncWord opc w) (fun o c => if (decodeSync (opc ++ w)).isSome then c else c.issueFault 0x2007 o))) i :=
      State.onCore_slotLeaves (CoreState.inBundle_owner hopens) fun hh => CoreState.inBundle_next hopens hh
    generalize s.onCore i.core (fun env c => c.inBundle env i 6 (syncWord opc w) (fun o c => if (decodeSync (opc ++ w)).isSome then c else c.issueFault 0x2007 o)) = u at hbundle ⊢
    split <;> exact hbundle
  unfold outerCommand at h
  split at h
  · cases h
  · split at h
    · cases h; exact .refl s i
    · split at h
      · next u o op hu =>
        cases h
        rw [hu] at hopened
        exact hopened.trans (hact u op o)
      · next u hu =>
        cases h
        rw [hu] at hopened
        exact hopened

theorem State.modCore_slotLeaves (u : State) {g : CoreState → CoreState} (h : (g (u.core i.core)).contents = (u.core i.core).contents) : SlotLeaves u (u.modCore i.core g) i :=
  ⟨State.setCore_slotFrame (CoreState.contents_owner h), fun _ => (congrArg CoreState.contents (State.setCore_core_same u _ _)).trans h⟩

theorem State.coreFault_slotLeaves (u : State) (code : Code) (o : Origin) : SlotLeaves u (u.coreFault i.core code o) i :=
  u.modCore_slotLeaves rfl

theorem State.orphanFault_slotLeaves (u : State) (object : BitVec 16) (mailbox : Fn) (o : Origin) : SlotLeaves u (u.orphanFault i.core object mailbox o) i :=
  u.modCore_slotLeaves rfl

/-- A change of the rounds and requests of the core's own plot. -/
theorem State.setPlot_slotLeaves (u : State) {fn : Fn} {r : AMap BarRound} {q : List CommonsReq} (h : fn = (u.core i.core).owner.getD 0) :
    SlotLeaves u (u.setPlot fn { u.plot fn with rounds := r, commons.requests := q }) i := by
  refine ⟨{ SlotFrame.refl u i.core with plots := fun f hf => State.setPlot_plot_ne u _ (h ▸ hf), plot := fun f => ?_, channel := fun _ => ⟨_, rfl⟩ }, fun _ => rfl⟩
  by_cases hf : f = fn
  · subst hf
    exact ⟨_, _, State.setPlot_plot_same u _ _⟩
  · exact ⟨_, _, State.setPlot_plot_ne u _ hf⟩

theorem State.commonsRequest_slotLeaves (u : State) (o : Origin) (allowed orphan : Bool) (object : BitVec 16) (r : CommonsReq) : SlotLeaves u (u.commonsRequest i.core o allowed orphan object r) i := by
  unfold State.commonsRequest
  dsimp only
  split
  · exact u.coreFault_slotLeaves _ _
  · split
    · exact u.orphanFault_slotLeaves _ _ _
    · split
      · exact u.coreFault_slotLeaves _ _
      · exact u.setPlot_slotLeaves rfl

theorem execBar_slotLeaves {w : BitVec 27} (h : execBar i w s = .next t) : SlotLeaves s t i := by
  refine outerCommand_slotLeaves (fun u op o => ?_) h
  split
  · dsimp only
    split
    · exact u.coreFault_slotLeaves _ _
    · exact SlotLeaves.trans (u.setPlot_slotLeaves rfl) (State.modCore_slotLeaves _ rfl)
  · exact .refl u i

theorem execCadd_slotLeaves {w : BitVec 27} (h : execCadd i w s = .next t) : SlotLeaves s t i := by
  refine outerCommand_slotLeaves (fun u op o => ?_) h
  split
  · exact u.commonsRequest_slotLeaves _ _ _ _ _
  · exact .refl u i

theorem execCput_slotLeaves {w : BitVec 27} (h : execCput i w s = .next t) : SlotLeaves s t i := by
  refine outerCommand_slotLeaves (fun u op o => ?_) h
  split
  · dsimp only
    split
    · exact u.coreFault_slotLeaves _ _
    · exact u.commonsRequest_slotLeaves _ _ _ _ _
  · exact .refl u i

/-- Every slot row leaves the rest of the module, and the contents of its core to its landings. -/
theorem slotRow_slotLeaves {row : Instr} (hrow : SlotRow i row) (h : exec row s = .next t) : SlotLeaves s t i := by
  have hshape := exec_quietShape (s := s) hrow
  generalize exec row s = answer at hshape h
  cases hshape with
  | slot slot word act hact => exact coreCommand_slotLeaves h (CoreState.inBundle_owner (hact _)) (CoreState.inBundle_next (hact _))
  | wait opc w exempt object act hact => exact waitCommand_slotLeaves hact h
  | bar w => exact execBar_slotLeaves h
  | cadd w => exact execCadd_slotLeaves h
  | cput w => exact execCput_slotLeaves h

/-! ### Loop ends and stop bundles -/

theorem loopEnd_contents (fill : Bool) (pc n : Nat) (c : CoreState) (incs : List (Nat × Int)) : (loopEnd fill pc n c incs).1.contents = c.contents := by
  induction n generalizing c incs with
  | zero => rfl
  | succ n ih =>
    unfold loopEnd
    dsimp only
    split
    · exact c.setFrame_contents _ _ _
    · exact (ih _ _).trans ((CoreState.setStreamState_contents _ _ _).trans (c.setFrame_contents _ _ _))

theorem CoreState.closeLoops_contents (c : CoreState) (o : Origin) : (c.closeLoops o).contents = c.contents := by
  have hclosed := fun (st : StreamState) (pc n : Nat) => (CoreState.setStreamState_contents (loopEnd o.fill pc n c []).1 o.fill st).trans (loopEnd_contents o.fill pc n c [])
  unfold CoreState.closeLoops
  refine contents_ite rfl (contents_ite rfl ?_)
  dsimp only
  split
  · exact hclosed _ _ _
  · exact hclosed _ _ _

theorem CoreState.stopStream_contents (c : CoreState) (fill pendingEntry roundOpen : Bool) : (c.stopStream fill pendingEntry roundOpen).contents = c.contents := by
  unfold CoreState.stopStream
  refine contents_ite rfl ?_
  split
  · rfl
  · exact c.setStreamState_contents _ _

theorem execLoopEnd_slotLeaves (h : execLoopEnd i s = .next t) : SlotLeaves s t i := by
  have hclosed (env : Env) (c : CoreState) : (if (c.presented env i).bundleLive i.fill then (c.presented env i).closeLoops (((c.presented env i).stream i.fill).origin i.fill 0 (((c.presented env i).stream i.fill).header.setWidth 64)) else c.presented env i : CoreState).contents = (c.presented env i).contents :=
    contents_ite (CoreState.closeLoops_contents _ _) rfl
  refine coreCommand_slotLeaves h ((CoreState.contents_owner (hclosed _ _)).trans (CoreState.presented_owner _ _ _)) fun hh => (hclosed _ _).trans ?_
  rw [CoreState.presented_next hh]

theorem execStopBundle_slotLeaves (h : execStopBundle i s = .next t) : SlotLeaves s t i := by
  unfold execStopBundle at h
  split at h
  · cases h
  · split at h
    · cases h; exact .refl s i
    · cases h
      have hopened : SlotLeaves s (s.onCore i.core (fun env c => c.presented env i)) i :=
        State.onCore_slotLeaves (CoreState.presented_owner _ _ _) fun hh => congrArg CoreState.contents (CoreState.presented_next hh)
      refine hopened.trans ?_
      generalize s.onCore i.core (fun env c => c.presented env i) = u
      have hstops : ((if (u.core i.core).bundleLive i.fill then (u.core i.core).stopStream i.fill (u.entryPending i.core) (u.roundOpen i.core) else u.core i.core : CoreState)).contents = (u.core i.core).contents :=
        contents_ite (CoreState.stopStream_contents _ _ _ _) rfl
      exact State.onCore_slotLeaves (CoreState.contents_owner hstops) fun _ => hstops

end Frame

end Sys2Proof.Machine

namespace Sys2Proof.Claims

open Sys2Proof.Machine

/-- Settles O30: every slot row, loop end and stop bundle leaves the rest of the module, and the contents of its core to its landings. -/
theorem slotOperationsKeepEverythingElse : Obligations.SlotOperationsKeepEverythingElse := by
  unfold Obligations.SlotOperationsKeepEverythingElse
  intro s t i row hrow h
  have hleaves : SlotLeaves s t i := by
    obtain hrow | rfl | rfl := hrow
    · exact slotRow_slotLeaves hrow h
    · exact execLoopEnd_slotLeaves h
    · exact execStopBundle_slotLeaves h
  obtain ⟨⟨others, -, hub, fields, fieldHold, edges, ports, system, commons, grade, pending, plots, plot, channel⟩, hcontents⟩ := hleaves
  refine ⟨others, hub, fields, fieldHold, edges, ports, system, commons, grade, pending, plots, fun fn => ?_, fun ch => ?_, fun hh => ?_⟩
  · obtain ⟨r, q, hplot⟩ := plot fn
    rw [hplot]
  · obtain ⟨w, hch⟩ := channel ch
    rw [hch]
  · have hc := hcontents hh
    obtain ⟨-, -, hmem, hs, ha, hv, hm, ht, hg, hr⟩ : _ ∧ _ ∧ _ ∧ _ ∧ _ ∧ _ ∧ _ ∧ _ ∧ _ ∧ _ := by simpa only [CoreState.contents, Prod.mk.injEq] using hc
    refine ⟨fun a => ?_, fun r => ?_, fun r => ?_, fun r => ?_, fun r => ?_, fun q => ?_, hg, hr⟩
    · exact congrArg (AMap.get 0 · a) hmem
    · exact congrArg (fun x : AMap Word => if r = 0 then 0 else AMap.get 0 x r.toNat) hs
    · exact congrArg (fun x : AMap (BitVec 32) => if r = 0 then 0 else AMap.get 0 x r.toNat) ha
    · exact congrArg (fun x : AMap VReg => AMap.get {} x r.toNat) hv
    · exact congrArg (fun x : AMap MReg => AMap.get {} x r.toNat) hm
    · exact congrArg (AMap.get 0 · q.toNat) ht

end Sys2Proof.Claims
end

section
/-! Handlers, doze and the commons as a core meets them (R253, R271 to R279). -/

namespace Sys2Proof.Machine

open Claims (became)

/-! ### Writes of scalar registers -/

theorem CoreState.readS_writeS (c : CoreState) (r q : BitVec 5) (v : Word) : (c.writeS q v).readS r = if r = q ∧ r ≠ 0 then v else c.readS r := by
  have hkey (d : CoreState) : (d.keyWritten q).work.s = d.work.s := by
    unfold CoreState.keyWritten
    split
    · rfl
    · split <;> rfl
  unfold CoreState.writeS
  by_cases hq : q = 0
  · subst hq
    rw [if_pos rfl, if_neg (fun h => h.2 h.1)]
  · rw [if_neg hq]
    unfold CoreState.readS
    rw [hkey]
    by_cases hrq : r = q
    · subst hrq
      rw [if_neg hq, if_pos ⟨rfl, hq⟩]
      exact AMap.get_put_same _ _ _ _
    · have hne : r.toNat ≠ q.toNat := fun h => hrq (BitVec.eq_of_toNat_eq h)
      simp [hrq, AMap.get_put_ne _ _ _ hne]

/-- What a write of a scalar register leaves of a core: everything but the scalar registers and the counts of draws. -/
structure ScalarFrame (c d : CoreState) : Prop where
  a : d.work.a = c.work.a
  v : d.work.v = c.work.v
  m : d.work.m = c.work.m
  mem : d.work.mem = c.work.mem
  tallies : d.work.tallies = c.work.tallies
  step : d.step = c.step
  traffic : d.traffic = c.traffic

theorem ScalarFrame.trans {c d e : CoreState} (h : ScalarFrame c d) (k : ScalarFrame d e) : ScalarFrame c e :=
  ⟨k.a.trans h.a, k.v.trans h.v, k.m.trans h.m, k.mem.trans h.mem, k.tallies.trans h.tallies, k.step.trans h.step, k.traffic.trans h.traffic⟩

theorem CoreState.writeS_scalarFrame (c : CoreState) (q : BitVec 5) (v : Word) : ScalarFrame c (c.writeS q v) := by
  unfold CoreState.writeS CoreState.keyWritten
  split
  · exact ⟨rfl, rfl, rfl, rfl, rfl, rfl, rfl⟩
  · split
    · exact ⟨rfl, rfl, rfl, rfl, rfl, rfl, rfl⟩
    · split <;> exact ⟨rfl, rfl, rfl, rfl, rfl, rfl, rfl⟩

/-- The scalar registers of a handler: the header in S1, the words of its message in S2 to S5 (R271). -/
def CoreState.handlerRegs (c : CoreState) (m : Message) : CoreState :=
  (List.range 4).foldl (fun (c : CoreState) j => c.writeS (BitVec.ofNat 5 (2 + j)) (m.words.getD j 0)) (c.writeS 1 m.header)

theorem CoreState.handlerRegs_scalarFrame (c : CoreState) (m : Message) : ScalarFrame c (c.handlerRegs m) := by
  unfold CoreState.handlerRegs
  simp only [List.range_succ, List.range_zero, List.nil_append, List.cons_append, List.foldl_cons, List.foldl_nil]
  exact ((((c.writeS_scalarFrame _ _).trans (CoreState.writeS_scalarFrame _ _ _)).trans (CoreState.writeS_scalarFrame _ _ _)).trans (CoreState.writeS_scalarFrame _ _ _)).trans (CoreState.writeS_scalarFrame _ _ _)

theorem CoreState.handlerRegs_readS (c : CoreState) (m : Message) (r : BitVec 5) :
    (c.handlerRegs m).readS r =
      if r = 1#5 then m.header else if r = 2#5 then m.words.getD 0 0 else if r = 3#5 then m.words.getD 1 0 else if r = 4#5 then m.words.getD 2 0 else if r = 5#5 then m.words.getD 3 0 else c.readS r := by
  unfold CoreState.handlerRegs
  simp only [List.range_succ, List.range_zero, List.nil_append, List.cons_append, List.foldl_cons, List.foldl_nil, CoreState.readS_writeS]
  by_cases h1 : r = 1#5
  · subst h1; simp
  by_cases h2 : r = 2#5
  · subst h2; simp
  by_cases h3 : r = 3#5
  · subst h3; simp
  by_cases h4 : r = 4#5
  · subst h4; simp
  by_cases h5 : r = 5#5
  · subst h5; simp
  simp [h1, h2, h3, h4, h5]

/-! ### Requests of the commons -/

/-- The oldest request of a core that was not accepted is the one that becomes so. -/
theorem accept_oldest {cid : CoreId} {before after : List CommonsReq} {r : CommonsReq} (hcore : r.core = cid) (hopen : r.accepted = false) (hbefore : ∀ q ∈ before, q.core = cid → q.accepted = true) :
    (before ++ r :: after).foldl (fun (p : List CommonsReq × Bool) (r : CommonsReq) =>
      if !p.2 && r.core == cid && !r.accepted then (p.1 ++ [{ r with accepted := true }], true) else (p.1 ++ [r], p.2)) ([], false) =
      (before ++ { r with accepted := true } :: after, true) := by
  have hskip (l : List CommonsReq) (done : List CommonsReq) (hl : ∀ q ∈ l, q.core = cid → q.accepted = true) :
      l.foldl (fun (p : List CommonsReq × Bool) (r : CommonsReq) => if !p.2 && r.core == cid && !r.accepted then (p.1 ++ [{ r with accepted := true }], true) else (p.1 ++ [r], p.2)) (done, false) = (done ++ l, false) := by
    induction l generalizing done with
    | nil => simp
    | cons q l ih =>
      have hq : ¬ (!false && q.core == cid && !q.accepted) = true := by
        simpa using hl q List.mem_cons_self
      rw [List.foldl_cons, if_neg hq, ih _ fun q' hq' => hl q' (List.mem_cons_of_mem _ hq'), List.append_assoc, List.singleton_append]
  have hrest (l : List CommonsReq) (done : List CommonsReq) :
      l.foldl (fun (p : List CommonsReq × Bool) (r : CommonsReq) => if !p.2 && r.core == cid && !r.accepted then (p.1 ++ [{ r with accepted := true }], true) else (p.1 ++ [r], p.2)) (done, true) = (done ++ l, true) := by
    induction l generalizing done with
    | nil => simp
    | cons q l ih =>
      rw [List.foldl_cons, if_neg (by simp), ih, List.append_assoc, List.singleton_append]
  rw [List.foldl_append, hskip before [] hbefore, List.foldl_cons, if_pos (by simp [hcore, hopen]), hrest]
  simp

/-! ### The five commands -/

/-- The core as the handler of its oldest message starts (R271, R272). -/
def CoreState.handlerStarted (c : CoreState) (m : Message) (rest : List Message) : CoreState :=
  CoreState.handlerRegs { c with traffic.amQueue := rest, step.main := { next := fieldOf (AMap.get 0 c.tables.handler m.handler.toNat) 0 13, issued := true, cancelled := true, curFc := c.step.offset } } m

section Commands

variable {s : State} {cid : CoreId} {dt : Nat}

/-- A command of a core whose step runs makes its change. -/
theorem coreCommand_became {f : Env → CoreState → CoreState} {d : CoreState} (hruns : Claims.Runs s cid) (h : f (s.env cid) (s.core cid) = d) : coreCommand s cid f = .next (became s cid d) := by
  rw [coreCommand_running f hruns.1 hruns.2, ← h]
  rfl

theorem execHandlerStart_starts {m : Message} {rest : List Message} (hruns : Claims.Runs s cid) (hqueue : (Claims.later s cid dt).traffic.amQueue = m :: rest) (hstopped : (Claims.later s cid dt).step.main.stopped = true) :
    execHandlerStart cid dt s = .next (became s cid ((Claims.later s cid dt).handlerStarted m rest)) := by
  refine coreCommand_became hruns ?_
  dsimp only
  rw [← Claims.later, hqueue, hstopped]
  rfl

theorem execHandlerStart_waits (hruns : Claims.Runs s cid) (h : (Claims.later s cid dt).traffic.amQueue = [] ∨ (Claims.later s cid dt).step.main.stopped = false) :
    execHandlerStart cid dt s = .next (became s cid (Claims.later s cid dt)) := by
  refine coreCommand_became hruns ?_
  dsimp only
  rw [← Claims.later]
  obtain hnone | hruns := h
  · rw [hnone]
  · rw [hruns]
    cases (Claims.later s cid dt).traffic.amQueue <;> rfl

/-- What DOZE_ENTRY asks of the core (R253). -/
theorem dozeCondition_iff (c : CoreState) :
    (c.step.main.waiting && !c.waitHolds && decide (c.step.main.waitFrom + 4096 ≤ c.step.offset) && !c.step.events.any (fun e => e.ev.isOperation) && !c.arrayRuns c.step.offset && (!c.partitioned || c.step.fill.stopped)) = true ↔
      c.step.main.waiting = true ∧ c.waitHolds = false ∧ c.step.main.waitFrom + 4096 ≤ c.step.offset ∧ (∀ e ∈ c.step.events, e.ev.isOperation = false) ∧ c.arrayRuns c.step.offset = false ∧
        (c.partitioned = false ∨ c.step.fill.stopped = true) := by
  simp [and_assoc]

theorem execDozeEntry_eq (hruns : Claims.Runs s cid) :
    execDozeEntry cid dt s = .next (became s cid (let c := Claims.later s cid dt
      if c.step.main.waiting && !c.waitHolds && decide (c.step.main.waitFrom + 4096 ≤ c.step.offset) && !c.step.events.any (fun e => e.ev.isOperation) && !c.arrayRuns c.step.offset && (!c.partitioned || c.step.fill.stopped) then
        { c with totals.doze := true } else c)) :=
  coreCommand_became hruns rfl

theorem execOrphanWait_ends {obj : BitVec 16} (hcore : s.hasCore cid = true) (hwait : (s.core cid).step.main.waiting = true) (hobj : (s.core cid).step.main.waitObject = some obj)
    (horphan : (if obj.getLsbD 15 then s.commons.mailOrphan ((s.core cid).owner.getD 0) else s.commons.tallyOrphan (fieldOf obj 0 12)) = true) :
    execOrphanWait cid s = .next ((s.orphanFault cid obj ((s.core cid).owner.getD 0) ((s.core cid).step.main.origin false 6 ((s.core cid).step.main.waitWord.setWidth 64))).modCore cid
      (fun c => { c with step.main := { c.step.main with waiting := false, waitObject := none, cancelled := true }, totals.doze := false })) := by
  unfold execOrphanWait
  simp only [hcore, hwait, hobj, horphan, Bool.not_true, Bool.false_eq_true, if_false, if_true]

end Commands

end Sys2Proof.Machine

namespace Sys2Proof.Claims

open Sys2Proof.Machine

/-- Settles O31: each of the five commands makes its change of the core and no other. -/
theorem coresTakeHandlersDozeAndCommons : Obligations.CoresTakeHandlersDozeAndCommons := by
  unfold Obligations.CoresTakeHandlersDozeAndCommons
  refine ⟨fun s cid dt => ?_, fun s cid => ?_⟩
  · intro c hruns
    refine ⟨fun m rest hqueue hstopped => ⟨_, execHandlerStart_starts hruns hqueue hstopped, ?_⟩, execHandlerStart_waits hruns, fun hidle => ?_, fun hbusy => ?_⟩
    · intro k
      have hk : k = { c.handlerStarted m rest with traffic.outbox := [], traffic.unitsOut := [] } := became_core s cid _
      have hframe := CoreState.handlerRegs_scalarFrame { c with traffic.amQueue := rest, step.main := { next := fieldOf (AMap.get 0 c.tables.handler m.handler.toNat) 0 13, issued := true, cancelled := true, curFc := c.step.offset } } m
      have hread (r : BitVec 5) : k.readS r = _ := (congrArg (CoreState.readS · r) hk).trans (CoreState.handlerRegs_readS _ m r)
      refine ⟨?queue, ?stream, (hread 1).trans rfl, ?words, ?rest, fun r => ?a, fun r => ?v, fun r => ?m, fun a => ?byte, fun q => ?tally⟩
      case queue => rw [hk]; exact congrArg (·.amQueue) hframe.traffic
      case stream => rw [hk]; exact congrArg (·.main) hframe.step
      case words =>
        intro j hj
        rw [hread]
        obtain rfl | rfl | rfl | rfl : j = 0 ∨ j = 1 ∨ j = 2 ∨ j = 3 := by omega
        · rfl
        · rfl
        · rfl
        · rfl
      case rest =>
        intro r hr
        have hother (n : BitVec 5) (hn : n ≠ 0) (hn5 : n.toNat ≤ 5) : r ≠ n := by
          rintro rfl
          obtain h | h := hr
          · exact hn h
          · omega
        rw [hread, if_neg (hother 1#5 (by decide) (by decide)), if_neg (hother 2#5 (by decide) (by decide)), if_neg (hother 3#5 (by decide) (by decide)), if_neg (hother 4#5 (by decide) (by decide)),
          if_neg (hother 5#5 (by decide) (by decide))]
        rfl
      case a => rw [hk]; exact congrArg (fun x : AMap (BitVec 32) => if r = 0 then 0 else AMap.get 0 x r.toNat) hframe.a
      case v => rw [hk]; exact congrArg (fun x : AMap VReg => AMap.get {} x r.toNat) hframe.v
      case m => rw [hk]; exact congrArg (fun x : AMap MReg => AMap.get {} x r.toNat) hframe.m
      case byte => rw [hk]; exact congrArg (AMap.get 0 · a) hframe.mem
      case tally => rw [hk]; exact congrArg (AMap.get 0 · q.toNat) hframe.tallies
    · rw [show exec (.dozeEntry cid dt) s = _ from execDozeEntry_eq hruns]
      dsimp only
      rw [if_pos ((dozeCondition_iff _).2 hidle)]
    · rw [show exec (.dozeEntry cid dt) s = _ from execDozeEntry_eq hruns]
      dsimp only
      rw [if_neg (fun h => hbusy ((dozeCondition_iff _).1 h))]
  · intro c fn mb hcore
    refine ⟨fun obj hwait hobj horphan => ?_, ?_, fun before after r hreq hr hopen hbefore => ?_⟩
    · have horphan' : (if obj.getLsbD 15 then s.commons.mailOrphan ((s.core cid).owner.getD 0) else s.commons.tallyOrphan (fieldOf obj 0 12)) = true := by
        split at horphan
        · next hmail => rw [if_pos hmail]; exact congrArg (!·) horphan
        · next hmail =>
          rw [if_neg hmail]
          unfold Commons.tallyOrphan fieldOf
          rw [horphan]
          rfl
      refine ⟨_, execOrphanWait_ends hcore hwait hobj horphan', ?_⟩
      intro former k
      have hk : k = _ := State.setCore_core_same _ cid _
      have hfault : (s.orphanFault cid obj fn (c.step.main.origin false 6 (c.step.main.waitWord.setWidth 64))).core cid =
          c.fault 0x2008 (c.step.main.origin false 6 (c.step.main.waitWord.setWidth 64)) (obj.setWidth 64) ((s.commons.formerOf obj fn).setWidth 64) 0 := State.setCore_core_same _ cid _
      rw [hk, hfault]
      exact ⟨rfl, rfl, rfl, rfl, _, rfl, rfl, rfl, rfl, rfl⟩
    · exact (show execCommonsViewUpdate cid s = _ from if_neg (ne_true_of_eq_false (congrArg (!·) hcore)))
    · refine (show execCommonsRequestAccepted cid s = _ from if_neg (ne_true_of_eq_false (congrArg (!·) hcore))).trans ?_
      unfold State.modPlot
      dsimp only
      rw [show (s.plot ((s.core cid).owner.getD 0)).commons.requests = _ from hreq, accept_oldest hr hopen hbefore]

end Sys2Proof.Claims
end

section
/-! Entries listed in a map, saturating counts, and the patrol scrub (R228, R229). -/

namespace Sys2Proof.Machine

open Claims (became Runs later)

/-! ### Listed entries of a map -/

section Find

variable {α : Type} (m : AMap α) (k j : Nat) (v : α)

@[simp] theorem AMap.find_set_same : AMap.find (AMap.set m k v) k = some v := by
  induction m with
  | nil => simp [AMap.set, AMap.find]
  | cons e m ih =>
    obtain ⟨a, x⟩ := e
    unfold AMap.set
    split
    · simp [AMap.find]
    · split
      · simp [AMap.find]
      · next hne _ => simp [AMap.find, hne, ih]

theorem AMap.find_set_ne {k j : Nat} (h : j ≠ k) : AMap.find (AMap.set m k v) j = AMap.find m j := by
  induction m with
  | nil => simp [AMap.set, AMap.find, Ne.symm h]
  | cons e m ih =>
    obtain ⟨a, x⟩ := e
    unfold AMap.set
    split
    · next ha => simp [AMap.find, ha, Ne.symm h]
    · split
      · simp [AMap.find, Ne.symm h]
      · simp [AMap.find, ih]

@[simp] theorem AMap.find_erase_same : AMap.find (AMap.erase m k) k = none := by
  induction m with
  | nil => rfl
  | cons e m ih =>
    obtain ⟨a, x⟩ := e
    unfold AMap.erase
    split
    · exact ih
    · next hne => simp [AMap.find, hne, ih]

theorem AMap.find_erase_ne {k j : Nat} (h : j ≠ k) : AMap.find (AMap.erase m k) j = AMap.find m j := by
  induction m with
  | nil => rfl
  | cons e m ih =>
    obtain ⟨a, x⟩ := e
    unfold AMap.erase
    split
    · next ha => rw [ih, AMap.find, if_neg (by omega)]
    · simp [AMap.find, ih]

end Find

/-! ### Saturating counts -/

theorem satAdd_toNat {n : Nat} (c : BitVec n) (k : Nat) : (satAdd c k).toNat = min (2 ^ n - 1) (c.toNat + k) := by
  unfold satAdd
  rw [BitVec.toNat_ofNat, Nat.mod_eq_of_lt, min_comm]
  have := Nat.two_pow_pos n
  omega

/-! ### The words of a scrubbed line -/

theorem CoreState.setWordClass_wordClass (c : CoreState) (k : Nat) (x : Option WordClass) (w : Nat) : (c.setWordClass k x).wordClass w = if w = k then x else c.wordClass w := by
  unfold CoreState.setWordClass CoreState.wordClass
  by_cases h : w = k
  · subst h
    cases x <;> simp
  · cases x with
    | none => simp only [if_neg h, AMap.find_erase_ne _ h]
    | some x => simp only [if_neg h, AMap.find_set_ne _ _ h]

/-- The class that a scrub write-back leaves a word of its line. -/
def scrubbedClass : Option WordClass → Option WordClass
  | some .correctable => none
  | some .uncorrectable => some .bruised
  | x => x

/-- What a scrub write-back of the words `ks` does to a core. -/
structure Scrubs (ks : List Nat) (c d : CoreState) : Prop where
  mem : d.work.mem = c.work.mem
  scrub : d.scrub = c.scrub
  ce : d.scr.ce.toNat = min 65535 (c.scr.ce.toNat + (ks.filter (fun k => c.wordClass k == some .correctable)).length)
  bruised : d.scr.scrubBruise.toNat = min 255 (c.scr.scrubBruise.toNat + (ks.filter (fun k => c.wordClass k == some .uncorrectable)).length)
  reports : ∃ rs : List CoreReport, d.traffic.reports = c.traffic.reports ++ rs ∧ rs.length = (ks.filter (fun k => c.wordClass k == some .uncorrectable)).length ∧ ∀ r ∈ rs, r.code = 0x0002
  wordClass : ∀ w, d.wordClass w = if w ∈ ks then scrubbedClass (c.wordClass w) else c.wordClass w

theorem Scrubs.refl (c : CoreState) : Scrubs [] c c where
  mem := rfl
  scrub := rfl
  ce := by have := c.scr.ce.isLt; simp only [List.filter_nil, List.length_nil]; omega
  bruised := by have := c.scr.scrubBruise.isLt; simp only [List.filter_nil, List.length_nil]; omega
  reports := ⟨[], by simp⟩
  wordClass w := by simp

theorem Scrubs.trans {ks ls : List Nat} {c d e : CoreState} (hdisj : ∀ k ∈ ls, k ∉ ks) (h : Scrubs ks c d) (g : Scrubs ls d e) : Scrubs (ks ++ ls) c e := by
  have hclass : ∀ k ∈ ls, d.wordClass k = c.wordClass k := fun k hk => (h.wordClass k).trans (if_neg (hdisj k hk))
  have hfilter (x : Option WordClass) : ls.filter (fun k => d.wordClass k == x) = ls.filter (fun k => c.wordClass k == x) :=
    List.filter_congr fun k hk => by rw [hclass k hk]
  obtain ⟨rs, hrs, hlen, hcode⟩ := h.reports
  obtain ⟨rs', hrs', hlen', hcode'⟩ := g.reports
  rw [hfilter] at hlen'
  refine ⟨g.mem.trans h.mem, g.scrub.trans h.scrub, ?_, ?_, ⟨rs ++ rs', by rw [hrs', hrs, List.append_assoc], ?_, ?_⟩, fun w => ?_⟩
  · rw [g.ce, h.ce, hfilter, List.filter_append, List.length_append]; omega
  · rw [g.bruised, h.bruised, hfilter, List.filter_append, List.length_append]; omega
  · rw [List.length_append, hlen, hlen', List.filter_append, List.length_append]
  · intro r hr
    rcases List.mem_append.1 hr with hr | hr
    · exact hcode r hr
    · exact hcode' r hr
  · rw [g.wordClass]
    by_cases hw : w ∈ ls
    · rw [if_pos hw, if_pos (List.mem_append_right _ hw), hclass w hw]
    · rw [if_neg hw, h.wordClass]
      simp [hw]

theorem CoreState.scrubWord_scrubs (c : CoreState) (k : Nat) : Scrubs [k] c (c.scrubWord k) := by
  have hce := c.scr.ce.isLt
  have hbruised := c.scr.scrubBruise.isLt
  unfold CoreState.scrubWord
  split
  · next hk =>
    refine ⟨rfl, rfl, ?_, ?_, ⟨[], by simp [CoreState.setWordClass, CoreState.countCe, hk]⟩, fun w => ?_⟩
    · simp [CoreState.setWordClass, CoreState.countCe, hk, satAdd_toNat]
    · simp [CoreState.setWordClass, CoreState.countCe, hk]; omega
    · rw [CoreState.setWordClass_wordClass]
      by_cases hw : w = k
      · rw [if_pos hw, if_pos (List.mem_singleton.2 hw), hw, hk]; rfl
      · rw [if_neg hw, if_neg (fun h => hw (List.mem_singleton.1 h))]; rfl
  · next hk =>
    have hbruise : ∀ d : CoreState, (d.bruiseWord k).work = (d.setWordClass k (some .bruised)).work ∧ (d.bruiseWord k).scrub = d.scrub ∧ (d.bruiseWord k).scr = d.scr ∧ (d.bruiseWord k).traffic = d.traffic := fun d => by
      unfold CoreState.bruiseWord
      dsimp only
      split <;> exact ⟨rfl, rfl, rfl, rfl⟩
    obtain ⟨hwork, hscrub, hscr, htraffic⟩ := hbruise c
    refine ⟨congrArg (·.mem) hwork, hscrub, ?_, ?_, ⟨_, congrArg (fun t => t.reports ++ _) htraffic, ?_, ?_⟩, fun w => ?_⟩
    · simp only [CoreState.note, CoreState.report, hscr]
      simp [hk]; omega
    · simp only [CoreState.note, CoreState.report, hscr, satAdd_toNat]
      simp [hk]
    · simp [hk]
    · simp
    · have hmarks : CoreState.wordClass (c.bruiseWord k) w = (c.setWordClass k (some .bruised)).wordClass w := by
        unfold CoreState.wordClass
        rw [hwork]
      refine hmarks.trans ?_
      rw [CoreState.setWordClass_wordClass]
      by_cases hw : w = k
      · rw [if_pos hw, if_pos (List.mem_singleton.2 hw), hw, hk]; rfl
      · rw [if_neg hw, if_neg (fun h => hw (List.mem_singleton.1 h))]
  · next hcorr hunc =>
    have hne : c.wordClass k ≠ some .correctable := hcorr
    have hne' : c.wordClass k ≠ some .uncorrectable := hunc
    refine ⟨rfl, rfl, ?_, ?_, ⟨[], by simp [hne']⟩, fun w => ?_⟩
    · simp [hne]; omega
    · simp [hne']; omega
    · by_cases hw : w ∈ [k]
      · rw [if_pos hw, List.mem_singleton.1 hw]
        generalize c.wordClass k = x at hne hne'
        cases x with
        | none => rfl
        | some x =>
          cases x with
          | correctable => exact absurd rfl hne
          | bruised => rfl
          | uncorrectable => exact absurd rfl hne'
      · rw [if_neg hw]

theorem CoreState.scrubWords_scrubs {ks : List Nat} (hks : ks.Nodup) (c : CoreState) : Scrubs ks c (ks.foldl CoreState.scrubWord c) := by
  induction ks generalizing c with
  | nil => exact .refl c
  | cons k ks ih =>
    obtain ⟨hk, hks⟩ := List.nodup_cons.1 hks
    refine Scrubs.trans (ks := [k]) (fun j hj hjk => hk ?_) (c.scrubWord_scrubs k) (ih hks _)
    rw [← List.mem_singleton.1 hjk]
    exact hj

/-! ### Reads and write-backs of the scrub -/

/-- The words that a scrub has something to do for are those of the line that are correctable or uncorrectable. -/
theorem CoreState.mem_scrubWork {c : CoreState} {line w : Nat} : w ∈ c.scrubWork line ↔ w / 8 = line ∧ (c.wordClass w = some .correctable ∨ c.wordClass w = some .uncorrectable) := by
  unfold CoreState.scrubWork
  simp only [List.mem_filter, List.mem_map, List.mem_range, Bool.or_eq_true, beq_iff_eq]
  refine and_congr_left fun _ => ⟨?_, fun h => ⟨w % 8, by omega, by omega⟩⟩
  rintro ⟨j, hj, rfl⟩
  omega

theorem CoreState.scrubWork_nodup (c : CoreState) (line : Nat) : (c.scrubWork line).Nodup := by
  unfold CoreState.scrubWork
  refine List.Nodup.filter _ (List.Nodup.map (fun a b h => ?_) List.nodup_range)
  omega

/-- The words of one of the two classes that the scrub handles are counted among the eight of the line. -/
theorem CoreState.scrubWork_count (c : CoreState) (line : Nat) {x : WordClass} (hx : x = .correctable ∨ x = .uncorrectable) :
    ((c.scrubWork line).filter (fun k => c.wordClass k == some x)).length = ((List.range 8).filter (fun j => c.wordClass (8 * line + j) == some x)).length := by
  unfold CoreState.scrubWork
  rw [List.filter_filter, List.filter_map, List.length_map]
  refine congrArg List.length (List.filter_congr fun j _ => ?_)
  dsimp only [Function.comp]
  obtain rfl | rfl := hx
  · cases c.wordClass (8 * line + j) with
    | none => rfl
    | some y => cases y <;> rfl
  · cases c.wordClass (8 * line + j) with
    | none => rfl
    | some y => cases y <;> rfl

end Sys2Proof.Machine

namespace Sys2Proof.Claims

open Sys2Proof.Machine

/-- Settles O32: the scrub passes, takes and writes back its line. -/
theorem patrolScrubVisitsLines : Obligations.PatrolScrubVisitsLines := by
  unfold Obligations.PatrolScrubVisitsLines
  refine ⟨fun s cid dt => ?_, fun c env => ?_⟩
  · intro c line nextLine bad hruns
    have hbad : (c.scrubWork line).isEmpty = true ↔ ∀ j < 8, ¬ bad (8 * line + j) := by
      rw [List.isEmpty_iff, List.eq_nil_iff_forall_not_mem]
      refine ⟨fun h j hj hb => h (8 * line + j) (CoreState.mem_scrubWork.2 ⟨by omega, hb⟩), fun h w hw => ?_⟩
      obtain ⟨hline, hb⟩ := CoreState.mem_scrubWork.1 hw
      exact h (w % 8) (by omega) (by rwa [show 8 * line + w % 8 = w by omega])
    refine ⟨fun hwait hmay => ⟨fun hgood => ?_, fun hsome => ?_⟩, fun hwait hfc hmay hdue => ?_⟩
    · refine (show execPatrolScrubRead cid dt s = _ from coreCommand_became hruns ?_)
      dsimp only
      rw [← later, if_neg (by rw [hwait, hmay]; decide), if_pos (hbad.2 hgood)]
    · refine (show execPatrolScrubRead cid dt s = _ from coreCommand_became hruns ?_)
      dsimp only
      rw [← later, if_neg (by rw [hwait, hmay]; decide), if_neg (fun h => ?_)]
      obtain ⟨j, hj, hb⟩ := hsome
      exact hbad.1 h j hj hb
    · refine (show execPatrolScrubWriteback cid dt s = _ from coreCommand_became hruns ?_)
      dsimp only
      rw [← later, if_neg]
      have hnone : c.step.events.any (fun e => e.ev == .scrubWrite) = false := List.any_eq_false.2 fun e he => by simpa using hdue e he
      simp only [show (later s cid dt) = c from rfl, hwait, hmay, hnone, Nat.not_le.2 hfc]
      decide
  · intro line nextLine k
    refine ⟨fun htouched => ?_, fun hclear => ?_⟩
    · show c.doScrubWrite = _
      unfold CoreState.doScrubWrite
      rw [htouched]
      rfl
    · have hscrubs := CoreState.scrubWords_scrubs (c.scrubWork_nodup line) c
      have hk : k = { (c.scrubWork line).foldl CoreState.scrubWord c with scrub := { line := nextLine, waiting := false, readFc := 0, touched := false } } := by
        show c.doScrubWrite = _
        unfold CoreState.doScrubWrite
        rw [hclear]
        simp only [Bool.false_eq_true, if_false, hscrubs.scrub, nextLine, line]
      obtain ⟨hmem, -, hce, hbruised, ⟨rs, hrs, hlen, hcode⟩, hclass⟩ := hscrubs
      rw [c.scrubWork_count line (.inl rfl)] at hce
      rw [c.scrubWork_count line (.inr rfl)] at hbruised hlen
      have hword (w : Nat) : k.wordClass w = if w ∈ c.scrubWork line then scrubbedClass (c.wordClass w) else c.wordClass w := (congrArg (CoreState.wordClass · w) hk).trans (hclass w)
      refine ⟨congrArg (·.scrub) hk, fun a => ?_, (congrArg (·.scr.ce.toNat) hk).trans hce, (congrArg (·.scr.scrubBruise.toNat) hk).trans hbruised,
        ⟨rs, (congrArg (·.traffic.reports) hk).trans hrs, hlen, hcode⟩, fun w hw => ?_, fun w hw => ?_⟩
      · exact (congrArg (CoreState.byte · a) hk).trans (congrArg (AMap.get 0 · a) hmem)
      · rw [hword]
        split
        · cases hx : c.wordClass w with
          | none => rfl
          | some x => cases x <;> rfl
        · next hout =>
          have hgood : ¬ (c.wordClass w = some .correctable ∨ c.wordClass w = some .uncorrectable) := fun h => hout (CoreState.mem_scrubWork.2 ⟨hw, h⟩)
          cases hx : c.wordClass w with
          | none => rfl
          | some x =>
            cases x with
            | correctable => exact absurd (.inl hx) hgood
            | bruised => rfl
            | uncorrectable => exact absurd (.inr hx) hgood
      · rw [hword, if_neg (fun h => hw (CoreState.mem_scrubWork.1 h).1)]

end Sys2Proof.Claims
end

section
/-! The column test of an array and its replaced columns (R129 to R132). -/

namespace Sys2Proof.Machine

/-! ### Single bits -/

theorem getLsbD_twoPow {n f j : Nat} (hj : j < n) : (BitVec.ofNat n (2 ^ f)).getLsbD j = (j == f) := by
  rw [BitVec.getLsbD_ofNat, Nat.testBit_two_pow]
  simp only [hj, decide_true, Bool.true_and]
  exact Bool.eq_iff_iff.2 (by simp only [decide_eq_true_eq, beq_iff_eq]; exact eq_comm)

theorem filter_range_beq {f : Nat} (hf : f < 34) : (List.range 34).filter (fun i => i == f) = [f] :=
  (by decide : ∀ f < 34, (List.range 34).filter (fun i => i == f) = [f]) f hf

/-! ### Replaced columns -/

/-- A column that has a healthy one above it that serves nothing is replaced by the lowest such column (R129, R130). -/
theorem ArrayMap.replace_lowest {m : ArrayMap} {f g : Nat} (hfg : f < g) (hg : g < 34) (hgood : m.bad.getLsbD g = false) (hspare : m.colEnable.getLsbD g = false)
    (hbetween : ∀ h, f < h → h < g → m.bad.getLsbD h = true ∨ m.colEnable.getLsbD h = true) :
    ∃ m2 : ArrayMap, m.replace f = some m2 ∧ (∀ j < 34, m2.colEnable.getLsbD j = if j = f then false else if j = g then true else m.colEnable.getLsbD j) ∧
      (∀ j < 34, m2.bad.getLsbD j = (m.bad.getLsbD j || j == f)) := by
  have hbad : ∀ j < 34, (m.bad ||| BitVec.ofNat 34 (2 ^ f)).getLsbD j = (m.bad.getLsbD j || j == f) := fun j hj => by rw [BitVec.getLsbD_or, getLsbD_twoPow hj]
  have hfind : (List.range 34).find? (fun k => decide (f < k) && !(m.bad ||| BitVec.ofNat 34 (2 ^ f)).getLsbD k && !m.colEnable.getLsbD k) = some g := by
    rw [List.find?_range_eq_some]
    refine ⟨?_, List.mem_range.2 hg, fun j hj => ?_⟩
    · rw [hbad g hg, hgood, hspare]
      simp [hfg, Nat.ne_of_gt hfg]
    · rw [hbad j (by omega)]
      by_cases hfj : f < j
      · obtain h | h := hbetween j hfj hj
        · simp [h]
        · simp [h]
      · simp [hfj]
  unfold ArrayMap.replace
  dsimp only
  rw [hfind]
  refine ⟨_, rfl, fun j hj => ?_, hbad⟩
  simp only [BitVec.getLsbD_or, BitVec.getLsbD_and, BitVec.getLsbD_not, getLsbD_twoPow hj, hj, decide_true, Bool.true_and]
  by_cases hjf : j = f
  · subst hjf
    simp [Nat.ne_of_lt hfg]
  · by_cases hjg : j = g
    · subst hjg
      simp [hjf]
    · simp [hjf, hjg, beq_eq_false_iff_ne.2 hjf, beq_eq_false_iff_ne.2 hjg]

section Tests

variable {s : State} {cid : CoreId}

/-- Where a core that had a check event reports what its test finds (R132). -/
def State.testOffset (s : State) (cid : CoreId) (k : Bool × Nat) : Option Nat := if k.1 || (s.faultOffset cid).isNone then none else some k.2

/-- A test of a core with one due reports on the columns that it found. -/
theorem execColumnTestDone_due {found : BitVec 34} {k : Bool × Nat} (hcore : s.hasCore cid = true) (hdue : (s.core cid).checkPending = some k) :
    execColumnTestDone cid found s =
      (let u := s.setCore cid { s.core cid with checkPending := none }
       let cols := (List.range 34).filter (fun i => found.getLsbD i && !(s.physCore cid).planned.bad.getLsbD i)
       if cols == [] then .next (u.partReport cid (s.core cid).owner false 0x3008 0x3F ((s.physCore cid).planned.colEnable.setWidth 64) (s.testOffset cid k))
       else .next (cols.foldl (fun (s' : State) f => s'.failColumn cid (s.testOffset cid k) f) u)) := by
  have howner : ((s.modCore cid (fun k => { k with checkPending := none })).core cid).owner = (s.core cid).owner := (congrArg CoreState.owner (State.setCore_core_same s cid _)).trans rfl
  unfold execColumnTestDone
  rw [if_neg (ne_true_of_eq_false (congrArg (!·) hcore)), hdue]
  dsimp only
  rw [howner]
  rfl

end Tests

end Sys2Proof.Machine

namespace Sys2Proof.Claims

open Sys2Proof.Machine

/-- Settles O33: check events are counted, and a column test replaces what it found. -/
theorem arrayChecksAreTested : Obligations.ArrayChecksAreTested := by
  unfold Obligations.ArrayChecksAreTested
  intro s cid hcore
  refine ⟨fun chaff => ?_, fun k hdue => ?_⟩
  · refine ⟨_, (show execResidueCheckEvent cid chaff s = _ from if_neg (ne_true_of_eq_false (congrArg (!·) hcore))), ?_⟩
    unfold State.modCore
    rw [State.setCore_core_same]
    exact ⟨rfl, satAdd_toNat (s.core cid).array.checks 1, rfl⟩
  · intro off u k0 m now
    refine ⟨fun f g hf hfg hg henabled hgood hgoodg hspare hbetween => ?_, ?_⟩
    · obtain ⟨m2, hreplace, hen, hbad⟩ := ArrayMap.replace_lowest hfg hg hgoodg hspare hbetween
      refine ⟨m2, (show execColumnTestDone cid _ s = _ from execColumnTestDone_due hcore hdue).trans ?_, hen, hbad⟩
      have hcols : (List.range 34).filter (fun i => (BitVec.ofNat 34 (2 ^ f)).getLsbD i && !(s.physCore cid).planned.bad.getLsbD i) = [f] := by
        refine (List.filter_congr fun i hi => ?_).trans (filter_range_beq hf)
        rw [getLsbD_twoPow (List.mem_range.1 hi)]
        by_cases hif : i = f
        · subst hif
          simp only [beq_self_eq_true, Bool.true_and]
          exact congrArg (!·) hgood
        · simp [hif]
      have howner : (u.core cid).owner = (s.core cid).owner := (congrArg CoreState.owner (State.setCore_core_same s cid _)).trans rfl
      dsimp only
      rw [hcols]
      refine congrArg Host.Outcome.next ?_
      show u.failColumn cid off f = _
      unfold State.failColumn
      rw [howner, show u.physCore cid = k0 from rfl]
      dsimp only
      rw [if_pos (show k0.planned.colEnable.getLsbD f = true from henabled), show k0.planned.replace f = some m2 from hreplace]
      rfl
    · refine (show execColumnTestDone cid 0 s = _ from execColumnTestDone_due hcore hdue).trans ?_
      have hcols : (List.range 34).filter (fun i => (0 : BitVec 34).getLsbD i && !(s.physCore cid).planned.bad.getLsbD i) = [] := List.filter_eq_nil_iff.2 fun i _ => by simp
      dsimp only
      rw [hcols]
      rfl

end Sys2Proof.Claims
end

section
/-! Flits on their way through the mesh (R284 to R299). -/

namespace Sys2Proof.Machine

section Flits

variable {s : State} {n : Nat} {f : Flit}

/-- A command of a flit that is in the mesh acts on it. -/
theorem flitCommand_of_find {act : Flit → State} (h : AMap.find s.mesh.flits n = some f) : flitCommand s n act = .next (act f) := by
  unfold flitCommand
  rw [h]

theorem State.linkUsed_iff {u : LinkUse} : s.linkUsed u = true ↔ u ∈ s.mesh.uses := by
  unfold State.linkUsed
  rw [List.contains_iff_mem]

theorem Flit.atRouter_of_stage (h : f.stage = .router) : f.atRouter = true := by
  unfold Flit.atRouter
  rw [h]
  rfl

@[simp] theorem State.passInput_flits : (s.passInput f).mesh.flits = s.mesh.flits := by
  unfold State.passInput
  split <;> rfl

/-- Passing its input changes the links in use and nothing else. -/
theorem State.passInput_eq : s.passInput f = { s with mesh := (s.passInput f).mesh } := by
  unfold State.passInput
  split <;> rfl

theorem State.moveFlit_eq (port : BitVec 3) :
    s.moveFlit n f port = { s with mesh := { (s.passInput f).mesh with
      uses := (s.passInput f).mesh.uses ++ [{ router := f.router, port := port, link1 := linkOf f.router port f.link1, fc := f.ready }]
      flits := AMap.set s.mesh.flits n
        (if crossesEdge f.router port then { f with router := routerBeyond f.router port, inPort := inputBeyond port, stage := .bridge f.ready }
         else { f with router := routerBeyond f.router port, inPort := inputBeyond port, ready := f.ready + 2, arrived := f.ready + 2 }) } } := by
  unfold State.moveFlit State.setFlit
  dsimp only
  rw [State.passInput_flits, State.passInput_eq]

/-- The first SLOT_COLLISION event of a core in the step is reported, a later one is not (R302). -/
theorem CoreState.collision_reports (c : CoreState) (fc : Nat) (port : BitVec 3) (site : BitVec 10) :
    (c.collision fc port site).traffic.reports.length = c.traffic.reports.length + (if c.traffic.collided then 0 else 1) ∧ (c.collision fc port site).mesh = c.mesh := by
  unfold CoreState.collision
  cases c.traffic.collided with
  | true => exact ⟨rfl, rfl⟩
  | false => exact ⟨List.length_append, rfl⟩

/-- A held flit tries again in the next fc, counted and reported once in the step (R299, R302, R304). -/
theorem State.holdFlit_holds :
    AMap.find (s.holdFlit n f).mesh.flits n = some { f with ready := f.ready + 1 } ∧ ((s.holdFlit n f).core f.router).mesh.linkColl.toNat = min 65535 ((s.core f.router).mesh.linkColl.toNat + 1) ∧
      (s.holdFlit n f).mesh.uses = s.mesh.uses ∧
      ((s.holdFlit n f).core f.router).traffic.reports.length = (s.core f.router).traffic.reports.length + (if (s.core f.router).traffic.collided then 0 else 1) ∧
      ∀ q, q ≠ f.router → (s.holdFlit n f).core q = s.core q := by
  have hcore : (s.holdFlit n f).core f.router = CoreState.collision { s.core f.router with mesh.linkColl := satAdd (s.core f.router).mesh.linkColl 1 } f.ready f.inPort f.site := State.setCore_core_same _ _ _
  obtain ⟨hreports, hmesh⟩ := CoreState.collision_reports { s.core f.router with mesh.linkColl := satAdd (s.core f.router).mesh.linkColl 1 } f.ready f.inPort f.site
  refine ⟨AMap.find_set_same _ _ _, ?_, rfl, ?_, fun q hq => State.setCore_core_ne _ _ hq⟩
  · rw [hcore, hmesh]
    exact satAdd_toNat _ _
  · rw [hcore, hreports]

end Flits

end Sys2Proof.Machine

namespace Sys2Proof.Claims

open Sys2Proof.Machine

/-- Settles O34: each flit moves, is held, leaves by its gate or comes off its bridge. -/
theorem flitsMoveHopByHop : Obligations.FlitsMoveHopByHop := by
  unfold Obligations.FlitsMoveHopByHop
  intro s n f hfind
  refine ⟨fun hstage hruns hlane => ⟨fun port hport => ?_, fun hport hleaves hheld hgate => ?_⟩, fun hstage hruns hlane port hport => ?_, fun hstage hruns hlane hport hleaves => ?_, fun sent offset hstage hahead => ?_⟩
  · intro u held g
    have hstart : execFlitAdvance n s = .next (if s.laneHeld n f || s.flitFirst n f port || s.linkUsed u then s.holdFlit n f else s.moveFlit n f port) := by
      refine (flitCommand_of_find hfind).trans ?_
      simp only [Flit.atRouter_of_stage hstage, hruns, hlane, hport, Bool.not_true, Bool.or_self, Bool.false_eq_true, if_false]
      rfl
    have hheld : held ↔ (s.laneHeld n f || s.flitFirst n f port || s.linkUsed u) = true := by
      rw [Bool.or_eq_true, Bool.or_eq_true, State.linkUsed_iff, or_assoc]
    refine ⟨fun hfree => ?_, fun hblocked => ?_⟩
    · refine (show execFlitAdvance n s = _ from hstart).trans ?_
      rw [if_neg (fun h => hfree (hheld.2 h)), State.moveFlit_eq]
    · refine ⟨_, hstart, ?_⟩
      rw [if_pos (hheld.1 hblocked)]
      exact State.holdFlit_holds
  · have hstart : execFlitAdvance n s = .next (if AMap.get 512 s.system.credits f.router.toNat = 0 then s.stallGate f.fn (fieldOfCore f.router) else ((s.passInput f).useGate f.router.toNat f.ready).dropFlit n) := by
      refine (flitCommand_of_find hfind).trans ?_
      have hfree : s.system.gateUse.contains (f.router.toNat, f.ready) = false := by simpa using hgate
      simp only [Flit.atRouter_of_stage hstage, hruns, hlane, hport, hleaves, hheld, hfree, Bool.not_true, Bool.or_self, Bool.false_eq_true, if_false]
    exact ⟨fun hcredit => (show execFlitAdvance n s = _ from hstart).trans (by rw [if_neg hcredit]), fun hnone => (show execFlitAdvance n s = _ from hstart).trans (by rw [if_pos hnone])⟩
  · intro free g
    have hstart : execPostedFlitAdvance n s = .next (if s.flitAhead n f || s.flitFirst n f port ||
          !decide (s.postedAt (routerBeyond f.router port) (inputBeyond port) (crossesEdge f.router port) < (if crossesEdge f.router port then 16 else 4)) ||
          s.linkUsed { router := f.router, port := port, link1 := false, fc := f.ready } then
        (s.setFlit n { f with ready := f.ready + 1 }).setCore f.router { s.core f.router with mesh.postedWait := satAdd (s.core f.router).mesh.postedWait 1 }
      else s.moveFlit n { f with link1 := false } port) := by
      refine (flitCommand_of_find hfind).trans ?_
      simp only [Flit.atRouter_of_stage hstage, hruns, hlane, hport, Bool.not_true, Bool.or_self, Bool.false_eq_true, if_false]
      rfl
    have hfree : free ↔ ¬ (s.flitAhead n f || s.flitFirst n f port ||
          !decide (s.postedAt (routerBeyond f.router port) (inputBeyond port) (crossesEdge f.router port) < (if crossesEdge f.router port then 16 else 4)) ||
          s.linkUsed { router := f.router, port := port, link1 := false, fc := f.ready }) = true := by
      rw [Bool.or_eq_true, State.linkUsed_iff]
      simp only [free, Bool.or_eq_true, Bool.not_eq_true', decide_eq_false_iff_not, not_or, Bool.not_eq_true, not_not]
      tauto
    refine ⟨fun hgo => ?_, fun hwait => ?_⟩
    · refine ⟨_, (show execPostedFlitAdvance n s = _ from hstart), ?_⟩
      rw [if_neg (hfree.1 hgo), State.moveFlit_eq]
      exact ⟨rfl, AMap.find_set_same _ _ _⟩
    · exact (show execPostedFlitAdvance n s = _ from hstart).trans (by rw [if_pos (not_not.1 fun h => hwait (hfree.2 h))])
  · intro free
    have hstart : execPostedFlitAdvance n s = .next (if s.flitAhead n f || s.flitFirstAtGate n f || s.system.gateUse.contains (f.router.toNat, f.ready) || decide (AMap.get 512 s.system.credits f.router.toNat = 0) then
        (s.setFlit n { f with ready := f.ready + 1 }).setCore f.router { s.core f.router with mesh.postedWait := satAdd (s.core f.router).mesh.postedWait 1 }
      else (s.useGate f.router.toNat f.ready).dropFlit n) := by
      refine (flitCommand_of_find hfind).trans ?_
      simp only [Flit.atRouter_of_stage hstage, hruns, hlane, hport, hleaves, Bool.not_true, Bool.or_self, Bool.false_eq_true, if_false]
      rfl
    have hfree : free ↔ ¬ (s.flitAhead n f || s.flitFirstAtGate n f || s.system.gateUse.contains (f.router.toNat, f.ready) || decide (AMap.get 512 s.system.credits f.router.toNat = 0)) = true := by
      simp only [free, Bool.or_eq_true, decide_eq_true_eq, List.contains_iff_mem, not_or, Bool.not_eq_true, ne_eq]
      tauto
    exact ⟨fun hgo => (show execPostedFlitAdvance n s = _ from hstart).trans (by rw [if_neg (hfree.1 hgo)]),
      fun hwait => (show execPostedFlitAdvance n s = _ from hstart).trans (by rw [if_pos (not_not.1 fun h => hwait (hfree.2 h))])⟩
  · have hstart : execBridgeFlitArrives n offset s = .next (if f.onPostedLane then
          if s.postedAt f.router f.inPort false < 4 then s.setFlit n { f with stage := .router, ready := offset, arrived := offset } else s
        else if 256 ≤ (s.buffered f.router f.inPort f.link1).length then (s.dropFlit n).bellOverrun f.fn f.router offset (fieldAcross f.router f.inPort)
        else s.setFlit n { f with stage := .buffered sent, arrived := offset }) := by
      refine (flitCommand_of_find hfind).trans ?_
      simp only [hstage, hahead, Bool.false_eq_true, if_false]
    refine ⟨fun hlane hroom => ?_, fun hlane hfull => ?_, fun hlane hroom => ?_, fun hlane hfull => ?_⟩
    · exact (show execBridgeFlitArrives n offset s = _ from hstart).trans (by rw [if_pos hlane, if_pos hroom])
    · exact (show execBridgeFlitArrives n offset s = _ from hstart).trans (by rw [if_pos hlane, if_neg (Nat.not_lt.2 hfull)])
    · exact (show execBridgeFlitArrives n offset s = _ from hstart).trans (by rw [if_neg (ne_true_of_eq_false hlane), if_neg (Nat.not_le.2 hroom)])
    · exact (show execBridgeFlitArrives n offset s = _ from hstart).trans (by rw [if_neg (ne_true_of_eq_false hlane), if_pos hfull])

end Sys2Proof.Claims
end

section
/-! The firings of a core's trains (R287 to R297). -/

namespace Sys2Proof.Machine

/-- The entries of equal groups name one anchor between them. -/
theorem dedup_map_length_le_one {α β : Type} [DecidableEq β] {g : α → β} {b : β} {l : List α} (h : ∀ a ∈ l, g a = b) : (l.map g).dedup.length ≤ 1 := by
  rw [List.map_congr_left h, List.map_const']
  cases l with
  | nil => exact Nat.zero_le _
  | cons a l =>
    rw [List.length_cons, List.replicate_dedup (Nat.succ_ne_zero _)]
    exact le_rfl

/-- The block that a PARTIAL firing sends toward entry `dp` (R293). -/
def Train.sentBlock (tr : Train) (ch : XChan) (cid : CoreId) (slot : BitVec 10) (dp : Nat) : PartialBlock :=
  { header := 0, body := [], row := dp / 1024, entry := dp % 1024, port := 4, sender := cid, site := tr.site, tallyEn := ch.ten, tally := ch.tally, amount := ch.amount, train := slot.toNat }

/-- The flit in which firing `m` of the channel sends it, ready at fc `ready`. -/
def Train.sentPart (tr : Train) (d : Dest) (slot : BitVec 10) (m ready : Nat) (b : PartialBlock) : FlitOut :=
  { dest := d.split.1, destModule := d.split.2, ready := ready, link1 := tr.link1, order := slot.toNat, firing := m, site := tr.site, kind := .part 0 0 b }

section Releases

variable (s : State) (cid r : CoreId)

theorem State.bellOverrun_owner (fn : Fn) (fc : Nat) (sender : FieldId) : ((s.bellOverrun fn r fc sender).core cid).owner = (s.core cid).owner := by
  unfold State.bellOverrun
  dsimp only [State.modPlot, State.modCore]
  rw [State.setPlot_core]
  by_cases h : cid = r
  · subst h
    rw [State.setCore_core_same]
    rfl
  · exact congrArg CoreState.owner (State.setCore_core_ne _ _ h)

theorem State.releaseOne_owner (fn : Fn) (inPort : BitVec 3) (link1 : Bool) (fc : Nat) : ((s.releaseOne r fn inPort link1 fc).core cid).owner = (s.core cid).owner := by
  unfold State.releaseOne
  dsimp only
  split
  · rfl
  · exact s.bellOverrun_owner cid r fn fc _

/-- The releases of a firing are made for the core's owner, which they leave in place. -/
theorem State.releases_owner (inPort : BitVec 3) (link1 : Bool) (fc : Nat) (l : List Nat) :
    l.foldl (fun (q : State) j => q.releaseOne cid ((q.core cid).owner.getD 0) inPort link1 (fc + j)) s = l.foldl (fun (q : State) j => q.releaseOne cid ((s.core cid).owner.getD 0) inPort link1 (fc + j)) s := by
  suffices h : ∀ (o : Option Fn) (s : State), (s.core cid).owner = o →
      l.foldl (fun (q : State) j => q.releaseOne cid ((q.core cid).owner.getD 0) inPort link1 (fc + j)) s = l.foldl (fun (q : State) j => q.releaseOne cid (o.getD 0) inPort link1 (fc + j)) s from h _ s rfl
  intro o
  induction l with
  | nil => exact fun _ _ => rfl
  | cons j l ih =>
    intro s ho
    rw [List.foldl_cons, List.foldl_cons, ho]
    exact ih _ ((s.releaseOne_owner cid cid _ _ _ _).trans ho)

end Releases

end Sys2Proof.Machine

namespace Sys2Proof.Claims

open Sys2Proof.Machine

/-- Settles O35: each firing is counted and its reads, block or releases begin. -/
theorem trainsFire : Obligations.TrainsFire := by
  unfold Obligations.TrainsFire
  intro s cid slot tr k f c ch m counted hruns
  refine ⟨fun d hdest hnext => ?_, fun d hdest hnext => ?_, fun hnext => ?_, fun hnext => ?_⟩
  · intro there
    refine ⟨fun bytes hbytes hthere => coreCommand_became hruns ?_, fun b hbytes hthere => coreCommand_became hruns ?_⟩ <;>
    · dsimp only
      rw [hnext]
      dsimp only
      rw [hdest]
      dsimp only
      rw [CoreState.runTo_chanFired, show _ = _ from hbytes]
      cases d with
      | here r =>
        dsimp only
        rw [show (s.core r).destAligned ((s.core cid).tables.channel tr.chan).dh _ = none from hthere]
        rfl
      | away => rfl
  · intro e row dp hrange hanchors hpending
    have hone : ((List.range (ch.count + 1)).map (fun i => (counted.group (entryGroup ch.narrow (e + i))).anchor)).dedup.length ≤ 1 :=
      dedup_map_length_le_one (fun i hi => hanchors i (Nat.lt_succ_iff.1 (List.mem_range.1 hi)))
    have hready : ((List.range (ch.count + 1)).any fun i => counted.entryPending c.step.offset ch.narrow row (e + i)) = false :=
      List.any_eq_false.2 fun i hi => ne_true_of_eq_false (hpending i (Nat.lt_succ_iff.1 (List.mem_range.1 hi)))
    refine ⟨tr.sentPart d slot m (c.step.offset + 1) (tr.sentBlock ch cid slot dp), tr.sentBlock ch cid slot dp, coreCommand_became hruns ?_, rfl, rfl, rfl, rfl, rfl, rfl, rfl, rfl, rfl, rfl, rfl, rfl, rfl⟩
    dsimp only
    rw [hnext]
    dsimp only
    rw [hdest]
    dsimp only
    rw [CoreState.runTo_chanFired]
    refine (if_neg ?_).trans (if_neg ?_)
    · rw [show _ = _ from hrange, Bool.not_true, Bool.false_or]
      exact ne_true_of_eq_false (decide_eq_false (Nat.not_lt.2 hone))
    · exact ne_true_of_eq_false hready
  · refine coreCommand_became hruns ?_
    rw [hnext]
  · have hstart : execRecvFiring cid slot s = .next ((List.range (tr.lines + 1)).foldl (fun (q : State) j => q.releaseOne cid ((q.core cid).owner.getD 0) (tr.port.setWidth 3) tr.link1 (f + j))
        (s.setCore cid ((s.core cid).countFiring slot))) := by
      unfold execRecvFiring
      rw [if_neg (by rw [hruns.1]; decide), if_neg (by rw [show s.routerRuns cid = true from hruns.2]; decide), hnext]
      rfl
    refine (show execRecvFiring cid slot s = _ from hstart).trans ?_
    rw [State.releases_owner, State.setCore_core_same]
    rfl

end Sys2Proof.Claims
end

section
/-! Flits that land at their core (R254, R286, R299 to R303). -/

namespace Sys2Proof.Machine

section Landing

variable {c k : CoreState} {port : Option CoreState} {later : Bool} {h : BitVec 6} {pos j : Nat} {data : BitVec 512} {bruise : BitVec 8} {o : Origin}

/-- A landing waits for an earlier write on a common word and for a write port (R300, R301). -/
theorem CoreState.tryLand_held (hwait : (later || c.wordTaken (c.lineWords h pos j)) = true ∨ port = none) : c.tryLand port later h pos j data bruise o = .held c := by
  unfold CoreState.tryLand
  obtain hblocked | hnone := hwait
  · exact if_pos hblocked
  · rw [hnone]
    exact ite_id _

theorem CoreState.tryLand_done {bytes : List Nat} (hfree : (later || c.wordTaken (c.lineWords h pos j)) = false) (hport : port = some k) (hbytes : c.lineBytes h true pos j 1 = .ok bytes) :
    c.tryLand port later h pos j data bruise o =
      .done (k.push k.step.offset (.write (bytes.zipIdx.map (fun p => { addr := p.1, val := data.extractLsb' (8 * p.2) 8, bruise := bruise.getLsbD (p.2 / 8) })) true o)) := by
  unfold CoreState.tryLand
  rw [if_neg (ne_true_of_eq_false hfree), hport]
  dsimp only
  rw [hbytes]

theorem CoreState.tryLand_failed {b : Bad} (hfree : (later || c.wordTaken (c.lineWords h pos j)) = false) (hport : port = some k) (hbytes : c.lineBytes h true pos j 1 = .error b) :
    c.tryLand port later h pos j data bruise o = .failed (c.accessFault b o) := by
  unfold CoreState.tryLand
  rw [if_neg (ne_true_of_eq_false hfree), hport]
  dsimp only
  rw [hbytes]

end Landing

/-- A scheduled flit at its core lands there, from its input where it has not been delayed before (R286, R301). -/
theorem execScheduledFlitLands_passes {s : State} {n : Nat} {f : Flit} (hfind : AMap.find s.mesh.flits n = some f) (hdest : s.atDest f = true) (hruns : s.routerRuns f.dest = true)
    (hlane : f.delayed = true ∨ s.laneHeld n f = false) :
    (∀ (j last : Nat) (b : PartialBlock), f.kind = .part j last b →
      execScheduledFlitLands n s = .next (((if f.delayed then s else s.passInput f).dropFlit n).onCore f.dest (fun e k => (k.runTo e f.ready).receivePart f j last b))) ∧
    (∀ (h : BitVec 6) (pos j last amount : Nat) (ten : Bool) (t : BitVec 6) (data : BitVec 512) (bruise : BitVec 8), f.kind = .line h pos j last ten t amount data bruise →
      execScheduledFlitLands n s = .next ((if f.delayed then s else s.passInput f).landLine n f h pos j last ten t amount data bruise)) := by
  have hfree : (!f.delayed && s.laneHeld n f) = false := by
    obtain h | h := hlane <;> rw [h]
    · rfl
    · exact Bool.and_false _
  refine ⟨fun j last b hkind => ?_, fun h pos j last amount ten t data bruise hkind => ?_⟩ <;>
  · refine (flitCommand_of_find hfind).trans ?_
    rw [hdest, hruns, hfree, hkind]
    rfl

end Sys2Proof.Machine

namespace Sys2Proof.Claims

open Sys2Proof.Machine

/-- Settles O36: a signal, a partial block's flit and a line flit land, wait or are discarded. -/
theorem scheduledFlitsLand : Obligations.ScheduledFlitsLand := by
  unfold Obligations.ScheduledFlitsLand
  intro s n f u hfind hdest hruns
  refine ⟨fun tally amount hkind hlane => ?_, fun hlane => ⟨fun j last b hkind => ?_, fun h pos j last amount ten tally data bruise hkind => ?_⟩⟩
  · refine (flitCommand_of_find hfind).trans ?_
    rw [hkind, hdest, hruns, hlane]
    rfl
  · exact (execScheduledFlitLands_passes hfind hdest hruns hlane).1 j last b hkind
  · intro v c o blocked
    have hstart := (execScheduledFlitLands_passes hfind hdest hruns hlane).2 h pos j last amount ten tally data bruise hkind
    have hblocked : (v.landsFirst f.dest c.step.offset f.landRank (c.lineWords h pos j) || c.wordTaken (c.lineWords h pos j)) = true ↔ blocked := by rw [Bool.or_eq_true]
    refine ⟨fun bytes k hfree hbytes hport => ?_, fun hwait => ?_, fun b k hfree hport hbytes => ?_⟩
    · have hdone := CoreState.tryLand_done (data := data) (bruise := bruise) (o := o) (Bool.eq_false_of_not_eq_true (mt hblocked.1 hfree)) hport hbytes
      refine hstart.trans (congrArg Host.Outcome.next ?_)
      unfold State.landLine
      dsimp only
      rw [show CoreState.tryLand _ _ _ _ _ _ _ _ _ = _ from hdone]
      refine congrArg (fun w => (v.setCore f.dest w).dropFlit n) (if_congr ?_ rfl rfl)
      rw [Bool.and_eq_true, Bool.and_eq_true, decide_eq_true_eq, Bool.not_eq_true', and_assoc]
    · refine hstart.trans (congrArg Host.Outcome.next ?_)
      unfold State.landLine
      dsimp only
      rw [CoreState.tryLand_held (hwait.imp_left hblocked.2)]
    · refine hstart.trans (congrArg Host.Outcome.next ?_)
      unfold State.landLine
      dsimp only
      rw [CoreState.tryLand_failed (Bool.eq_false_of_not_eq_true (mt hblocked.1 hfree)) hport hbytes]

end Sys2Proof.Claims
end

section
/-! Posted and active messages at their receiver (R262 to R272, R319). -/

namespace Sys2Proof.Machine

/-- The detail word of a drain whose unit was uncorrectable: bit 63 and its ordinal (R333). -/
theorem drain_detail (n : BitVec 9) : BitVec.ofNat 64 (2 ^ 63 + n.toNat * 2 ^ 32) = 1#1 ++ 0#22 ++ n ++ 0#32 := by
  have hlt := n.isLt
  refine BitVec.eq_of_toNat_eq ?_
  simp only [BitVec.toNat_append, BitVec.toNat_ofNat]
  rw [← Nat.shiftLeft_add_eq_or_of_lt (by omega : n.toNat < 2 ^ 9), ← Nat.shiftLeft_add_eq_or_of_lt (by decide : 0 % 2 ^ 22 < 2 ^ 22), ← Nat.shiftLeft_add_eq_or_of_lt (by decide : 0 % 2 ^ 32 < 2 ^ 32)]
  simp only [Nat.shiftLeft_eq]
  omega

/-- The delivery that a posted flit brings, where it is held at its ring (R267). -/
theorem heldDelivery_of_posted {s : State} {n since : Nat} {f : Flit} {ring : BitVec 3} {e : RingEntry} (hfind : AMap.find s.mesh.flits n = some f) (hkind : f.kind = .posted ring e) :
    (AMap.find s.mesh.flits (n, since).1).bind (fun f => f.kind.delivery.map (fun d => (f, d))) = some (f, ring, e) := by
  rw [hfind, Option.bind_some, hkind]
  rfl

/-- A posted delivery at the fc in which it is at its ring, in state `v` with its core `c` (R265, R267, R270). -/
theorem State.deliver_at {s v : State} {c : CoreState} (n : Nat) (f : Flit) (ring : BitVec 3) (e : RingEntry) (hv : s.onCore f.dest (fun env c => c.runTo env f.ready) = v) (hc : v.core f.dest = c) :
    s.deliver n f ring e =
      let gone := (v.dropFlit n).setCore f.dest { c with traffic.held := c.traffic.held.filter (fun x => x.1 != n) }
      let hold (full : Bool) := if c.traffic.held.any (fun x => x.1 == n) then v else
        v.setCore f.dest { c with traffic.held := c.traffic.held ++ [(n, c.step.offset)], work.sync.held := if full then satAdd c.work.sync.held 1 else c.work.sync.held }
      if !(c.ring ring).enable then gone.modCore f.dest (fun k => k.fault 0x201A { site := f.site } 0 0 0)
      else if (c.ringPtr ring).spill != 0 then if c.spillRoom then gone.modCore f.dest (fun k => k.spill ring e f.src f.site) else hold false
      else if c.ringRoom ring then gone.onCore f.dest (fun _ k => k.landEntry ring (if f.inPort = 4 then 1 else 2 + f.inPort.toNat) e false)
      else hold true := by
  subst hv hc
  rfl

end Sys2Proof.Machine

namespace Sys2Proof.Claims

open Sys2Proof.Machine

/-- Settles O37: posted messages land, are held, spill or are discarded, active messages queue, and drains land. -/
theorem messagesArrive : Obligations.MessagesArrive := by
  unfold Obligations.MessagesArrive
  refine ⟨fun s n f hfind hdest hruns hfirst => ⟨fun ring e hkind => ?_, fun m hkind => ?_, fun ring e since hkind hheld hcore => ?_⟩, fun s cid d rest hruns hdrains => ?_⟩
  · intro v c gone
    have hstart : execPostedMessageLands n s = .next (s.deliver n f ring e) := by
      refine (flitCommand_of_find hfind).trans ?_
      rw [hkind, hdest, hruns, hfirst]
      rfl
    have hdeliver := State.deliver_at (s := s) (v := v) (c := c) n f ring e rfl rfl
    rw [hdeliver] at hstart
    clear_value c v
    refine ⟨fun hoff => ?_, fun hon hspill hroom => ?_, fun hon hspill hroom hnew => ?_, fun hon hspill hroom => ?_⟩ <;> refine (show execPostedMessageLands n s = _ from hstart).trans (congrArg Host.Outcome.next ?_)
    · simp only [hoff, Bool.not_false, if_true]
      rfl
    · simp only [hon, hspill, hroom, Bool.not_true, bne_self_eq_false, Bool.false_eq_true, if_false, if_true]
      rfl
    · have hheld : (c.traffic.held.any fun x => x.1 == n) = false := List.any_eq_false.2 fun x hx => hnew x hx ∘ beq_iff_eq.1
      simp only [hon, hspill, hroom, hheld, Bool.not_true, bne_self_eq_false, Bool.false_eq_true, if_false, if_true]
    · have hspills : ((c.ringPtr ring).spill != 0) = true := bne_iff_ne.2 hspill
      simp only [hon, hspills, show c.spillRoom = true from decide_eq_true hroom, Bool.not_true, Bool.false_eq_true, if_false, if_true]
      rfl
  · intro c exists1
    have hstart : execActiveMessageArrives n s = .next (if !(s.env f.dest).amOn || !exists1 then (s.dropFlit n).onCore f.dest (fun env k => (k.runTo env f.ready).fault 0x201B { site := f.site } 0 0 0)
        else if 4 ≤ c.traffic.amQueue.length then s
        else (s.dropFlit n).onCore f.dest (fun env k => { k.runTo env f.ready with traffic.amQueue := (k.runTo env f.ready).traffic.amQueue ++ [m] })) := by
      refine (flitCommand_of_find hfind).trans ?_
      rw [hkind, hdest, hruns, hfirst]
      rfl
    refine ⟨fun hon hexists hroom => ?_, fun hoff => ?_⟩ <;> refine (show execActiveMessageArrives n s = _ from hstart).trans (congrArg Host.Outcome.next ?_)
    · rw [hon, hexists]
      exact if_neg (Nat.not_le.2 hroom)
    · refine if_pos ?_
      rw [Bool.or_eq_true, Bool.not_eq_true', Bool.not_eq_true']
      exact hoff
  · intro v c
    have hstart : execGranarySpill f.dest ring s = .next (if !c.spillRoom || (c.ringRoom ring && (c.ringPtr ring).spill == 0) then v
        else (v.dropFlit n).setCore f.dest (({ c with traffic.held := c.traffic.held.filter (fun x => x != (n, since)) } : CoreState).spill ring e f.src f.site)) := by
      unfold execGranarySpill
      dsimp only
      rw [hheld, List.findSome?_cons, heldDelivery_of_posted hfind hkind]
      simp only [beq_self_eq_true, if_true, hcore, show (s.env f.dest).running = true from hruns, Bool.not_true, Bool.false_eq_true, if_false]
      exact (apply_ite Host.Outcome.next _ _ _).symm
    refine ⟨fun hroom hfull => ?_, fun hwait => ?_⟩ <;> refine (show execGranarySpill f.dest ring s = _ from hstart).trans (congrArg Host.Outcome.next ?_)
    · refine if_neg ?_
      rw [show c.spillRoom = true from decide_eq_true hroom, Bool.not_true, Bool.false_or, Bool.and_eq_true, beq_iff_eq]
      rintro ⟨hr, hz⟩
      exact hfull.elim (fun h => absurd hr (ne_true_of_eq_false h)) (fun h => h hz)
    · refine if_pos ?_
      rw [Bool.or_eq_true, Bool.not_eq_true', Bool.and_eq_true, beq_iff_eq]
      exact hwait.imp_left (fun h => decide_eq_false (Nat.not_lt.2 h))
  · refine coreCommand_became hruns ?_
    have hfirst : (s.core cid).traffic.drains.find? (fun x => x.ring == d.ring) = some d := by
      rw [hdrains]
      exact List.find?_cons_of_pos (beq_self_eq_true d.ring)
    dsimp only
    rw [hfirst, ← drain_detail]

end Sys2Proof.Claims
end

section
/-! Barrier completions (R258, R260). -/

namespace Sys2Proof.Machine

/-- One step of `barrierLanding` keeps the later of two offsets. -/
theorem barrierLanding_step (g : Nat) (m : Nat × Nat) (x : Nat × Nat) :
    (let t := landingTerm g x.1 x.2; if m.1 < t then (t, x.1) else m).1 = max m.1 (landingTerm g x.1 x.2) := by
  dsimp only
  split
  · next h => exact (max_eq_right h.le).symm
  · next h => exact (max_eq_left (Nat.not_lt.1 h)).symm

/-- The landing offset of R258 is the largest of the terms of the last arrivals. -/
theorem barrierLanding_fst (g : Nat) (l : List (Nat × Nat)) : (barrierLanding g l).1 = (l.map (fun x => landingTerm g x.1 x.2)).foldl max 0 := by
  unfold barrierLanding
  generalize hm : (0, g) = m
  rw [show 0 = m.1 by rw [← hm]]
  clear hm
  induction l generalizing m with
  | nil => rfl
  | cons x l ih => rw [List.foldl_cons, ih, List.map_cons, List.foldl_cons, barrierLanding_step]

theorem barrierLanding_landsAt (g : Nat) (l : List (Nat × Nat)) : Claims.LandsAt g l (barrierLanding g l).1 := by
  rw [barrierLanding_fst, List.foldl_max, Nat.zero_max]
  refine ⟨fun x hx => List.le_max?_getD_of_mem (List.mem_map_of_mem hx), fun hne => ?_⟩
  obtain ⟨m, hm⟩ := Option.ne_none_iff_exists'.1 (mt List.max?_eq_none_iff.1 (mt List.map_eq_nil_iff.1 hne : l.map (fun x => landingTerm g x.1 x.2) ≠ []))
  rw [hm]
  exact List.mem_map.1 (List.max?_mem hm)

/-- A round that is due is one of the group's (R257). -/
theorem Plot.dueRound_group {p : Plot} {g : Nat} {field : FieldId} {key : Nat} {r : BarRound} {l : List (Nat × Nat)} (h : p.dueRound g field = some (key, r, l)) : key % 64 = g := by
  obtain ⟨x, -, hx⟩ := List.exists_of_findSome?_eq_some h
  split at hx
  · next hcond =>
    rw [Bool.and_eq_true, decide_eq_true_eq] at hcond
    obtain ⟨l', -, hl⟩ := Option.bind_eq_some_iff.1 hx
    split at hl
    · obtain ⟨rfl, -⟩ := Prod.mk.inj (Option.some.inj hl)
      exact hcond.1
    · cases hl
  · cases hx

end Sys2Proof.Machine

namespace Sys2Proof.Claims

open Sys2Proof.Machine

/-- Settles O38: a completed round raises the tally of every member of the field at the landing offset. -/
theorem barrierCompletionsLand : Obligations.BarrierCompletionsLand := by
  unfold Obligations.BarrierCompletionsLand
  intro s fn group field key r l p g land ms hstepping hdue hearly
  refine ⟨?_, Plot.dueRound_group hdue, barrierLanding_landsAt _ l⟩
  have hlate : (l.any (fun x => x.1 != field.toNat) && ms.any (fun c => decide (land < (s.core c).step.offset))) = false := by
    have hnone : ms.any (fun c => decide (land < (s.core c).step.offset)) = false := List.any_eq_false.2 fun c hc => ne_true_of_eq_false (decide_eq_false (Nat.not_lt.2 (hearly c hc)))
    rw [hnone, Bool.and_false]
  show execBarrierCompletionLands fn group field s = _
  unfold execBarrierCompletionLands
  dsimp only
  rw [show (s.plot fn).stepping = true from hstepping, show (s.plot fn).dueRound group.toNat field = _ from hdue]
  exact if_neg (ne_true_of_eq_false hlate)

end Sys2Proof.Claims
end

section
/-! The firings of a channel's entries (R316 to R322). -/

namespace Sys2Proof.Machine

/-- D0 of DEEP_UE and DS_RANGE: bit 63 and the ordinal (R378). -/
theorem ordinalWord_eq (n : BitVec 9) : ordinalWord n = 1#1 ++ 0#22 ++ n ++ 0#32 := drain_detail n

/-- Time that passes in a core leaves a channel its share, entries and counters; what the core sends joins the queue of writes. -/
theorem State.runTo_channel (s : State) (cid : CoreId) (f : Nat) (ch : ChanId) : ∃ w : List WriteUnit, (s.onCore cid (fun env c => c.runTo env f)).channel ch = { s.channel ch with writes := w } :=
  (State.onCore_slotFrame (CoreState.runTo_owner _ _ _)).channel ch

section Firings

variable {s : State} {ch : ChanId} {entry : BitVec 6} {kind : Nat} {e : DsEntry} {m f : Nat} {cid : CoreId} {act : State → Channel → DsEntry → Nat → CoreId → Nat → State}

/-- A firing that stands is counted with its core at its offset, judged against the share, and its units begin (R316, R320). -/
theorem firingCommand_fires (h : Claims.Fires s ch entry kind e m f cid) :
    let u := Claims.firedAt s ch entry cid f
    let a := (u.plot ((s.channel ch).owner.getD 0)).unitAddress e m
    firingCommand s ch entry kind act = .next (if kind != 2 && !(s.channel ch).inShare a e.lines then
        u.modCore cid (fun c => c.fault 0x2020 { site := e.site, num := entry.toNat } (1#1 ++ 0#22 ++ (s.channel ch).ordinal ++ 0#32) (BitVec.ofInt 64 a) 0)
      else act u (u.channel ch) e m cid a.toNat) := by
  obtain ⟨hchan, hnext, hbefore, howner, rfl, hruns⟩ := h
  intro u a
  unfold firingCommand channelCommand
  rw [if_neg (by rw [State.hasChannel, decide_eq_true hchan]; decide)]
  dsimp only
  rw [hnext]
  dsimp only
  rw [hruns, hbefore, ← Option.not_isSome, howner, ← ordinalWord_eq]
  rfl

/-- The units of a firing outside the channel's share are reported and not requested (R320). -/
theorem firingCommand_range (h : Claims.Fires s ch entry kind e m f cid) (hkind : kind ≠ 2) :
    let u := Claims.firedAt s ch entry cid f
    let a := (u.plot ((s.channel ch).owner.getD 0)).unitAddress e m
    (s.channel ch).inShare a e.lines = false →
    firingCommand s ch entry kind act = .next (u.modCore cid (fun c => c.fault 0x2020 { site := e.site, num := entry.toNat } (1#1 ++ 0#22 ++ (s.channel ch).ordinal ++ 0#32) (BitVec.ofInt 64 a) 0)) := by
  intro u a hout
  refine (firingCommand_fires h).trans (congrArg Host.Outcome.next (if_pos ?_))
  rw [show _ = _ from hout, bne_iff_ne.2 hkind]
  rfl

/-- A firing with its units in the share, or of a granary, begins (R316, R319). -/
theorem firingCommand_act (h : Claims.Fires s ch entry kind e m f cid) :
    let u := Claims.firedAt s ch entry cid f
    let a := (u.plot ((s.channel ch).owner.getD 0)).unitAddress e m
    (kind = 2 ∨ (s.channel ch).inShare a e.lines = true) → firingCommand s ch entry kind act = .next (act u (u.channel ch) e m cid a.toNat) := by
  intro u a hin
  refine (firingCommand_fires h).trans (congrArg Host.Outcome.next (if_neg ?_))
  rw [Bool.and_eq_true, bne_iff_ne, Bool.not_eq_true', not_and_or, not_ne_iff, Bool.not_eq_false]
  exact hin

theorem firedAt_ordinal : ((Claims.firedAt s ch entry cid f).channel ch).ordinal = (s.channel ch).ordinal := by
  obtain ⟨w, hw⟩ := s.runTo_channel cid f ch
  rw [Claims.firedAt, State.setChannel_channel_same, hw]
  rfl

end Firings

end Sys2Proof.Machine

namespace Sys2Proof.Claims

open Sys2Proof.Machine

/-- Settles O39: each firing is counted, and its units, drain or spill begin. -/
theorem channelEntriesFire : Obligations.ChannelEntriesFire := by
  unfold Obligations.ChannelEntriesFire
  intro s ch entry e m f cid k u c a
  refine ⟨fun hfires => ⟨fun hin haligned => ?_, fun hout => (show execDsReadFiring ch entry s = _ from firingCommand_range hfires (by decide) hout)⟩, fun hfires => ⟨fun hin => (show execDsWriteFiring ch entry s = _ from firingCommand_act hfires (.inr hin)), fun hout => (show execDsWriteFiring ch entry s = _ from firingCommand_range hfires (by decide) hout)⟩, fun hfires => ?_⟩
  · refine (show execDsReadFiring ch entry s = _ from firingCommand_act hfires (.inr hin)).trans (congrArg Host.Outcome.next ?_)
    dsimp only [DsEntry.position]
    rw [show (u.core cid).destAligned e.h (e.hpos + m * e.hstep) = none from haligned]
  · refine ⟨fun r g rest hring hqueue => ?_, fun w hring hspill => ?_, fun hring hspill => ?_⟩ <;>
      refine (show execDsGranaryFiring ch entry s = _ from firingCommand_act hfires (.inl rfl)).trans (congrArg Host.Outcome.next ?_) <;> dsimp only <;> rw [show (u.core cid).drainRing = _ from hring] <;> dsimp only
    · rw [show AMap.get [] (u.core cid).work.queues r.toNat = g :: rest from hqueue, firedAt_ordinal]
      dsimp only [entryOfUnit]
    · rw [show (u.core cid).spillRing = some w from hspill]
    · rw [show (u.core cid).spillRing = none from hspill]

end Sys2Proof.Claims
end

section
/-! The units of a deep-store channel (R331 to R333). -/

namespace Sys2Proof.Machine

/-- The bytes of a number, least significant first, make its lowest `n` bytes. -/
theorem foldr_bytes (x s n : Nat) : (List.range' s n).foldr (fun i m => x / 256 ^ i % 256 + 256 * m) 0 = x / 256 ^ s % 256 ^ n := by
  induction n generalizing s with
  | zero => exact (Nat.mod_one _).symm
  | succ n ih => rw [List.range'_succ, List.foldr_cons, ih, pow_succ' 256 n, Nat.mod_mul, Nat.div_div_eq_div_mul, ← pow_succ]

/-- A value is what its bytes make. -/
theorem ofNat_bytes {n : Nat} (d : BitVec (8 * n)) : BitVec.ofNat (8 * n) ((List.range n).foldr (fun i m => (d.extractLsb' (8 * i) 8).toNat + 256 * m) 0) = d := by
  have hbyte : (fun (i m : Nat) => (d.extractLsb' (8 * i) 8).toNat + 256 * m) = fun i m => d.toNat / 256 ^ i % 256 + 256 * m := by
    funext i m
    rw [BitVec.extractLsb'_toNat, Nat.shiftRight_eq_div_pow, pow_mul]
    rfl
  have hbound : d.toNat < 256 ^ n := d.isLt.trans_eq (pow_mul 2 8 n)
  rw [hbyte, List.range_eq_range', foldr_bytes, pow_zero, Nat.div_one, Nat.mod_eq_of_lt hbound, BitVec.ofNat_toNat, BitVec.setWidth_eq]

/-- Bytes put at rising addresses from `a` on. -/
theorem AMap.get_putRange (m : AMap Byte) (a : Nat) (v : Nat → Byte) (n k : Nat) :
    AMap.get 0 ((List.range n).foldl (fun m i => AMap.put 0 m (a + i) (v i)) m) k = if a ≤ k ∧ k < a + n then v (k - a) else AMap.get 0 m k := by
  induction n with
  | zero => exact (if_neg (by omega)).symm
  | succ n ih =>
    rw [List.range_succ, List.foldl_concat, AMap.get_put, ih]
    by_cases h : k = a + n
    · rw [if_pos h, if_pos (by omega), h, Nat.add_sub_cancel_left]
    · rw [if_neg h]
      exact if_congr (by omega) rfl rfl

namespace Channel

variable (k : Channel) {u y : Nat} (d : BitVec 512) (b : BitVec 8)

theorem data_write_same : (k.write u d b).data u = d := by
  have h : ∀ i ∈ List.range 64, ∀ n : Nat, (AMap.get (0 : Byte) (k.write u d b).mem (64 * u + i)).toNat + 256 * n = (d.extractLsb' (8 * i) 8).toNat + 256 * n := by
    intro i hi n
    rw [Channel.write, AMap.get_putRange, if_pos ⟨Nat.le_add_right _ _, Nat.add_lt_add_left (List.mem_range.1 hi) _⟩, Nat.add_sub_cancel_left]
  rw [Channel.data, List.foldr_ext _ _ _ h]
  exact ofNat_bytes (n := 64) d

theorem data_write_ne (h : y ≠ u) : (k.write u d b).data y = k.data y := by
  have hbytes : ∀ i ∈ List.range 64, ∀ n : Nat, (AMap.get (0 : Byte) (k.write u d b).mem (64 * y + i)).toNat + 256 * n = (AMap.get (0 : Byte) k.mem (64 * y + i)).toNat + 256 * n := by
    intro i hi n
    have hlt := List.mem_range.1 hi
    rw [Channel.write, AMap.get_putRange, if_neg (by omega)]
  rw [Channel.data, List.foldr_ext _ _ _ hbytes]
  rfl

theorem unitOf_write_same : Claims.unitOf (k.write u d b) u = (d, b, .sound) := by
  rw [Claims.unitOf, data_write_same]
  exact congrArg₂ (fun x y => (d, x, y)) (AMap.get_put_same _ _ _ _) (AMap.get_put_same Damage.sound k.damage u Damage.sound)

theorem unitOf_write_ne (h : y ≠ u) : Claims.unitOf (k.write u d b) y = Claims.unitOf k y := by
  rw [Claims.unitOf, data_write_ne k d b h]
  exact congrArg₂ (fun x z => (k.data y, x, z)) (AMap.get_put_ne _ _ _ h) (AMap.get_put_ne Damage.sound k.damage Damage.sound h)

/-! ### Reading a unit -/

theorem readUnit_sound (h : AMap.get .sound k.damage u = .sound) : k.readUnit u = (k, k.data u, AMap.get 0 k.bruise u, false) := by
  unfold Channel.readUnit
  rw [h]

theorem readUnit_correctable (h : AMap.get .sound k.damage u = .correctable) :
    k.readUnit u = ({ k with damage := AMap.put .sound k.damage u .sound, stat.ce := satAdd k.stat.ce 1 }, k.data u, AMap.get 0 k.bruise u, false) := by
  unfold Channel.readUnit
  rw [h]

theorem readUnit_uncorrectable (h : AMap.get .sound k.damage u = .uncorrectable) :
    k.readUnit u = ({ k.write u (k.data u) 0xFF with stat.ue := satAdd k.stat.ue 1 }, k.data u, 0xFF, true) := by
  unfold Channel.readUnit
  rw [h]

/-- Reading a unit changes its content and the counts alone. -/
theorem readUnit_frame (u : Nat) : ∃ (m : List Host.Cell) (b : AMap (BitVec 8)) (d : AMap Damage) (st : ChStat), (k.readUnit u).1 = { k with mem := m, bruise := b, damage := d, stat := st } := by
  match h : AMap.get .sound k.damage u with
  | .sound => exact ⟨_, _, _, _, congrArg Prod.fst (k.readUnit_sound h)⟩
  | .correctable => exact ⟨_, _, _, _, congrArg Prod.fst (k.readUnit_correctable h)⟩
  | .uncorrectable => exact ⟨_, _, _, _, congrArg Prod.fst (k.readUnit_uncorrectable h)⟩

theorem readUnit_data : (k.readUnit u).2.1 = k.data u := by
  match h : AMap.get .sound k.damage u with
  | .sound => rw [k.readUnit_sound h]
  | .correctable => rw [k.readUnit_correctable h]
  | .uncorrectable => rw [k.readUnit_uncorrectable h]

theorem readUnit_bruise : (k.readUnit u).2.2.1 = if AMap.get .sound k.damage u = .uncorrectable then 0xFF else AMap.get 0 k.bruise u := by
  match h : AMap.get .sound k.damage u with
  | .sound => rw [k.readUnit_sound h, h]; rfl
  | .correctable => rw [k.readUnit_correctable h, h]; rfl
  | .uncorrectable => rw [k.readUnit_uncorrectable h, h]; rfl

/-- A unit that is read stays, sound, with the bruise bits that it was read with. -/
theorem unitOf_readUnit_same : Claims.unitOf (k.readUnit u).1 u = ((k.readUnit u).2.1, (k.readUnit u).2.2.1, .sound) := by
  match h : AMap.get .sound k.damage u with
  | .sound => rw [k.readUnit_sound h]; exact congrArg (fun x => (k.data u, AMap.get 0 k.bruise u, x)) h
  | .correctable => rw [k.readUnit_correctable h]; exact congrArg (fun x => (k.data u, AMap.get 0 k.bruise u, x)) (AMap.get_put_same Damage.sound k.damage u Damage.sound)
  | .uncorrectable => rw [k.readUnit_uncorrectable h]; exact k.unitOf_write_same (k.data u) 0xFF

theorem unitOf_readUnit_ne (h : y ≠ u) : Claims.unitOf (k.readUnit u).1 y = Claims.unitOf k y := by
  match hd : AMap.get .sound k.damage u with
  | .sound => rw [k.readUnit_sound hd]
  | .correctable => rw [k.readUnit_correctable hd]; exact congrArg (fun x => (k.data y, AMap.get 0 k.bruise y, x)) (AMap.get_put_ne Damage.sound k.damage Damage.sound h)
  | .uncorrectable => rw [k.readUnit_uncorrectable hd]; exact k.unitOf_write_ne (k.data u) 0xFF h

/-! ### Requests of a unit -/

theorem readsBefore_of_reads_nil (w : WriteUnit) (h : k.reads = []) : k.readsBefore w = k := by
  unfold Channel.readsBefore Channel.takeReads
  rw [h]
  rfl

/-- A unit is read as it stands where no write waits. -/
theorem readOrdered_of_writes_nil (u req : Nat) (entry : BitVec 6) (h : k.writes = []) : k.readOrdered u req entry = k.readUnit u := by
  unfold Channel.readOrdered
  rw [h]
  rfl

/-- Reading a unit after the writes requested before it changes its content and the counts alone. -/
theorem readOrdered_frame (u req : Nat) (entry : BitVec 6) :
    ∃ (m : List Host.Cell) (b : AMap (BitVec 8)) (d : AMap Damage) (st : ChStat), (k.readOrdered u req entry).1 = { k with mem := m, bruise := b, damage := d, stat := st } := by
  unfold Channel.readOrdered
  split
  · exact ⟨_, _, _, _, rfl⟩
  · exact k.readUnit_frame u

end Channel

/-- A command of a channel of the grade acts on it. -/
theorem channelCommand_acts {s : State} {ch : ChanId} {act : Channel → State} (h : ch.toNat < s.grade.channels) : channelCommand s ch act = .next (act (s.channel ch)) :=
  if_neg (by rw [State.hasChannel, decide_eq_true h]; decide)

section Writes

variable {s : State} {ch : ChanId} {w : WriteUnit} {rest : List WriteUnit}

theorem execDsWritePerformed_performs (hchan : ch.toNat < s.grade.channels) (hwrites : (s.channel ch).writes = w :: rest) (hreads : (s.channel ch).reads = []) (hfirst : s.requestsBefore ch w.req w.entry = false) :
    ∃ t : State, execDsWritePerformed ch s = .next t ∧
      (w.spill = true → t = s.setChannel ch (({ s.channel ch with writes := rest } : Channel).write (w.unit % shareUnits) w.data w.bruise)) ∧
      (w.spill = false →
        let k : Channel := { s.channel ch with writes := rest }
        let r := k.readUnit (w.unit % shareUnits)
        t.channel ch = ({ r.1 with journal := r.1.journal ++ [{ unit := w.unit % shareUnits, data := r.2.1, bruise := r.2.2.1, damage := .sound }] } : Channel).write (w.unit % shareUnits) w.data w.bruise) := by
  refine ⟨_, channelCommand_acts hchan, ?_⟩
  dsimp only
  rw [hwrites]
  dsimp only
  rw [if_neg (ne_true_of_eq_false hfirst), Channel.readsBefore_of_reads_nil _ w hreads]
  refine ⟨fun hspill => if_pos hspill, fun hspill => ?_⟩
  rw [if_neg (ne_true_of_eq_false hspill)]
  split <;> exact State.setChannel_channel_same _ _ _

end Writes

/-! ### A read unit lands -/

section Reads

variable {v : State} {ch : ChanId} {u : ReadUnit} {d : CoreState}

@[simp] theorem CoreState.settleUnit_step (c : CoreState) (u : ReadUnit) : (c.settleUnit u).step = c.step := by
  unfold CoreState.settleUnit CoreState.collision
  split
  · rfl
  · rfl

/-- What the receiver of a landed unit is left with: the delay counted, DEEP_UE noted, and the tally raised with the last unit of a whole firing (R301, R317, R333). -/
def CoreState.unitLanded (c : CoreState) (k : Channel) (w : ReadUnit) : CoreState :=
  let x := c.settleUnit w
  let y := if w.bad then x.noteUe k.ordinal w.unit { site := w.site, num := w.entry.toNat } else x
  if w.j = w.last && w.tallyEn && !k.failedFirings.contains (w.entry.toNat, w.firing) then y.push y.step.offset (.tally w.tally w.amount) else y

theorem CoreState.unitLanded_events (c : CoreState) (k : Channel) (w : ReadUnit) :
    let raise : Prop := w.j = w.last ∧ w.tallyEn = true ∧ (w.entry.toNat, w.firing) ∉ k.failedFirings
    (raise → (c.unitLanded k w).step.events = c.step.events ++ [{ fc := c.step.offset, ev := .tally w.tally w.amount }]) ∧ (¬ raise → (c.unitLanded k w).step.events = c.step.events) := by
  intro raise
  have hraise : (w.j = w.last && w.tallyEn && !k.failedFirings.contains (w.entry.toNat, w.firing)) = true ↔ raise := by
    rw [Bool.and_eq_true, Bool.and_eq_true, decide_eq_true_eq, Bool.not_eq_true', ← Bool.not_eq_true, List.contains_iff_mem, and_assoc]
  have hstep : ∀ x : CoreState, (if w.bad then x.noteUe k.ordinal w.unit { site := w.site, num := w.entry.toNat } else x).step = x.step := fun x => by split <;> rfl
  unfold CoreState.unitLanded
  refine ⟨fun h => ?_, fun h => ?_⟩ <;> dsimp only
  · rw [if_pos (hraise.2 h), CoreState.push, hstep, CoreState.settleUnit_step]
  · rw [if_neg (mt hraise.1 h), hstep, CoreState.settleUnit_step]

theorem State.landUnit_done (hreads : (v.channel ch).reads = [u]) (htaken : u.taken = false) :
    let q := (v.channel ch).readOrdered (u.unit % shareUnits) u.req u.entry
    let w : ReadUnit := { u with data := q.2.1, bruise := q.2.2.1, bad := q.2.2.2, taken := true }
    (v.core u.core).tryUnit (v.env u.core) (v.unitFirst ch w (v.core u.core).step.offset) w = .done d →
    v.landUnit ch u = (v.setCore u.core (d.unitLanded q.1 w)).setChannel ch { q.1 with reads := [] } := by
  intro q w hdone
  have htake : (v.channel ch).takeRead u = (q.1, w) := if_neg (ne_true_of_eq_false htaken)
  obtain ⟨m, b, dm, st, hframe⟩ := (v.channel ch).readOrdered_frame (u.unit % shareUnits) u.req u.entry
  have hq : q.1.reads = [u] := (congrArg Channel.reads hframe).trans hreads
  unfold State.landUnit
  dsimp only
  rw [htake]
  dsimp only
  rw [hq, List.map_singleton, if_pos (beq_self_eq_true u), List.erase_cons_head]
  rw [show CoreState.tryUnit _ _ _ _ = _ from hdone]
  rfl

end Reads

end Sys2Proof.Machine

namespace Sys2Proof.Claims

open Sys2Proof.Machine

/-- Settles O40: a read unit lands at its receiver, and a write is journaled and written. -/
theorem deepStoreUnitsLand : Obligations.DeepStoreUnitsLand := by
  unfold Obligations.DeepStoreUnitsLand
  intro s ch hchan k
  refine ⟨fun u hreads hruns htaken hdelayed => ?_, fun w rest hwrites hreads hfirst => ?_⟩
  · intro v c q w bytes hfirst hahead hfree hbytes
    obtain ⟨ws, hframe⟩ := s.runTo_channel u.core u.land ch
    have hreadsv : (v.channel ch).reads = [u] := (congrArg Channel.reads hframe).trans hreads
    have hfailedv : (v.channel ch).failedFirings = k.failedFirings := (congrArg Channel.failedFirings hframe).trans rfl
    have hstart : execDsReadUnitLands ch s = .next (v.landUnit ch u) := by
      refine (channelCommand_acts hchan).trans (congrArg Host.Outcome.next ?_)
      have hnext : (s.channel ch).nextRead = some u := by
        unfold Channel.nextRead
        rw [hreads]
        rfl
      rw [hnext]
      dsimp only
      rw [hruns]
      exact if_neg (ne_true_of_eq_false hfirst)
    have hdone : (v.core u.core).tryUnit (v.env u.core) (v.unitFirst ch w (v.core u.core).step.offset) w = .done (c.push c.step.offset
        (.write (bytes.zipIdx.map (fun p => { addr := p.1, val := q.2.1.extractLsb' (8 * p.2) 8, bruise := q.2.2.1.getLsbD (p.2 / 8) })) true { site := u.site, num := u.entry.toNat, port := 5 })) := by
      unfold CoreState.tryUnit
      rw [if_neg (ne_true_of_eq_false hdelayed)]
      exact CoreState.tryLand_done (Bool.or_eq_false_iff.2 ⟨hahead, hfree⟩) rfl hbytes
    refine ⟨v.landUnit ch u, hstart, ?_⟩
    rw [State.landUnit_done hreadsv htaken hdone, State.setChannel_channel_same]
    refine ⟨rfl, ?_⟩
    intro wr raise
    obtain ⟨m, b, d, st, hq⟩ := (v.channel ch).readOrdered_frame (u.unit % shareUnits) u.req u.entry
    have hfailed : q.1.failedFirings = k.failedFirings := (congrArg Channel.failedFirings hq).trans hfailedv
    obtain ⟨hraised, hnot⟩ := (c.push c.step.offset wr).unitLanded_events q.1 w
    rw [hfailed] at hraised hnot
    have hcore : ∀ x : Channel, ((v.setCore u.core ((c.push c.step.offset wr).unitLanded q.1 w)).setChannel ch x).core u.core = (c.push c.step.offset wr).unitLanded q.1 w := fun _ => State.setCore_core_same _ _ _
    refine ⟨fun h => ?_, fun h => ?_⟩
    · rw [hcore, hraised h]
      exact List.append_assoc _ _ _
    · rw [hcore, hnot h]
      rfl
  · obtain ⟨t, ht, hspill, hwrite⟩ := execDsWritePerformed_performs hchan hwrites hreads hfirst
    refine ⟨t, ht, ?_⟩
    intro x
    match h : w.spill with
    | true =>
      rw [hspill h, State.setChannel_channel_same]
      exact ⟨Channel.unitOf_write_same _ _ _, fun y hy => Channel.unitOf_write_ne _ _ _ hy, rfl, nofun, fun _ => ⟨rfl, rfl⟩⟩
    | false =>
      rw [hwrite h]
      let k1 : Channel := { k with writes := rest }
      obtain ⟨m, b, d, st, hframe⟩ := k1.readUnit_frame x
      refine ⟨Channel.unitOf_write_same _ _ _, fun y hy => ?_, congrArg Channel.writes hframe, fun _ =>
        ⟨{ unit := x, data := (k1.readUnit x).2.1, bruise := (k1.readUnit x).2.2.1, damage := .sound }, ?_, rfl, k1.readUnit_data, k1.readUnit_bruise⟩, nofun⟩
      · refine (Channel.unitOf_write_ne _ _ _ hy).trans ?_
        exact k1.unitOf_readUnit_ne hy
      · have hjournal : (k1.readUnit x).1.journal = k.journal := (congrArg Channel.journal hframe).trans rfl
        exact congrArg (· ++ _) hjournal

end Sys2Proof.Claims
end

section
/-! The upkeep of deep store: stalls, refresh, scrub and zeroing (R324 to R338, R453). -/

namespace Sys2Proof.Machine

namespace Channel

variable {k : Channel} {x : ReadUnit} {u : Nat}

theorem takeReads_of_none (sel : ReadUnit → Bool) (h : ∀ x ∈ k.reads, sel x = false) : k.takeReads sel = k := by
  unfold Channel.takeReads
  generalize k.reads = l at h
  induction l with
  | nil => rfl
  | cons x l ih =>
    rw [List.foldl_cons, if_neg (ne_true_of_eq_false (h x List.mem_cons_self))]
    exact ih fun y hy => h y (List.mem_cons_of_mem x hy)

theorem takeReads_single (sel : ReadUnit → Bool) (hreads : k.reads = [x]) (hsel : sel x = true) (htaken : x.taken = false) :
    let q := k.readOrdered (x.unit % shareUnits) x.req x.entry
    k.takeReads sel = { q.1 with reads := [{ x with data := q.2.1, bruise := q.2.2.1, bad := q.2.2.2, taken := true }] } := by
  intro q
  obtain ⟨m, b, d, st, hframe⟩ := k.readOrdered_frame (x.unit % shareUnits) x.req x.entry
  have hq : q.1.reads = [x] := (congrArg Channel.reads hframe).trans hreads
  unfold Channel.takeReads
  rw [hreads, List.foldl_cons, List.foldl_nil, if_pos hsel]
  unfold Channel.takeRead
  rw [if_neg (ne_true_of_eq_false htaken)]
  dsimp only
  rw [hq, List.map_singleton, if_pos (beq_self_eq_true x)]

/-- A unit none of whose bytes is listed reads as 0. -/
theorem data_of_mem_nil (h : k.mem = []) : k.data u = 0 := by
  have hzero : ∀ l : List Nat, l.foldr (fun _ n => (0 : Byte).toNat + 256 * n) 0 = 0 := fun l => by
    induction l with
    | nil => rfl
    | cons i l ih => rw [List.foldr_cons, ih]; rfl
  unfold Channel.data
  rw [h]
  exact congrArg (BitVec.ofNat 512) (hzero _)

end Channel

section Scrub

variable {s : State} {ch : ChanId} {k : Channel} {u : Nat}

/-- What SCRUB_BRUISE leaves of the module: an event and a report of the owner, or a report in the reeve's log (R332). -/
def State.scrubBruised (s : State) (k : Channel) (u : Nat) : State :=
  match k.owner with
  | none => s.modHub (fun h => { h with faults := h.faults.enterLog { code := 0x0002, time := s.stamp, seq := h.seq }, seq := h.seq + 1 })
  | some fn => s.modPlot fn (fun p =>
      let p := p.hubReport fn 0x0002 s.stamp 0 0 0
      { p with run.events := p.run.events ++ [{ code := 0x0002, bell := p.bell.bell, attempt := p.bell.attempt, kind := 1, site := 0, offset := 0xFFFFFFFF
                                                d0 := ordinalWord k.ordinal, d1 := BitVec.ofNat 64 (k.ordinal.toNat * shareUnits + u) }] })

@[simp] theorem State.scrubBruised_channel : (s.scrubBruised k u).channel ch = s.channel ch := by
  unfold State.scrubBruised
  split <;> rfl

variable (hchan : ch.toNat < s.grade.channels) (hk : (s.channel ch).takeReads (fun x => x.unit % shareUnits == u && !s.requestsBefore ch x.req x.entry) = k)

include hchan hk

/-- A scrub reads the unit that the reads which stand before it have left, as channel `k` (R332). -/
theorem execDsScrub_reads :
    execDsScrub ch u s = .next (if !(AMap.get Damage.sound k.damage u == .uncorrectable) then s.setChannel ch (k.readUnit u).1 else (s.setChannel ch (k.readUnit u).1).scrubBruised k u) := by
  refine (channelCommand_acts hchan).trans (congrArg Host.Outcome.next ?_)
  dsimp only
  rw [hk]
  rfl

theorem execDsScrub_quiet (h : AMap.get Damage.sound k.damage u ≠ .uncorrectable) : execDsScrub ch u s = .next (s.setChannel ch (k.readUnit u).1) :=
  (execDsScrub_reads hchan hk).trans (congrArg Host.Outcome.next (if_pos (by rw [beq_false_of_ne h]; rfl)))

theorem execDsScrub_bruises (h : AMap.get Damage.sound k.damage u = .uncorrectable) : execDsScrub ch u s = .next ((s.setChannel ch (k.readUnit u).1).scrubBruised k u) :=
  (execDsScrub_reads hchan hk).trans (congrArg Host.Outcome.next (if_neg (by rw [h]; decide)))

end Scrub

end Sys2Proof.Machine

namespace Sys2Proof.Claims

open Sys2Proof.Machine

/-- Settles O41: stalls, refreshes, scrubs and zeroing of a channel. -/
theorem deepStoreUpkeep : Obligations.DeepStoreUpkeep := by
  unfold Obligations.DeepStoreUpkeep
  intro s ch hchan k
  refine ⟨fun howner hlate => ?_, fun hstalled hroom periods => ?_, ?_, fun u x hreads hwrites hunit htaken hfirst hbad => ?_, fun u hnone => ?_, fun hzero => ?_⟩
  · have hstart : execDeepStall ch s = .next (if k.owner.isSome && (k.reads.any (fun u => u.land ≤ (s.core u.core).step.offset) || writeQueue < k.writes.length) then s.setChannel ch { k with stalled := true } else s) :=
      channelCommand_acts hchan
    refine (show execDeepStall ch s = _ from hstart).trans (congrArg Host.Outcome.next (if_pos ?_))
    rw [Bool.and_eq_true, Bool.or_eq_true, List.any_eq_true, decide_eq_true_eq]
    exact ⟨howner, hlate.imp_left fun ⟨u, hu, hl⟩ => ⟨u, hu, decide_eq_true hl⟩⟩
  · refine ⟨_, (show execDeepStallEnd ch periods s = _ from channelCommand_acts hchan), ?_⟩
    dsimp only
    rw [if_neg (by rw [show _ = true from hstalled, show writeQueue = 512 from rfl, decide_eq_false (Nat.not_lt.2 hroom)]; decide)]
    refine ⟨State.setChannel_channel_same _ _ _, rfl, fun hfirst => ?_⟩
    rw [State.modPlot_eq, State.setPlot_plot_same, show (s.channel ch).stalledInStep = false from hfirst]
    exact ⟨_, rfl, rfl, BitVec.ofNat_toNat _ _, rfl⟩
  · have hstart : execDsRefresh ch s = .next (s.setChannel ch { k with stat.refreshSub := (k.stat.refreshSub + 1) % 256, stat.refresh := if k.stat.refreshSub + 1 = 256 then satAdd k.stat.refresh 1 else k.stat.refresh }) :=
      channelCommand_acts hchan
    refine ⟨_, hstart, ?_⟩
    simp only [Nat.reduceEqDiff]
  · let q := k.readUnit u
    have hq : q = ({ k.write u (k.data u) 0xFF with stat.ue := satAdd k.stat.ue 1 }, k.data u, 0xFF, true) := k.readUnit_uncorrectable hbad
    have htake : k.takeReads (fun x => x.unit % shareUnits == u && !s.requestsBefore ch x.req x.entry) = { q.1 with reads := [{ x with data := q.2.1, bruise := q.2.2.1, bad := q.2.2.2, taken := true }] } := by
      refine (Channel.takeReads_single _ hreads ?_ htaken).trans ?_
      · rw [hunit, hfirst, beq_self_eq_true]
        rfl
      · rw [hunit, Channel.readOrdered_of_writes_nil _ _ _ _ hwrites]
    rw [hq] at htake
    have hsound : AMap.get Damage.sound (k.write u (k.data u) 0xFF).damage u = .sound := AMap.get_put_same Damage.sound k.damage u .sound
    have hstart := (execDsScrub_quiet hchan htake (fun h => nomatch hsound.symm.trans h)).trans (congrArg (fun r : Channel × BitVec 512 × BitVec 8 × Bool => Host.Outcome.next (s.setChannel ch r.1)) (Channel.readUnit_sound _ hsound))
    exact ⟨_, hstart, rfl, rfl, congrArg Channel.reads (State.setChannel_channel_same _ _ _)⟩
  · have hk : k.takeReads (fun x => x.unit % shareUnits == u && !s.requestsBefore ch x.req x.entry) = k :=
      Channel.takeReads_of_none _ fun x hx => by rw [beq_false_of_ne (hnone x hx), Bool.false_and]
    have hchannel : (s.setChannel ch (k.readUnit u).1).channel ch = (k.readUnit u).1 := State.setChannel_channel_same _ _ _
    refine ⟨fun hsound => ?_, fun hcorr => ?_, fun hbad => ?_⟩
    · have hstart := execDsScrub_quiet hchan hk (fun h => nomatch hsound.symm.trans h)
      rw [k.readUnit_sound hsound] at hstart
      exact hstart
    · refine ⟨_, execDsScrub_quiet hchan hk (fun h => nomatch hcorr.symm.trans h), rfl, rfl, ?_⟩
      rw [hchannel]
      refine ⟨k.unitOf_readUnit_same.trans ?_, fun y hy => k.unitOf_readUnit_ne hy, ?_⟩ <;> rw [k.readUnit_correctable hcorr]
    · have hunit : Claims.unitOf (k.readUnit u).1 u = (k.data u, 0xFF, .sound) := k.unitOf_readUnit_same.trans (by rw [k.readUnit_uncorrectable hbad])
      have hstat : (k.readUnit u).1.stat = { k.stat with ue := satAdd k.stat.ue 1 } := by rw [k.readUnit_uncorrectable hbad]; rfl
      refine ⟨_, execDsScrub_bruises hchan hk hbad, ?_⟩
      rw [State.scrubBruised_channel, hchannel]
      refine ⟨hunit, fun y hy => k.unitOf_readUnit_ne hy, hstat, fun fn howner => ?_, fun howner => ?_⟩ <;> rw [State.scrubBruised, show k.owner = _ from howner]
      · exact ⟨_, congrArg (fun p : Plot => p.run.events) (State.setPlot_plot_same _ _ _), rfl, rfl⟩
      · exact ⟨_, List.getLast?_concat, rfl⟩
  · have hstart : execChannelZeroDone ch s = .next (if k.zeroing then s.setChannel ch { k with zeroing := false, mem := [], bruise := [], damage := [] } else s) := channelCommand_acts hchan
    rw [if_pos hzero] at hstart
    refine ⟨_, hstart, ?_⟩
    rw [State.setChannel_channel_same]
    exact ⟨rfl, fun u => congrArg (fun d => (d, 0, Damage.sound)) (Channel.data_of_mem_nil rfl), rfl⟩

end Sys2Proof.Claims
end

section
/-! Arrivals, releases and edges (R54 to R64). -/

namespace Sys2Proof.Machine

section Arrivals

variable {s : State} {cid : CoreId} {p : Plot} {t : Nat}

/-- The conditions of R54, one by one. -/
theorem State.mayArrive_of (hmain : (s.core cid).step.main.stopped = true) (hfill : (s.core cid).step.fill.stopped = true) (hhalt : (s.core cid).step.haltAt = none) (hevents : (s.core cid).step.events = [])
    (hqueue : (s.core cid).traffic.sendQueue = []) (hout : (s.core cid).traffic.outbox = []) (hposted : s.postedOut cid = false)
    (hreqs : ∀ r ∈ (s.plot ((s.core cid).owner.getD 0)).commons.requests, r.core = cid → r.accepted = true) : s.mayArrive cid = true := by
  have hnone : (s.plot ((s.core cid).owner.getD 0)).commons.requests.any (fun r => r.core == cid && !r.accepted) = false := by
    refine List.any_eq_false.2 fun r hr => ?_
    rw [Bool.and_eq_true, beq_iff_eq, Bool.not_eq_true', not_and, Bool.not_eq_false]
    exact hreqs r hr
  unfold State.mayArrive
  dsimp only
  rw [hmain, hfill, hhalt, hevents, hqueue, hout, hposted, hnone]
  rfl

theorem Plot.mem_fieldList {f : FieldId} : f.toNat ∈ p.fieldList ↔ ∃ c ∈ p.cores, fieldOfCore c = f := by
  unfold Plot.fieldList
  rw [List.mem_filter, List.mem_range, List.any_eq_true]
  simp only [beq_iff_eq, BitVec.toNat_inj, f.isLt, true_and]

/-- An option of a time that is clear of `t` by a gap. -/
theorem gapClear_iff {o : Option Nat} {gap : Nat} : (match o with | some e => decide (e + gap ≤ t) | none => true) = true ↔ ∀ e, o = some e → e + gap ≤ t := by
  cases o with
  | none => simp
  | some e => simp

/-- What R60 asks of an edge that a plot takes into its latch. -/
theorem Plot.takesEdge_iff (hwindow : p.step.windowFrom = none) :
    p.takesEdge t = true ↔ (∀ e, p.bell.lastEdge = some e → e + 1000 * fieldOf p.bell.ctlUse 32 12 ≤ t) ∧ (∀ e, p.bell.lastLate = some e → e + 1000 * fieldOf p.bell.ctlUse 32 12 ≤ t) ∧
      p.bell.latch = none ∧ p.step.holds.reference = false := by
  unfold Plot.takesEdge
  dsimp only
  rw [hwindow, Bool.and_eq_true, Bool.and_eq_true, Bool.and_eq_true, Option.isSome_none, Bool.or_false, Bool.not_eq_true', Option.isNone_iff_eq_none, and_assoc, and_assoc]
  exact and_congr gapClear_iff (and_congr gapClear_iff Iff.rfl)

theorem BellState.frame_iff {b : BellState} : b.frame = true ↔ b.ctlUse.extractLsb' 0 2 = 1 := by
  unfold BellState.frame frameMode fieldOf
  rw [beq_iff_eq]
  exact ⟨fun h => BitVec.eq_of_toNat_eq h, fun h => by rw [h]; rfl⟩

end Arrivals

end Sys2Proof.Machine

namespace Sys2Proof.Claims

open Sys2Proof.Machine

/-- Settles O42: cores and fields arrive, releases reach their field, and edges reach the plots of their polarity. -/
theorem coresAndFieldsArrive : Obligations.CoresAndFieldsArrive := by
  unfold Obligations.CoresAndFieldsArrive
  refine ⟨fun s cid => ?_, fun s fn field dh => ?_, fun s fn field hphase hcore => ?_, fun s falling dh => ?_, fun s fn => ?_⟩
  · intro c hruns hmain hfill hhalt hevents hqueue hout hposted hreqs harrived
    have hmay := State.mayArrive_of hmain hfill hhalt hevents hqueue hout hposted hreqs
    exact coreCommand_became hruns (if_pos (by rw [hmay, harrived]; rfl))
  · intro u p inn hphase hcore hall
    have hcond : (p.step.phase == .running && p.cores.filter (fun c => fieldOfCore c == field) != [] && (p.cores.filter (fun c => fieldOfCore c == field)).all (fun c => (u.core c).totals.arrived)) = true := by
      obtain ⟨c, hc, hf⟩ := hcore
      rw [Bool.and_eq_true, Bool.and_eq_true, beq_iff_eq, bne_iff_ne, List.all_eq_true]
      refine ⟨⟨hphase, List.ne_nil_of_mem (List.mem_filter.2 ⟨hc, beq_iff_eq.2 hf⟩)⟩, fun d hd => ?_⟩
      obtain ⟨hd, hdf⟩ := List.mem_filter.1 hd
      exact hall d hd (beq_iff_eq.1 hdf)
    have hstart : execFieldArrivalRegistered fn field dh s = if inn == p.fieldMask then
        .next (if p.group.joined then (u.setPlot fn { p with step := { p.step with fieldsIn := inn, phase := .arrived, lastArrival := u.hub.time } }).afterArrival p.group.groupId p.groupBell
          else u.setPlot fn { p with step := { p.step with fieldsIn := inn, phase := .arrived, lastArrival := u.hub.time } })
        else .next (u.setPlot fn { p with step.fieldsIn := inn }) := if_pos hcond
    refine ⟨fun hne => ?_, fun heq hjoined => ?_⟩ <;> refine (show execFieldArrivalRegistered fn field dh s = _ from hstart).trans ?_
    · exact if_neg (hne ∘ beq_iff_eq.1)
    · rw [if_pos (beq_iff_eq.2 heq), hjoined]
      rfl
  · refine congrArg (fun p => Host.Outcome.next (s.setPlot fn p)) (if_pos ?_)
    rw [hphase, List.contains_iff_mem.2 (Plot.mem_fieldList.2 hcore)]
    rfl
  · refine congrArg (fun f => Host.Outcome.next ((s.advance dh).plotNumbers.foldl f (s.advance dh))) (funext fun q => funext fun fn => if_congr ?_ rfl rfl)
    rw [Bool.and_eq_true, Bool.or_eq_true, beq_iff_eq, beq_iff_eq, Bool.not_eq_true']
  · intro p t gap clear
    refine ⟨fun hfree => ?_, fun hframe hjoined hwindow => ?_⟩
    · unfold State.plotEdge
      exact if_pos (by rw [Bool.eq_false_of_not_eq_true (mt BellState.frame_iff.1 hfree)]; rfl)
    · have hclear : p.takesEdge t = true ↔ clear := Plot.takesEdge_iff hwindow
      have hstart : s.plotEdge fn = if !p.takesEdge t then s.setPlot fn { p with bell.rejected := satAdd p.bell.rejected 1 }
          else s.setPlot fn { p with bell := { p.bell with lastEdge := some t, latch := some t, latchStamp := s.stamp } } := by
        unfold State.plotEdge
        dsimp only
        rw [BellState.frame_iff.2 hframe, hwindow, hjoined]
        rfl
      refine ⟨fun h => hstart.trans (if_neg ?_), fun h => hstart.trans (if_pos ?_)⟩
      · rw [hclear.2 h]
        decide
      · rw [Bool.eq_false_of_not_eq_true (mt hclear.1 h)]
        rfl

end Sys2Proof.Claims
end

section
/-! What the books of the reeve leave alone: reports, records, completions and commons requests change neither cores nor channels, and of a plot nothing that its bell goes by (R43, R355, R361, R380, R432). -/

namespace Sys2Proof.Machine

/-- What the bell of a plot goes by: its place, bell and attempt numbers, step, registers, staged packets, results, moves, group and stop code. -/
def Plot.bellPart (p : Plot) := (p.place, p.bell.bell, p.bell.attempt, p.step, p.regs, p.packets.staged, p.packets.results, p.moving, p.group, p.faults.stopCode)

section BellPart

variable {p q : Plot} (h : q.bellPart = p.bellPart)

include h

theorem Plot.bellPart_place : q.place = p.place := congrArg (fun x => x.1) h

theorem Plot.bellPart_bell : q.bell.bell = p.bell.bell := congrArg (fun x => x.2.1) h

theorem Plot.bellPart_attempt : q.bell.attempt = p.bell.attempt := congrArg (fun x => x.2.2.1) h

theorem Plot.bellPart_step : q.step = p.step := congrArg (fun x => x.2.2.2.1) h

theorem Plot.bellPart_regs : q.regs = p.regs := congrArg (fun x => x.2.2.2.2.1) h

theorem Plot.bellPart_staged : q.packets.staged = p.packets.staged := congrArg (fun x => x.2.2.2.2.2.1) h

theorem Plot.bellPart_results : q.packets.results = p.packets.results := congrArg (fun x => x.2.2.2.2.2.2.1) h

theorem Plot.bellPart_group : q.group = p.group := congrArg (fun x => x.2.2.2.2.2.2.2.2.1) h

end BellPart

/-- What a core's step goes by; its views of the commons are no part of it. -/
def CoreState.bellPart (c : CoreState) := (c.work, c.image, c.traffic, c.step, c.totals, c.owner)

section CoreBellPart

variable {c d : CoreState} (h : d.bellPart = c.bellPart)

include h

theorem CoreState.bellPart_work : d.work = c.work := congrArg (fun x => x.1) h

theorem CoreState.bellPart_image : d.image = c.image := congrArg (fun x => x.2.1) h

theorem CoreState.bellPart_traffic : d.traffic = c.traffic := congrArg (fun x => x.2.2.1) h

theorem CoreState.bellPart_step : d.step = c.step := congrArg (fun x => x.2.2.2.1) h

theorem CoreState.bellPart_owner : d.owner = c.owner := congrArg (fun x => x.2.2.2.2.2) h

end CoreBellPart

/-- Work that leaves ports, channels and thermal holds alone, of the plots what their bells go by and of the hub die its time, references and lock-step switch; it adds at most `n` records. -/
structure Aside (n : Nat) (s t : State) : Prop where
  ports : t.ports = s.ports
  channels : t.channels = s.channels
  fieldHold : t.fieldHold = s.fieldHold
  plot : ∀ fn : Fn, (t.plot fn).bellPart = (s.plot fn).bellPart
  time : t.hub.time = s.hub.time
  refs : t.hub.refs = s.hub.refs
  lock : t.hub.faults.lockEnable = s.hub.faults.lockEnable
  records : t.hub.records.length ≤ s.hub.records.length + n

/-- Work of the books alone: cores and fields stand too. -/
structure Clerical (n : Nat) (s t : State) : Prop extends Aside n s t where
  core : ∀ c : CoreId, (t.core c).bellPart = (s.core c).bellPart
  fields : t.fields = s.fields

namespace Aside

variable {s t u : State} {n m : Nat}

theorem refl (s : State) : Aside 0 s s := ⟨rfl, rfl, rfl, fun _ => rfl, rfl, rfl, rfl, le_rfl⟩

theorem trans (h : Aside n s t) (k : Aside m t u) : Aside (n + m) s u where
  ports := k.ports.trans h.ports
  channels := k.channels.trans h.channels
  fieldHold := k.fieldHold.trans h.fieldHold
  plot fn := (k.plot fn).trans (h.plot fn)
  time := k.time.trans h.time
  refs := k.refs.trans h.refs
  lock := k.lock.trans h.lock
  records := by have := h.records; have := k.records; omega

theorem mono (h : Aside n s t) (hnm : n ≤ m) : Aside m s t :=
  ⟨h.ports, h.channels, h.fieldHold, h.plot, h.time, h.refs, h.lock, h.records.trans (Nat.add_le_add_left hnm _)⟩

/-- Work after which more follows that adds no record. -/
theorem andThen (h : Aside n s t) (k : Aside 0 t u) : Aside n s u := h.trans k

theorem foldl {α : Type} (f : State → α → State) (hf : ∀ s a, Aside 0 s (f s a)) (l : List α) (s : State) : Aside 0 s (l.foldl f s) := by
  induction l generalizing s with
  | nil => exact refl s
  | cons a l ih => exact (hf s a).trans (ih _)

end Aside

namespace Clerical

variable {s t u : State} {n m : Nat}

theorem refl (s : State) : Clerical 0 s s := ⟨.refl s, fun _ => rfl, rfl⟩

theorem trans (h : Clerical n s t) (k : Clerical m t u) : Clerical (n + m) s u := ⟨h.toAside.trans k.toAside, fun c => (k.core c).trans (h.core c), k.fields.trans h.fields⟩

theorem mono (h : Clerical n s t) (hnm : n ≤ m) : Clerical m s t := ⟨h.toAside.mono hnm, h.core, h.fields⟩

/-- Work after which more follows that adds no record. -/
theorem andThen (h : Clerical n s t) (k : Clerical 0 t u) : Clerical n s u := h.trans k

/-- Work that may be followed by more that adds no record. -/
theorem orMore {c : Prop} [Decidable c] (h : Clerical n s t) (k : Clerical 0 t u) : Clerical n s (if c then u else t) := by
  split
  · exact h.andThen k
  · exact h

theorem orNoMore {c : Prop} [Decidable c] (h : Clerical n s t) (k : Clerical 0 t u) : Clerical n s (if c then t else u) := by
  split
  · exact h
  · exact h.andThen k

theorem foldl {α : Type} (f : State → α → State) (hf : ∀ s a, Clerical 0 s (f s a)) (l : List α) (s : State) : Clerical 0 s (l.foldl f s) := by
  induction l generalizing s with
  | nil => exact refl s
  | cons a l ih => exact (hf s a).trans (ih _)

theorem setPlot {f : Fn} {v : Plot} (h : v.bellPart = (s.plot f).bellPart) : Clerical 0 s (s.setPlot f v) := by
  refine ⟨⟨rfl, rfl, rfl, fun fn => ?_, rfl, rfl, rfl, le_rfl⟩, fun _ => rfl, rfl⟩
  by_cases hfn : fn = f
  · rw [hfn, State.setPlot_plot_same, h]
  · rw [State.setPlot_plot_ne _ _ hfn]

/-- A state with other books of the hub die. -/
theorem hub {h : Hub} (htime : h.time = s.hub.time) (hrefs : h.refs = s.hub.refs) (hlock : h.faults.lockEnable = s.hub.faults.lockEnable) (hrec : h.records.length ≤ s.hub.records.length + n) :
    Clerical n s { s with hub := h } :=
  ⟨⟨rfl, rfl, rfl, fun _ => rfl, htime, hrefs, hlock, hrec⟩, fun _ => rfl, rfl⟩

theorem modHub {g : Hub → Hub} (htime : (g s.hub).time = s.hub.time) (hrefs : (g s.hub).refs = s.hub.refs) (hlock : (g s.hub).faults.lockEnable = s.hub.faults.lockEnable)
    (hrec : (g s.hub).records.length ≤ s.hub.records.length + n) : Clerical n s (s.modHub g) := .hub htime hrefs hlock hrec

theorem modPlot {f : Fn} {g : Plot → Plot} (h : (g (s.plot f)).bellPart = (s.plot f).bellPart) : Clerical 0 s (s.modPlot f g) := .setPlot h

theorem commons (c : Commons) : Clerical 0 s { s with commons := c } := ⟨⟨rfl, rfl, rfl, fun _ => rfl, rfl, rfl, rfl, le_rfl⟩, fun _ => rfl, rfl⟩

end Clerical

section Books

variable (s : State) (fn : Fn)

/-- A report sets a bit of HUB.FAULTSUM and tells the management bus, no more (R382). -/
theorem Hub.sumUp_eq (h : Hub) (r : Report) : ∃ (x : BitVec 5) (l : List Code), h.sumUp r = { h with faults.sum := x, i3c.ibi := l } := by
  unfold Hub.sumUp
  split
  · exact ⟨_, _, rfl⟩
  · exact ⟨_, _, rfl⟩

theorem State.logReport_clerical (code : Code) (d0 d1 d2 : Word) : Clerical 0 s (s.logReport code d0 d1 d2) := by
  unfold State.logReport
  obtain ⟨x, l, h⟩ := s.hub.sumUp_eq { code := code, time := s.stamp, d0 := d0, d1 := d1, d2 := d2 }
  dsimp only [State.modHub]
  rw [h]
  exact .hub rfl rfl rfl le_rfl

theorem FaultState.enqueue_stopCode (f : FaultState) (r : Report) : (f.enqueue r).stopCode = f.stopCode := by
  unfold FaultState.enqueue
  dsimp only
  split
  · split
    · rfl
    · split <;> rfl
  · split <;> rfl

theorem State.queueReport_clerical (r : Report) : Clerical 0 s (s.queueReport fn r) := by
  unfold State.queueReport
  refine Clerical.andThen (Clerical.setPlot (f := fn) (v := { s.plot fn with faults := (s.plot fn).faults.enqueue { r with seq := s.hub.seq } }) ?_) ?_
  · simp only [Plot.bellPart, FaultState.enqueue_stopCode]
  · obtain ⟨x, l, h⟩ := s.hub.sumUp_eq r
    dsimp only [State.modHub, State.modPlot]
    rw [State.setPlot_hub, h]
    exact .hub rfl rfl rfl le_rfl

theorem State.queueReports_clerical (rs : List Report) : Clerical 0 s (s.queueReports fn rs) := .foldl _ (fun s r => s.queueReport_clerical fn r) rs s

theorem State.plotReport_clerical (code : Code) (stop : Bool) (d0 d1 d2 : Word) : Clerical 0 s (s.plotReport fn code stop d0 d1 d2) := s.queueReport_clerical fn _

theorem State.wearWarn_clerical (old new : Counter) : Clerical 0 s (s.wearWarn old new) := by
  unfold State.wearWarn
  split
  · exact .refl s
  · refine Clerical.andThen ?_ (State.logReport_clerical _ _ _ _ _)
    exact .modHub rfl rfl rfl le_rfl

theorem State.closeRecord_clerical (blocks : List StepBlock) (close : Nat) (bell : BitVec 48) (time : Word) : Clerical 1 s (s.closeRecord fn blocks close bell time) := by
  unfold State.closeRecord
  dsimp only
  refine Clerical.orNoMore ?_ (State.queueReport_clerical _ _ _)
  refine Clerical.andThen ?_ (State.wearWarn_clerical _ _ _)
  refine Clerical.orMore ?_ (.modPlot rfl)
  refine Clerical.trans (n := 0) (m := 1) ?_ (.modHub rfl rfl rfl ?_)
  · exact .setPlot rfl
  · exact (List.length_append).le

/-- A step block closes at most two records (R355). -/
theorem State.addBlock_clerical (blk : StepBlock) (conds : List Nat) (bell : BitVec 48) : Clerical 2 s (s.addBlock fn blk conds bell) := by
  let old := (s.plot fn).run.blocks
  have hsplit : Clerical 1 s (if old != [] && decide (maxBody < bodySize old + blk.size) then
      (s.closeRecord fn old 5 bell ((old.getLast?.map (fun b => b.commitTime)).getD s.stamp)).modPlot fn (fun p => { p with run.blocks := [] }) else s) := by
    split
    · exact (s.closeRecord_clerical fn _ _ _ _).andThen (.modPlot rfl)
    · exact (Clerical.refl s).mono (Nat.zero_le 1)
  have hclose : ∀ (u : State) (blocks : List StepBlock) (cs : List Nat), Clerical 1 u (match cs with
      | [] => u.modPlot fn (fun p => { p with run.blocks := blocks })
      | c :: cs => (u.closeRecord fn blocks (cs.foldl max c) bell (u.bellStamp fn)).modPlot fn (fun p => { p with run.blocks := [] })) := by
    intro u blocks cs
    cases cs with
    | nil => exact Clerical.mono (n := 0) (.modPlot rfl) (Nat.zero_le 1)
    | cons c cs => exact (u.closeRecord_clerical fn _ _ _ _).andThen (.modPlot rfl)
  unfold State.addBlock
  exact Clerical.trans (n := 1) (m := 1) hsplit (hclose _ _ _)

theorem State.complete_clerical (st : Staged) (bell : BitVec 48) (code : Code) : Clerical 0 s (s.complete st bell code) := by
  unfold State.complete
  split
  · exact .refl s
  · refine Clerical.andThen (.hub (h := { s.hub with seq := s.hub.seq + 1 }) rfl rfl rfl le_rfl) ?_
    exact .modPlot rfl

theorem Plot.vector2_bellPart (p : Plot) : p.vector2.bellPart = p.bellPart := by
  unfold Plot.vector2
  split <;> rfl

theorem State.refuse_clerical (st : Staged) (code : Code) : Clerical 0 s (s.refuse st code) := by
  unfold State.refuse
  have hplot : ∀ q : Plot, ({ q with host.errCode := code, host.errType := st.type, host.errRefused := satAdd q.host.errRefused 1, host.errUnit := st.unit } : Plot).vector2.bellPart = q.bellPart := fun q => Plot.vector2_bellPart _
  exact Clerical.andThen (.modPlot (hplot _)) (State.complete_clerical _ _ _ _)

theorem State.setPass_clerical : Clerical 0 s (s.setPass fn) := Clerical.setPlot rfl

theorem State.commonsDrop_clerical (r : CommonsReq) : Clerical 0 s (s.commonsDrop fn r) := by
  unfold State.commonsDrop
  exact (s.plotReport_clerical fn _ _ _ _ _).andThen (.modPlot rfl)

theorem State.commonsCommit_clerical (r : CommonsReq) : Clerical 0 s (s.commonsCommit fn r) := by
  unfold State.commonsCommit
  dsimp only
  split
  · split
    · exact .commons _
    · refine Clerical.andThen ?_ (State.commonsDrop_clerical _ fn r)
      exact .orMore (.refl s) (.modPlot rfl)
  · split
    · exact s.commonsDrop_clerical fn r
    · exact .commons _

theorem State.commonsRun_clerical : Clerical 0 s (s.commonsRun fn) := by
  unfold State.commonsRun
  exact (Clerical.foldl _ (fun s r => s.commonsCommit_clerical fn r) _ s).andThen (.modPlot rfl)

/-! ### The cores of a plot -/

theorem State.mapCores_frame (f : CoreState → CoreState) : ∃ cs : AMap CoreState, s.mapCores fn f = { s with cores := cs } := by
  unfold State.mapCores
  generalize (s.plot fn).cores = l
  induction l generalizing s with
  | nil => exact ⟨_, rfl⟩
  | cons c l ih =>
    obtain ⟨cs, h⟩ := ih (s.modCore c f)
    exact ⟨cs, h.trans rfl⟩

/-- A change of every core of a plot that keeps a part of each keeps it everywhere. -/
theorem State.mapCores_keeps {α : Type} (g : CoreState → α) {f : CoreState → CoreState} (h : ∀ c, g (f c) = g c) (c : CoreId) : g ((s.mapCores fn f).core c) = g (s.core c) := by
  unfold State.mapCores
  generalize (s.plot fn).cores = l
  induction l generalizing s with
  | nil => rfl
  | cons d l ih =>
    rw [List.foldl_cons, ih]
    by_cases hc : c = d
    · rw [hc, show s.modCore d f = s.setCore d (f (s.core d)) from rfl, State.setCore_core_same, h]
    · rw [show s.modCore d f = s.setCore d (f (s.core d)) from rfl, State.setCore_core_ne _ _ hc]

theorem State.mapCores_core (f : CoreState → CoreState) (hnodup : (s.plot fn).cores.Nodup) (c : CoreId) :
    (s.mapCores fn f).core c = if c ∈ (s.plot fn).cores then f (s.core c) else s.core c := by
  unfold State.mapCores
  generalize (s.plot fn).cores = l at hnodup
  induction l generalizing s with
  | nil => rfl
  | cons d l ih =>
    obtain ⟨hd, hl⟩ := List.nodup_cons.1 hnodup
    rw [List.foldl_cons, ih _ hl, show s.modCore d f = s.setCore d (f (s.core d)) from rfl]
    by_cases hc : c = d
    · rw [hc, if_neg hd, State.setCore_core_same, if_pos List.mem_cons_self]
    · rw [State.setCore_core_ne _ _ hc]
      exact if_congr (by rw [List.mem_cons, or_iff_right hc]) rfl rfl

theorem Clerical.mapCores {f : CoreState → CoreState} (h : ∀ c, (f c).bellPart = c.bellPart) : Clerical 0 s (s.mapCores fn f) := by
  obtain ⟨cs, hcs⟩ := s.mapCores_frame fn f
  have hcore : ∀ c, ((s.mapCores fn f).core c).bellPart = (s.core c).bellPart := s.mapCores_keeps fn CoreState.bellPart h
  rw [hcs] at hcore ⊢
  exact ⟨⟨rfl, rfl, rfl, fun _ => rfl, rfl, rfl, rfl, le_rfl⟩, hcore, rfl⟩

theorem State.takeMailbox_clerical : Clerical 0 s (s.takeMailbox fn) := by
  unfold State.takeMailbox
  refine Clerical.orMore (.refl s) ?_
  refine (Clerical.mapCores s fn (f := fun c => { c with viewMail := none }) fun _ => rfl).andThen ?_
  exact (Clerical.commons _).andThen (.modPlot rfl)

theorem State.noteCommons_clerical : Clerical 0 s (s.noteCommons fn) := by
  unfold State.noteCommons
  exact Clerical.orNoMore (.refl s) (.modHub rfl rfl rfl le_rfl)

theorem State.closeBetween_clerical (stop : List EventEntry) : Clerical 2 s (s.closeBetween fn stop) := by
  unfold State.closeBetween
  dsimp only
  split
  · exact s.addBlock_clerical fn _ _ _
  · exact (Clerical.refl s).mono (Nat.zero_le 2)

end Books

end Sys2Proof.Machine
end

section
/-! Bell images that are read: the words and entries that cannot be read become bruised, once for all (R389, R404). -/

namespace Sys2Proof.Machine

/-! ### Listed values -/

section Listed

variable {α : Type} {m : AMap α} {j k : Nat} {v w : α}

theorem AMap.set_set_same (m : AMap α) (k : Nat) (v w : α) : AMap.set (AMap.set m k v) k w = AMap.set m k w := by
  induction m with
  | nil => simp [AMap.set]
  | cons e m ih =>
    obtain ⟨a, x⟩ := e
    simp only [AMap.set]
    split_ifs with hak hka
    · simp [AMap.set]
    · simp [AMap.set]
    · simp [AMap.set, hak, hka, ih]

/-- A value that is listed at its place stays so when another key is set. -/
theorem AMap.set_listed_ne (h : AMap.set m k v = m) (hjk : j ≠ k) : AMap.set (AMap.set m j w) k v = AMap.set m j w := by
  induction m with
  | nil => cases h
  | cons e m ih =>
    obtain ⟨a, x⟩ := e
    have hnotlt : ¬ (a ≠ k ∧ k < a) := by
      rintro ⟨hak, hka⟩
      rw [AMap.set, if_neg hak, if_pos hka] at h
      exact List.cons_ne_self _ _ h
    by_cases hak : a = k
    · rw [AMap.set, if_pos hak] at h
      obtain rfl : v = x := (Prod.mk.inj (List.cons.inj h).1).2
      subst hak
      rw [AMap.set, if_neg hjk.symm]
      split
      · next hja => rw [AMap.set, if_neg hjk, if_neg (Nat.lt_asymm hja), AMap.set, if_pos rfl]
      · rw [AMap.set, if_pos rfl]
    · have hka : ¬ k < a := fun hlt => hnotlt ⟨hak, hlt⟩
      rw [AMap.set, if_neg hak, if_neg hka] at h
      have htail := (List.cons.inj h).2
      rw [AMap.set]
      split
      · next haj => rw [AMap.set, if_neg hjk, if_neg (by omega), htail]
      · split
        · rw [AMap.set, if_neg hjk, if_neg (by omega), AMap.set, if_neg hak, if_neg hka, htail]
        · rw [AMap.set, if_neg hak, if_neg hka, ih htail]

end Listed

/-! ### Groups -/

/-- An entry as it stands once it could not be read: sound and bruised. -/
def AccEntry.lost (e : AccEntry) : AccEntry := { e with damage := .sound, bruise := true }

/-- Entry `x` of a group is lost. -/
def AccGroup.loseEntry (g : AccGroup) (x : Nat) : AccGroup := g.setEntry x (g.entry x).lost

/-- The keys that are lost when the entry at key `k` cannot be read: those that its check bits cover (R121). -/
def coveredKeys (narrow : Bool) (k : Nat) : List Nat := (checkedTogether narrow (k % 64)).map (entryKey narrow (k / 64))

/-- The keys of the entries of a group that cannot be read. -/
def AccGroup.unreadable (g : AccGroup) : List Nat := (g.entries.filter (fun e => e.2.damage == .uncorrectable)).map (·.1)

section Groups

variable (g : AccGroup) (x : Nat)

theorem AccGroup.loseEntry_eq : g.loseEntry x = { g with entries := AMap.set g.entries x (g.entry x).lost } := by
  have hne : (g.entry x).lost ≠ {} := fun h => nomatch congrArg AccEntry.bruise h
  unfold AccGroup.loseEntry AccGroup.setEntry AMap.put
  rw [if_neg hne]

theorem AccGroup.foldl_narrow (l : List Nat) : (l.foldl AccGroup.loseEntry g).narrow = g.narrow := by
  induction l generalizing g with
  | nil => rfl
  | cons y l ih => exact ih _

/-- Reading a group loses the entries covered with those that cannot be read. -/
theorem AccGroup.heal_eq : g.heal = (g.unreadable.flatMap (coveredKeys g.narrow)).foldl AccGroup.loseEntry g := by
  have hfold : ∀ (l : List Nat) (h : AccGroup), h.narrow = g.narrow →
      l.foldl (fun (q : AccGroup) k => q.onChecked q.narrow (k / 64) (k % 64) (fun e => { e with damage := .sound, bruise := true })) h = (l.flatMap (coveredKeys g.narrow)).foldl AccGroup.loseEntry h := by
    intro l
    induction l with
    | nil => exact fun _ _ => rfl
    | cons k l ih =>
      intro h hn
      have hone : h.onChecked h.narrow (k / 64) (k % 64) (fun e => { e with damage := .sound, bruise := true }) = (coveredKeys g.narrow k).foldl AccGroup.loseEntry h := by
        rw [hn, coveredKeys, List.foldl_map]
        rfl
      rw [List.foldl_cons, hone, ih _ ((h.foldl_narrow _).trans hn), List.flatMap_cons, List.foldl_append]
  exact hfold _ g rfl

/-- Entry `x` is listed as lost. -/
def AccGroup.Lost (g : AccGroup) (x : Nat) : Prop := ∃ e : AccEntry, e.lost = e ∧ AMap.set g.entries x e = g.entries

theorem AccGroup.loseEntry_lost : (g.loseEntry x).Lost x := by
  rw [AccGroup.loseEntry_eq]
  exact ⟨(g.entry x).lost, rfl, AMap.set_set_same _ _ _ _⟩

theorem AccGroup.Lost.loseEntry {g : AccGroup} {x : Nat} (h : g.Lost x) (y : Nat) : (g.loseEntry y).Lost x := by
  by_cases hxy : y = x
  · rw [hxy]
    exact g.loseEntry_lost x
  · obtain ⟨e, he, hset⟩ := h
    rw [AccGroup.loseEntry_eq]
    exact ⟨e, he, AMap.set_listed_ne hset hxy⟩

theorem AccGroup.Lost.loseEntry_same {g : AccGroup} {x : Nat} (h : g.Lost x) : g.loseEntry x = g := by
  obtain ⟨e, he, hset⟩ := h
  have hget : g.entry x = e := by
    unfold AccGroup.entry
    rw [← hset, AMap.get_set_same]
  rw [AccGroup.loseEntry_eq, hget, he, hset]

theorem AccGroup.lost_of_foldl (l : List Nat) {x : Nat} (h : x ∈ l ∨ g.Lost x) : (l.foldl AccGroup.loseEntry g).Lost x := by
  induction l generalizing g with
  | nil => exact h.resolve_left List.not_mem_nil
  | cons y l ih =>
    refine ih _ ?_
    obtain h | h := h
    · obtain rfl | h := List.mem_cons.1 h
      · exact .inr (g.loseEntry_lost x)
      · exact .inl h
    · exact .inr (h.loseEntry y)

theorem AccGroup.foldl_lost {l : List Nat} (h : ∀ x ∈ l, g.Lost x) : l.foldl AccGroup.loseEntry g = g := by
  induction l with
  | nil => rfl
  | cons y l ih =>
    rw [List.foldl_cons, (h y List.mem_cons_self).loseEntry_same]
    exact ih fun x hx => h x (List.mem_cons_of_mem y hx)

/-- What cannot be read after entries were lost could not be read before. -/
theorem AccGroup.unreadable_foldl (l : List Nat) {k : Nat} (h : k ∈ (l.foldl AccGroup.loseEntry g).unreadable) : k ∈ g.unreadable := by
  induction l generalizing g with
  | nil => exact h
  | cons y l ih =>
    obtain ⟨e, he, rfl⟩ := List.mem_map.1 (ih _ h)
    obtain ⟨hmem, hbad⟩ := List.mem_filter.1 he
    rw [AccGroup.loseEntry_eq] at hmem
    obtain rfl | hold := AMap.mem_set hmem
    · cases hbad
    · exact List.mem_map.2 ⟨e, List.mem_filter.2 ⟨hold, hbad⟩, rfl⟩

/-- A group that has been read reads as it is. -/
theorem AccGroup.heal_heal : g.heal.heal = g.heal := by
  rw [AccGroup.heal_eq g.heal, AccGroup.heal_eq g, AccGroup.foldl_narrow]
  refine AccGroup.foldl_lost _ fun x hx => g.lost_of_foldl _ (.inl ?_)
  obtain ⟨k, hk, hx⟩ := List.mem_flatMap.1 hx
  exact List.mem_flatMap.2 ⟨k, g.unreadable_foldl _ hk, hx⟩

end Groups

/-! ### Cores -/

section Images

variable (w : CoreWork)

/-- A bell image that has been read reads as it is. -/
theorem CoreWork.heal_heal : w.heal.heal = w.heal := by
  unfold CoreWork.heal
  simp only [List.map_map]
  congr 1
  · refine List.map_congr_left fun m _ => ?_
    obtain ⟨k, d⟩ := m
    cases d <;> rfl
  · exact List.map_congr_left fun g _ => congrArg (Prod.mk g.1) g.2.heal_heal

/-- A bell image all of which can be read is read as it stands. -/
theorem CoreWork.heal_of_readable (h : w.unreadable = []) : w.heal = w := by
  obtain ⟨hmarks, hgroups⟩ := List.append_eq_nil_iff.1 h
  have hm : w.marks.map (fun m => (m.1, if m.2 == .uncorrectable then .bruised else m.2)) = w.marks := by
    refine (List.map_congr_left fun m hm => ?_).trans (List.map_id _)
    rw [if_neg (List.filter_eq_nil_iff.1 (List.map_eq_nil_iff.1 hmarks) m hm)]
    rfl
  have hg : w.groups.map (fun g => (g.1, g.2.heal)) = w.groups := by
    refine (List.map_congr_left fun g hg => ?_).trans (List.map_id _)
    have hnone : g.2.unreadable = [] := List.map_eq_nil_iff.2 (List.map_eq_nil_iff.1 (List.flatMap_eq_nil_iff.1 hgroups g hg))
    rw [AccGroup.heal_eq, hnone]
    rfl
  unfold CoreWork.heal
  rw [hm, hg]

end Images

end Sys2Proof.Machine
end

section
/-! The repairs and ceilings that take effect at a bell or a restart of a domain (R31, R37, R42, R389, R404). -/

namespace Sys2Proof.Machine

/-- A core rebuilt from its bell image (R389). -/
def CoreState.rebuilt (c : CoreState) : CoreState := { c with image := c.image.heal, work := c.image.heal }

theorem CoreState.rebuilt_congr {c d : CoreState} (h : d.bellPart = c.bellPart) : d.rebuilt.bellPart = c.rebuilt.bellPart := by
  simp only [CoreState.bellPart, Prod.mk.injEq] at h
  obtain ⟨-, hi, ht, hs, hto, ho⟩ := h
  simp only [CoreState.bellPart, CoreState.rebuilt, hi, ht, hs, hto, ho]

theorem CoreState.rebuilt_rebuilt (c : CoreState) : c.rebuilt.rebuilt = c.rebuilt := by
  unfold CoreState.rebuilt
  rw [CoreWork.heal_heal]

section Repairs

variable (s : State) (fn : Fn) (c d : CoreId)

/-! ### Bell images that are read -/

theorem State.coreReport_clerical (code : Code) (d0 d1 d2 : Word) : Clerical 0 s (s.coreReport fn c code d0 d1 d2) := by
  unfold State.coreReport
  exact Clerical.andThen (.modPlot rfl) (State.queueReport_clerical _ fn _)

theorem State.modCore_core (f : CoreState → CoreState) : (s.modCore c f).core d = if d = c then f (s.core c) else s.core d := by
  split
  · next h => rw [h]; exact State.setCore_core_same _ _ _
  · next h => exact State.setCore_core_ne _ _ h

/-- Reading a core's bell image heals it; the rest is books. -/
theorem State.readImage_clerical : Clerical 0 (s.modCore c (fun k => { k with image := k.image.heal })) (s.readImage fn c) := by
  unfold State.readImage
  split
  · next h =>
    refine ⟨⟨rfl, rfl, rfl, fun _ => rfl, rfl, rfl, rfl, le_rfl⟩, fun d => ?_, rfl⟩
    rw [State.modCore_core]
    split
    · next hd => rw [hd, CoreWork.heal_of_readable _ h]
    · rfl
  · exact State.coreReport_clerical _ fn c _ _ _ _

theorem State.modCore_aside (f : CoreState → CoreState) : Aside 0 s (s.modCore c f) := ⟨rfl, rfl, rfl, fun _ => rfl, rfl, rfl, rfl, le_rfl⟩

theorem State.readImage_aside : Aside 0 s (s.readImage fn c) := (s.modCore_aside c _).andThen (s.readImage_clerical fn c).toAside

theorem State.readImage_fields : (s.readImage fn c).fields = s.fields := (s.readImage_clerical fn c).fields

theorem State.readImage_core : ((s.readImage fn c).core d).bellPart = (if d = c then { s.core c with image := (s.core c).image.heal } else s.core d).bellPart := by
  rw [(s.readImage_clerical fn c).core d, State.modCore_core]

/-! ### Moved cores -/

theorem State.rebuildCore_aside : Aside 0 s (s.rebuildCore fn c) := (s.readImage_aside fn c).andThen (State.modCore_aside _ c _)

theorem State.rebuildCore_fields : (s.rebuildCore fn c).fields = s.fields := s.readImage_fields fn c

theorem State.rebuildCore_core : ((s.rebuildCore fn c).core d).bellPart = (if d = c then (s.core c).rebuilt else s.core d).bellPart := by
  have hread := s.readImage_core fn c d
  unfold State.rebuildCore
  rw [State.modCore_core]
  split
  · next h =>
    subst h
    rw [if_pos rfl] at hread
    simp only [CoreState.bellPart, Prod.mk.injEq] at hread
    obtain ⟨-, hi, ht, hs, hto, ho⟩ := hread
    simp only [CoreState.bellPart, CoreState.rebuilt, hi, ht, hs, hto, ho]
  · next h => rw [hread, if_neg h]

/-- The core of a remap that waits. -/
def remapCore (w : Nat × Nat × Nat) : CoreId := fieldCore w.1 w.2.1 w.2.2

theorem State.setField_aside (f : FieldId) (v : Field) : Aside 0 s (s.setField f v) := ⟨rfl, rfl, rfl, fun _ => rfl, rfl, rfl, rfl, le_rfl⟩

theorem State.moveCore_aside (w : Nat × Nat × Nat) : Aside 0 s (State.moveCore (some fn) s w) := (s.setField_aside _ _).andThen (State.rebuildCore_aside _ fn _)

theorem State.moveCore_core (w : Nat × Nat × Nat) : ((State.moveCore (some fn) s w).core d).bellPart = (if d = remapCore w then (s.core d).rebuilt else s.core d).bellPart := by
  refine (State.rebuildCore_core _ fn _ d).trans ?_
  by_cases h : d = remapCore w
  · rw [if_pos (show d = fieldCore w.1 w.2.1 w.2.2 from h), if_pos h, h]
    rfl
  · rw [if_neg (show d ≠ fieldCore w.1 w.2.1 w.2.2 from h), if_neg h]
    rfl

theorem State.moveCores_core (l : List (Nat × Nat × Nat)) :
    ((l.foldl (State.moveCore (some fn)) s).core d).bellPart = (if d ∈ l.map remapCore then (s.core d).rebuilt else s.core d).bellPart := by
  induction l generalizing s with
  | nil => rfl
  | cons w l ih =>
    have hone := s.moveCore_core fn d w
    rw [List.foldl_cons, ih, List.map_cons]
    by_cases hd : d = remapCore w
    · rw [if_pos hd] at hone
      rw [if_pos (List.mem_cons.2 (.inl hd))]
      split
      · rw [CoreState.rebuilt_congr hone, CoreState.rebuilt_rebuilt]
      · exact hone
    · rw [if_neg hd] at hone
      by_cases hl : d ∈ l.map remapCore
      · rw [if_pos hl, if_pos (List.mem_cons_of_mem _ hl), CoreState.rebuilt_congr hone]
      · rw [if_neg hl, if_neg (by rw [List.mem_cons, not_or]; exact ⟨hd, hl⟩), hone]

theorem State.takeRemaps_aside : Aside 0 s (s.takeRemaps (some fn)) :=
  (Aside.foldl _ (fun s w => s.moveCore_aside fn w) _ s).andThen ⟨rfl, rfl, rfl, fun _ => rfl, rfl, rfl, rfl, le_rfl⟩

/-- At a bell or restart each core of the domain that waits for its remap is rebuilt; the others stand (R31, R389). -/
theorem State.takeRemaps_core : ((s.takeRemaps (some fn)).core d).bellPart = (if d ∈ (s.waitingCores (some fn)).map remapCore then (s.core d).rebuilt else s.core d).bellPart :=
  s.moveCores_core fn d _

/-! ### Ceilings -/

theorem State.takeCeiling_aside (f : FieldId) : Aside 0 s (s.takeCeiling f) := ⟨rfl, rfl, rfl, fun _ => rfl, rfl, rfl, rfl, le_rfl⟩

theorem State.takeCeilings_aside : Aside 0 s (s.takeCeilings fn) :=
  .foldl _ (fun s f => by
    dsimp only
    split
    · exact .refl s
    · exact s.takeCeiling_aside _) _ s

theorem State.takeCeilings_cores : (s.takeCeilings fn).cores = s.cores := by
  unfold State.takeCeilings
  generalize (s.plot fn).fieldList = l
  induction l generalizing s with
  | nil => rfl
  | cons f l ih =>
    rw [List.foldl_cons, ih]
    dsimp only
    split <;> rfl

theorem State.reeveChanges_aside : Aside 0 s (s.reeveChanges fn) := (s.takeRemaps_aside fn).andThen (State.takeCeilings_aside _ fn)

theorem State.reeveChanges_core : ((s.reeveChanges fn).core d).bellPart = (if d ∈ (s.waitingCores (some fn)).map remapCore then (s.core d).rebuilt else s.core d).bellPart := by
  rw [← s.takeRemaps_core fn d]
  unfold State.reeveChanges State.core
  rw [State.takeCeilings_cores]

/-! ### Domains in which no core waits -/

theorem State.waitingCores_eq_nil : s.waitingCores (some fn) = [] ↔ ∀ f ∈ s.fields, ∀ r ∈ f.2.rows, ∀ e ∈ r.2.serving, (s.core (fieldCore f.1 r.1 e.1)).owner ≠ some fn := by
  unfold State.waitingCores
  simp only [List.flatMap_eq_nil_iff, List.filter_eq_nil_iff, List.mem_map, beq_iff_eq]
  constructor
  · exact fun h f hf r hr e he => h f hf r hr _ ⟨e, he, rfl⟩
  · rintro h f hf r hr _ ⟨e, he, rfl⟩
    exact h f hf r hr e he

variable {s fn}

theorem State.waitingCores_congr {t : State} {own : Option Fn} (hfields : t.fields = s.fields) (howner : ∀ c, (t.core c).owner = (s.core c).owner) : t.waitingCores own = s.waitingCores own := by
  unfold State.waitingCores
  simp only [hfields, howner]

theorem Clerical.waitingCores {t : State} {n : Nat} {own : Option Fn} (h : Clerical n s t) : t.waitingCores own = s.waitingCores own :=
  State.waitingCores_congr h.fields fun c => CoreState.bellPart_owner (h.core c)

theorem State.takeCeiling_waiting (f : FieldId) (h : s.waitingCores (some fn) = []) : (s.takeCeiling f).waitingCores (some fn) = [] := by
  rw [State.waitingCores_eq_nil] at h ⊢
  intro k hk r hr e he
  obtain rfl | hold := AMap.mem_put (show k ∈ AMap.put {} s.fields f.toNat { s.field f with ceiling := _ } from hk)
  · obtain hnone | hmem := AMap.get_mem ({} : Field) s.fields f.toNat
    · rw [show (s.field f).rows = [] from congrArg Field.rows hnone] at hr
      cases hr
    · exact h _ hmem r hr e he
  · exact h k hold r hr e he

theorem State.takeCeilings_waiting (h : s.waitingCores (some fn) = []) : (s.takeCeilings fn).waitingCores (some fn) = [] := by
  unfold State.takeCeilings
  generalize (s.plot fn).fieldList = l
  induction l generalizing s with
  | nil => exact h
  | cons f l ih =>
    refine ih ?_
    dsimp only
    split
    · exact h
    · exact State.takeCeiling_waiting _ h

/-- Repairs leave no core of the domain waiting that none waited before. -/
theorem State.reeveChanges_waiting (h : s.waitingCores (some fn) = []) : (s.reeveChanges fn).waitingCores (some fn) = [] := by
  refine State.takeCeilings_waiting ?_
  unfold State.takeRemaps
  rw [h]
  rw [State.waitingCores_eq_nil] at h ⊢
  intro f hf r hr e he
  obtain ⟨g, hg, rfl⟩ := List.mem_map.1 hf
  exact h g hg r hr e he

/-- With no core of the domain waiting, repairs leave every core as it is. -/
theorem State.reeveChanges_cores (h : s.waitingCores (some fn) = []) (d : CoreId) : ((s.reeveChanges fn).core d).bellPart = (s.core d).bellPart := by
  rw [State.reeveChanges_core, h]
  rfl

end Repairs

end Sys2Proof.Machine
end

section
/-! Plots that stop (R43, R44, R354, R374, R430). -/

namespace Sys2Proof.Machine

/-- A plot has stopped with a code: state 5, its bell and attempt numbers as they were, cores that waited for a remap rebuilt, channels as they were. -/
structure Stopped (fn : Fn) (code : Code) (s t : State) : Prop where
  state : (t.plot fn).place.state = 5
  bell : (t.plot fn).bell.bell = (s.plot fn).bell.bell
  attempt : (t.plot fn).bell.attempt = (s.plot fn).bell.attempt
  stopCode : (t.plot fn).faults.stopCode = code
  group : (t.plot fn).group = (s.plot fn).group
  channels : t.channels = s.channels
  core : ∀ d : CoreId, (t.core d).bellPart = (if d ∈ (s.waitingCores (some fn)).map remapCore then (s.core d).rebuilt else s.core d).bellPart

/-- Taking no packet out of the staging area leaves it. -/
theorem Plot.unstageNone_bellPart (p : Plot) : ({ p with packets.staged := p.packets.staged.filter (fun st => !([] : List Staged).contains st) } : Plot).bellPart = p.bellPart := by
  have hall : p.packets.staged.filter (fun st => !([] : List Staged).contains st) = p.packets.staged := List.filter_eq_self.2 fun _ _ => rfl
  simp only [Plot.bellPart, hall]

section Stops

variable (s : State) (fn : Fn) (code : Code)

/-- The plot as it stands once it has stopped. -/
def Plot.stopped (p : Plot) (code : Code) : Plot :=
  ({ p with
    place.state := 5
    bell.stopped := true
    bell.held := false
    faults.stopCode := code
    run := p.run.ended
    step := p.step.fresh } : Plot).vector2

theorem Plot.stopped_bellPart (p : Plot) : (p.stopped code).bellPart =
    ({ p.place with state := 5 }, p.bell.bell, p.bell.attempt, p.step.fresh, p.regs, p.packets.staged, p.packets.results, p.moving, p.group, code) :=
  Plot.vector2_bellPart _

/-- The staged management packets that were accepted since time `since` (R44). -/
def Plot.acceptedSince (p : Plot) (since : Option Nat) : List Staged :=
  p.packets.staged.filter (fun st => isMgmt st.type && (match since with | some t => t ≤ st.acceptedAt | none => false))

theorem Plot.acceptedSince_eq_nil (p : Plot) (since : Option Nat) (h : ∀ st ∈ p.packets.staged, isMgmt st.type = true → ∀ t, since = some t → st.acceptedAt < t) : p.acceptedSince since = [] := by
  refine List.filter_eq_nil_iff.2 fun st hst hcond => ?_
  obtain ⟨hmgmt, htime⟩ := (Bool.and_eq_true _ _).mp hcond
  split at htime
  · next t => exact Nat.not_le.2 (h st hst hmgmt t rfl) (of_decide_eq_true htime)
  · cases htime

theorem State.stopNow_def : s.stopNow fn code =
    let v := (s.modPlot fn (fun p => p.stopped code)).reeveChanges fn
    let late := (v.plot fn).acceptedSince (s.plot fn).step.retriedAt
    (late.foldl State.takeLate (v.modPlot fn (fun p => { p with packets.staged := p.packets.staged.filter (fun st => !late.contains st) }))).refuseStaged fn := rfl

/-- With no management packet that would take effect at the stop, all that are staged are refused (R44, R430). -/
theorem State.stopNow_eq (hlate : Claims.NoLatePackets (s.plot fn)) :
    ∃ u : State, Clerical 0 ((s.modPlot fn (fun p => p.stopped code)).reeveChanges fn) u ∧ s.stopNow fn code = u.refuseStaged fn := by
  have hpart := ((s.modPlot fn (fun p => p.stopped code)).reeveChanges_aside fn).plot fn
  have hstopped : ((s.modPlot fn (fun p => p.stopped code)).plot fn).bellPart = ((s.plot fn).stopped code).bellPart := congrArg Plot.bellPart (State.setPlot_plot_same _ _ _)
  rw [hstopped, Plot.stopped_bellPart] at hpart
  simp only [Plot.bellPart, Prod.mk.injEq] at hpart
  obtain ⟨-, -, -, -, -, hstaged, -⟩ := hpart
  rw [State.stopNow_def]
  generalize (s.modPlot fn (fun p => p.stopped code)).reeveChanges fn = v at hstaged ⊢
  dsimp only
  have hnone : (v.plot fn).acceptedSince (s.plot fn).step.retriedAt = [] := Plot.acceptedSince_eq_nil _ _ (by rw [hstaged]; exact hlate)
  rw [hnone]
  have hbooks : Clerical 0 v (v.modPlot fn (fun p => { p with packets.staged := p.packets.staged.filter (fun st => !([] : List Staged).contains st) })) := .modPlot (Plot.unstageNone_bellPart _)
  exact ⟨_, hbooks, rfl⟩

theorem State.refuseStaged_clerical : Clerical 0 (s.modPlot fn (fun p => { p with packets.staged := [] })) (s.refuseStaged fn) :=
  .foldl _ (fun s st => s.refuse_clerical st 0x1008) _ _

theorem State.stopNow_stopped (hlate : Claims.NoLatePackets (s.plot fn)) : Stopped fn code s (s.stopNow fn code) := by
  obtain ⟨u, hu, heq⟩ := s.stopNow_eq fn code hlate
  let s1 := s.modPlot fn (fun p => p.stopped code)
  have hs1 : (s1.plot fn).bellPart = ((s.plot fn).stopped code).bellPart := congrArg Plot.bellPart (State.setPlot_plot_same _ _ _)
  have hchanges := s1.reeveChanges_aside fn
  have hrefused := u.refuseStaged_clerical fn
  have hplot : ((s.stopNow fn code).plot fn).bellPart = ({ u.plot fn with packets.staged := [] } : Plot).bellPart := by
    rw [heq, hrefused.plot fn, State.modPlot_eq, State.setPlot_plot_same]
  have hu_part := (hu.plot fn).trans ((hchanges.plot fn).trans (hs1.trans (Plot.stopped_bellPart code (s.plot fn))))
  simp only [Plot.bellPart, Prod.mk.injEq] at hplot hu_part
  obtain ⟨hplace, hbell, hattempt, -, -, -, -, -, hgroup, hcode⟩ := hu_part
  obtain ⟨kplace, kbell, kattempt, -, -, -, -, -, kgroup, kcode⟩ := hplot
  refine ⟨?_, kbell.trans hbell, kattempt.trans hattempt, kcode.trans hcode, kgroup.trans hgroup, ?_, fun d => ?_⟩
  · rw [kplace, hplace]
  · rw [heq, hrefused.channels]
    exact hu.channels.trans hchanges.channels
  · rw [heq, hrefused.core d]
    exact (hu.core d).trans (s1.reeveChanges_core fn d)

/-! ### Stops with their books -/

variable {s fn code}

theorem noLatePackets_congr {p q : Plot} (h : Claims.NoLatePackets p) (hpart : q.bellPart = p.bellPart) : Claims.NoLatePackets q := by
  unfold Claims.NoLatePackets
  rw [Plot.bellPart_step hpart, Plot.bellPart_staged hpart]
  exact h

/-- Books before a stop are no part of what it leaves. -/
theorem Stopped.after {t u : State} {n : Nat} (h : Clerical n s t) (k : Stopped fn code t u) : Stopped fn code s u := by
  have hpart := h.plot fn
  refine ⟨k.state, k.bell.trans (Plot.bellPart_bell hpart), k.attempt.trans (Plot.bellPart_attempt hpart), k.stopCode, k.group.trans (Plot.bellPart_group hpart), k.channels.trans h.channels, fun d => ?_⟩
  rw [k.core d, h.waitingCores]
  split
  · exact CoreState.rebuilt_congr (h.core d)
  · exact h.core d

theorem Stopped.modHub {t : State} (h : Stopped fn code s t) (g : Hub → Hub) : Stopped fn code s (t.modHub g) := ⟨h.state, h.bell, h.attempt, h.stopCode, h.group, h.channels, h.core⟩

/-- A plot that is not joined sends no word to other members. -/
theorem State.groupWord_unjoined (kind : Nat) (h : (s.plot fn).group.joined = false) : s.groupWord fn kind = s := if_neg (ne_true_of_eq_false h)

theorem State.stopHere_stopped (d0 d1 d2 : Word) (hlate : Claims.NoLatePackets (s.plot fn)) (hjoined : (s.plot fn).group.joined = false) : Stopped fn code s (s.stopHere fn code d0 d1 d2) := by
  have hbooks := (s.queueReport_clerical fn (s.hubReport fn code true d0 d1 d2)).trans (State.closeBetween_clerical _ fn [(s.hubReport fn code true d0 d1 d2).stopEvent])
  have hstop := Stopped.after hbooks (State.stopNow_stopped _ fn code (noLatePackets_congr hlate (hbooks.plot fn)))
  have hgroup := congrArg GroupReg.joined hstop.group
  unfold State.stopHere
  rw [State.groupWord_unjoined _ (hgroup.trans hjoined)]
  exact hstop

theorem State.divergeHere_stopped (hlate : Claims.NoLatePackets (s.plot fn)) (hjoined : (s.plot fn).group.joined = false) : Stopped fn 0x3007 s (s.divergeHere fn) :=
  (State.stopHere_stopped _ _ _ hlate hjoined).modHub _

end Stops

end Sys2Proof.Machine
end

section
/-! The bell of a plot (R43, R51, R63, R345, R383, R426). -/

namespace Sys2Proof.Machine

/-! ### Steps that are opened or held -/

/-- The bell and attempt numbers of a plot and the works and bell images of its cores stand. -/
structure BellStands (fn : Fn) (s t : State) : Prop where
  bell : (t.plot fn).bell.bell = (s.plot fn).bell.bell
  attempt : (t.plot fn).bell.attempt = (s.plot fn).bell.attempt
  work : ∀ d : CoreId, (t.core d).work = (s.core d).work
  image : ∀ d : CoreId, (t.core d).image = (s.core d).image

/-- A plot of one module with no attempt of its step abandoned and no core that waits for a remap. -/
structure Undisturbed (fn : Fn) (s : State) : Prop where
  fresh : (s.plot fn).step.retriedAt = none
  joined : (s.plot fn).group.joined = false
  waiting : s.waitingCores (some fn) = []

section Opening

variable {s t u : State} {fn : Fn} {code : Code} {n : Nat}

theorem BellStands.refl (fn : Fn) (s : State) : BellStands fn s s := ⟨rfl, rfl, fun _ => rfl, fun _ => rfl⟩

theorem BellStands.trans (h : BellStands fn s t) (k : BellStands fn t u) : BellStands fn s u :=
  ⟨k.bell.trans h.bell, k.attempt.trans h.attempt, fun d => (k.work d).trans (h.work d), fun d => (k.image d).trans (h.image d)⟩

theorem Clerical.bellStands (h : Clerical n s t) : BellStands fn s t :=
  ⟨Plot.bellPart_bell (h.plot fn), Plot.bellPart_attempt (h.plot fn), fun d => CoreState.bellPart_work (h.core d), fun d => CoreState.bellPart_image (h.core d)⟩

theorem Clerical.undisturbed (h : Clerical n s t) (k : Undisturbed fn s) : Undisturbed fn t := by
  refine ⟨?_, ?_, h.waitingCores.trans k.waiting⟩
  · rw [Plot.bellPart_step (h.plot fn), k.fresh]
  · rw [Plot.bellPart_group (h.plot fn), k.joined]

theorem Undisturbed.noLatePackets (h : Undisturbed fn s) : Claims.NoLatePackets (s.plot fn) := fun _ _ _ _ hsince => nomatch h.fresh.symm.trans hsince

theorem Stopped.bellStands (h : Stopped fn code s t) (hwaiting : s.waitingCores (some fn) = []) : BellStands fn s t := by
  have hcore : ∀ d, (t.core d).bellPart = (s.core d).bellPart := fun d => by
    rw [h.core d, hwaiting]
    rfl
  exact ⟨h.bell, h.attempt, fun d => CoreState.bellPart_work (hcore d), fun d => CoreState.bellPart_image (hcore d)⟩

/-- A change of a plot that keeps its numbers. -/
theorem BellStands.setPlot {f : Fn} {v : Plot} (hbell : v.bell.bell = (s.plot f).bell.bell) (hattempt : v.bell.attempt = (s.plot f).bell.attempt) : BellStands fn s (s.setPlot f v) := by
  refine ⟨?_, ?_, fun _ => rfl, fun _ => rfl⟩ <;> by_cases h : fn = f
  · rw [h, State.setPlot_plot_same, hbell]
  · rw [State.setPlot_plot_ne _ _ h]
  · rw [h, State.setPlot_plot_same, hattempt]
  · rw [State.setPlot_plot_ne _ _ h]

theorem State.mapCores_bellStands {f : CoreState → CoreState} (hwork : ∀ c, (f c).work = c.work) (himage : ∀ c, (f c).image = c.image) (g : Fn) : BellStands fn s (s.mapCores g f) := by
  have hworks := s.mapCores_keeps g CoreState.work hwork
  have himages := s.mapCores_keeps g CoreState.image himage
  obtain ⟨cs, hcs⟩ := s.mapCores_frame g f
  rw [hcs] at hworks himages ⊢
  exact ⟨rfl, rfl, hworks, himages⟩

theorem State.openStep_bellStands : BellStands fn s (s.openStep fn) :=
  (State.mapCores_bellStands (f := CoreState.beginStep) (fun _ => rfl) (fun _ => rfl) fn).trans (BellStands.trans (t := ((s.mapCores fn CoreState.beginStep).mapChannels fn (fun k => { k with fired := [], failedFirings := [], stalledInStep := false }))) ⟨rfl, rfl, fun _ => rfl, fun _ => rfl⟩ (.setPlot rfl rfl))

/-- At a run's first bell a plot stops, waits for its partner's exchange, or goes on. -/
theorem State.meetPartner_cases (h : Undisturbed fn s) :
    (∃ code, Stopped fn code s (s.meetPartner fn)) ∨ s.meetPartner fn = s ∨ s.meetPartner fn = s.setPlot fn { s.plot fn with step.holds.partner := false, step.partner := none } := by
  unfold State.meetPartner
  dsimp only
  split
  · exact .inr (.inl rfl)
  · split
    · exact .inl ⟨_, State.stopHere_stopped _ _ _ h.noLatePackets h.joined⟩
    · split
      · split
        · exact .inr (.inr rfl)
        · exact .inl ⟨_, State.divergeHere_stopped h.noLatePackets h.joined⟩
      · exact .inl ⟨_, State.divergeHere_stopped h.noLatePackets h.joined⟩
      · exact .inr (.inl rfl)

/-- What a bell opens, holds or stops keeps the numbers, works and bell images that the bell has left. -/
theorem State.openOrHold_bellStands (last : Option Nat) (h : Undisturbed fn s) : BellStands fn s (s.openOrHold fn last) := by
  have hnext : ∀ u : State, Undisturbed fn u → BellStands fn u (if (u.plot fn).place.state != 3 then u else match (u.plot fn).step.stopAtBell with
      | some r => u.stopHere fn r.code r.d0 r.d1 r.d2
      | none =>
        let h : Holds := { u.holdsAt fn last with partner := (u.plot fn).step.holds.partner }
        if !h.any then u.openStep fn
        else
          u.setPlot fn { u.plot fn with
            bell := { (u.plot fn).bell with held := true, heldCount := if h.cause = 0 then (u.plot fn).bell.heldCount else satAdd (u.plot fn).bell.heldCount 1, cause := if h.cause = 0 then (u.plot fn).bell.cause else BitVec.ofNat 4 h.cause }
            run.stepHeld := h.reference
            step := { (u.plot fn).step with phase := .held, rung := false, holds := h, heldFrom := u.hub.time, heldStamp := u.stamp } }) := by
    intro u hu
    split
    · exact .refl fn u
    · split
      · exact (State.stopHere_stopped _ _ _ hu.noLatePackets hu.joined).bellStands hu.waiting
      · dsimp only
        split
        · exact State.openStep_bellStands
        · exact .setPlot rfl rfl
  obtain ⟨code, hstop⟩ | heq | heq := State.meetPartner_cases h
  · have hidle : s.openOrHold fn last = s.meetPartner fn := if_pos (by rw [hstop.state]; rfl)
    rw [hidle]
    exact hstop.bellStands h.waiting
  · unfold State.openOrHold
    rw [heq]
    exact hnext s h
  · unfold State.openOrHold
    rw [heq]
    have hset : BellStands fn s (s.setPlot fn { s.plot fn with step.holds.partner := false, step.partner := none }) := .setPlot rfl rfl
    have hsame : Undisturbed fn (s.setPlot fn { s.plot fn with step.holds.partner := false, step.partner := none }) := by
      refine ⟨?_, ?_, (State.waitingCores_congr rfl fun _ => rfl).trans h.waiting⟩ <;> rw [State.setPlot_plot_same]
      · exact h.fresh
      · exact h.joined
    exact hset.trans (hnext _ hsame)

end Opening

end Sys2Proof.Machine
end

section
/-! The commit of a step at its bell (R43, R51, R73, R321, R345, R383). -/

namespace Sys2Proof.Machine

section Commit

variable {s t : State} {fn : Fn}

/-- What a core's work becomes at a committing bell depends on its work and traffic alone. -/
theorem CoreState.commitStep_congr {c d : CoreState} (hwork : d.work = c.work) (htraffic : d.traffic = c.traffic) : d.commitStep.work = c.commitStep.work := by
  cases c
  cases d
  cases hwork
  cases htraffic
  unfold CoreState.commitStep CoreState.returnDrains CoreState.readS CoreState.setDseq
  dsimp only
  split_ifs <;> rfl

theorem CoreState.commitStep_owner (c : CoreState) : c.commitStep.owner = c.owner := by
  unfold CoreState.commitStep
  dsimp only
  split_ifs <;> rfl

/-- The packets due at a bell hang on what the bell goes by. -/
theorem Clerical.duePackets {n : Nat} (h : Clerical n s t) (b : Nat) : t.duePackets fn b = s.duePackets fn b := by
  have hpart := h.plot fn
  unfold State.duePackets
  dsimp only
  rw [Plot.bellPart_place hpart, Plot.bellPart_step hpart, Plot.bellPart_staged hpart, h.time]

/-- The state once a step's books are made up, before its block is added. -/
def State.bellBooks (s : State) (fn : Fn) : State :=
  ((((s.queueReports fn (s.attemptReports fn)).modPlot fn (fun p => { p with tot := s.stepTotals fn })).takeMailbox fn).commonsRun fn)

theorem State.bellBooks_clerical : Clerical 0 s (s.bellBooks fn) :=
  ((s.queueReports_clerical fn _).andThen (.modPlot rfl)).andThen ((State.takeMailbox_clerical _ fn).andThen (State.commonsRun_clerical _ fn))

/-- The plot as its bell leaves it before pass counts follow (R51, R73, R321, R381). -/
def Plot.committed (p : Plot) (lent : Nat) : Plot :=
  let sb := p.sbase.map (fun b => (b.1, { b.2 with base := b.2.base + b.2.adv.signExtend 34 }))
  { p with
    rounds := []
    sbase := sb
    sbaseImage := sb
    faults := { p.faults with retried := if p.bell.attempt == 0 then p.faults.retried else satAdd p.faults.retried 1, attemptReports := [] }
    clock := { (if p.step.overruns = 0 then p.clock.countBell else p.clock) with lent := lent }
    bell := { p.bell with bell := p.bell.bell + 1, attempt := 0, held := false }
    run := { p.run with inputs := [], outputs := [], events := p.step.heldEvents, stepHeld := false }
    step := { p.step with overruns := 0, retried := false, retriedAt := none, heldEvents := [] } }

/-- What a commit leaves of the module, pass counts apart. -/
structure Committed (fn : Fn) (s t : State) : Prop where
  plot : (t.plot fn).bellPart = ((s.plot fn).committed 0).bellPart
  work : ∀ d : CoreId, (t.core d).work = if d ∈ (s.plot fn).cores then (s.core d).commitStep.work else (s.core d).work
  image : ∀ d : CoreId, (t.core d).image = if d ∈ (s.plot fn).cores then (s.core d).commitStep.work else (s.core d).image
  owner : ∀ d : CoreId, (t.core d).owner = (s.core d).owner
  fields : t.fields = s.fields
  fieldHold : t.fieldHold = s.fieldHold
  hub : t.hub = s.hub
  bound : t.boundCount fn = s.boundCount fn

theorem State.mapChannels_bound (f : Channel → Channel) (howner : ∀ k, (f k).owner = k.owner) (g : Fn) : (s.mapChannels g f).boundCount fn = s.boundCount fn := by
  unfold State.boundCount State.mapChannels
  dsimp only
  rw [List.filter_map, List.length_map]
  refine congrArg List.length (List.filter_congr fun c _ => ?_)
  dsimp only [Function.comp]
  split
  · rw [howner]
  · rfl

theorem State.commitPlot_committed (hnodup : (s.plot fn).cores.Nodup) : Committed fn s (s.commitPlot fn) := by
  let s1 := s.clearMesh fn
  obtain ⟨cs, hcs⟩ := s1.mapCores_frame fn CoreState.commitStep
  have hcore := s1.mapCores_core fn CoreState.commitStep hnodup
  have howner := s1.mapCores_keeps fn CoreState.owner CoreState.commitStep_owner
  have hbound : ((s1.mapCores fn CoreState.commitStep).mapChannels fn Channel.commitStep).boundCount fn = s.boundCount fn := by
    rw [State.mapChannels_bound Channel.commitStep (fun _ => rfl) fn, hcs]
    rfl
  have hplot : ((s1.mapCores fn CoreState.commitStep).mapChannels fn Channel.commitStep).plot fn = s.plot fn := by
    rw [hcs]
    rfl
  have hfields : (s1.mapCores fn CoreState.commitStep).fields = s.fields ∧ (s1.mapCores fn CoreState.commitStep).fieldHold = s.fieldHold ∧ (s1.mapCores fn CoreState.commitStep).hub = s.hub := by
    rw [hcs]
    exact ⟨rfl, rfl, rfl⟩
  obtain ⟨hf, hh, hhub⟩ := hfields
  have hpart : ((s.commitPlot fn).plot fn).bellPart = ((s.plot fn).committed 0).bellPart := by
    unfold State.commitPlot State.setPass
    dsimp only
    rw [State.modPlot_eq, State.setPlot_plot_same, State.setPlot_plot_same, hplot]
    rfl
  obtain ⟨ps, hps⟩ : ∃ ps : AMap Plot, s.commitPlot fn = { (s1.mapCores fn CoreState.commitStep).mapChannels fn Channel.commitStep with plots := ps } := ⟨_, rfl⟩
  rw [hps] at hpart ⊢
  refine ⟨hpart, fun d => ?_, fun d => ?_, howner, hf, hh, hhub, hbound⟩
  · exact (congrArg CoreState.work (hcore d)).trans (apply_ite CoreState.work _ _ _)
  · exact (congrArg CoreState.image (hcore d)).trans (apply_ite CoreState.image _ _ _)

/-! ### The bell with no packet due -/

/-- The state with the step's block added to the run's record. -/
def State.bellClosed (s : State) (fn : Fn) : State :=
  let a := (s.bellBooks fn).unstage fn []
  a.addBlock fn (a.stepBlock fn [] ((a.plot fn).run.events ++ s.attemptEvents fn ++ [])) [] (((s.bellBooks fn).plot fn).bell.bell + 1)

/-- The state after the commit, with what the ringing recorded. -/
def State.bellCommitted (s : State) (fn : Fn) (extra : List EventEntry) : State :=
  extra.foldl (fun (s : State) e => s.plotReport fn e.code false 0 0 0)
    (((s.bellClosed fn).commitPlot fn).modPlot fn (fun p => { p with bell := p.bell.applyCtl, run.events := extra ++ p.run.events }))

theorem State.commitBell_quiet (extra : List EventEntry) (hdue : s.duePackets fn ((s.plot fn).bell.bell + 1).toNat = []) (hlast : (s.plot fn).bell.bell ≠ 0xFFFFFFFFFFFE) :
    let b := (s.plot fn).bell.bell + 1
    let u := s.bellCommitted fn extra
    s.commitBell fn extra = if (s.bellClosed fn).recordRefused ((s.bellBooks fn).unstage fn []) fn then
        (((State.settleBell [] fn b (u, [])).countBell fn).modPlot fn (fun p => { p with packets.staged := [] ++ p.packets.staged })).stopNow fn 0x5005 []
      else (State.settleBell [] fn b (u, [])).afterBell fn (u.plot fn).place.loads := by
  intro b u
  have hbooks := s.bellBooks_clerical (fn := fn)
  have hbell : ((s.bellBooks fn).plot fn).bell.bell = (s.plot fn).bell.bell := Plot.bellPart_bell (hbooks.plot fn)
  have hnone : (s.bellBooks fn).duePackets fn (((s.bellBooks fn).plot fn).bell.bell + 1).toNat = [] := by
    rw [hbooks.duePackets, hbell]
    exact hdue
  have hlt : (((s.bellBooks fn).plot fn).bell.bell + 1 == lastBellNumber) = false := by
    rw [hbell]
    exact beq_false_of_ne fun h => hlast (by rw [lastBellNumber] at h; bv_omega)
  unfold State.commitBell
  extract_lets rs evs s1 s2 s3 p1 b1 due s4 f r1 ends took away last conds s5 limit closed refused s6 s7 loads s8 s9 rest s10 rr
  have hs3 : s3 = s.bellBooks fn := rfl
  clear_value s3
  rw [← hs3] at hnone hlt hbell
  have hb1 : b1 = b := congrArg (· + 1) hbell
  have hdue1 : due = [] := hnone
  have hlt1 : (b1 == lastBellNumber) = false := hlt
  clear_value b1
  subst hb1
  clear_value due
  subst hdue1
  have hlast1 : last = false := hlt1
  clear_value last
  subst hlast1
  have hclosed : closed = s.bellClosed fn := by
    unfold State.bellClosed
    rw [← hs3, hbell]
    rfl
  have hrefused : refused = (s.bellClosed fn).recordRefused ((s.bellBooks fn).unstage fn []) fn := by
    rw [← hclosed, ← hs3]
    rfl
  have hcommitted : s7 = u := by
    unfold u State.bellCommitted
    rw [← hclosed]
  rw [← hrefused, ← hcommitted, Bool.false_or]
  clear_value refused s7
  rfl

end Commit

end Sys2Proof.Machine
end

section
/-! What follows the commit of a step: the number moves on, and the next step is opened, held, or the plot stops (R43, R51, R63, R385). -/

namespace Sys2Proof.Machine

/-- The bell of a plot has committed its step, and no packet of the bell is left: what the domain's next step goes by. -/
structure BellDone (fn : Fn) (s v : State) : Prop where
  plot : (v.plot fn).bellPart = ((s.plot fn).committed 0).bellPart
  work : ∀ d ∈ (s.plot fn).cores, (v.core d).work = (s.core d).commitStep.work
  image : ∀ d ∈ (s.plot fn).cores, (v.core d).image = (s.core d).commitStep.work
  waiting : v.waitingCores (some fn) = s.waitingCores (some fn)
  fieldHold : v.fieldHold = s.fieldHold
  refs : v.hub.refs = s.hub.refs
  records : v.hub.records.length ≤ s.hub.records.length + 2
  bound : v.boundCount fn = s.boundCount fn

section AfterBell

variable {s t v : State} {fn : Fn}

theorem Plot.committed_congr {p q : Plot} (h : q.bellPart = p.bellPart) : (q.committed 0).bellPart = (p.committed 0).bellPart := by
  simp only [Plot.bellPart, Prod.mk.injEq] at h
  obtain ⟨hplace, hbell, hattempt, hstep, hregs, hstaged, hresults, hmoving, hgroup, hcode⟩ := h
  simp only [Plot.bellPart, Plot.committed, hplace, hbell, hstep, hregs, hstaged, hresults, hmoving, hgroup, hcode]

theorem Plot.cores_congr {p q : Plot} (h : q.place = p.place) : q.cores = p.cores := by
  unfold Plot.cores
  rw [h]

theorem State.boundCount_congr (h : t.channels = s.channels) : t.boundCount fn = s.boundCount fn := by
  unfold State.boundCount
  rw [h]

/-- The books of a bell around its commit. -/
theorem BellDone.of_committed {c m : State} (hclosed : Clerical 2 s c) (hcommit : Committed fn c m) (hafter : Clerical 0 m v) : BellDone fn s v := by
  have hcores : (c.plot fn).cores = (s.plot fn).cores := Plot.cores_congr (Plot.bellPart_place (hclosed.plot fn))
  have hcommitted : ∀ d, (c.core d).commitStep.work = (s.core d).commitStep.work := fun d =>
    CoreState.commitStep_congr (CoreState.bellPart_work (hclosed.core d)) (CoreState.bellPart_traffic (hclosed.core d))
  refine ⟨(hafter.plot fn).trans (hcommit.plot.trans (Plot.committed_congr (hclosed.plot fn))), fun d hd => ?_, fun d hd => ?_, ?_, ?_, ?_, ?_, ?_⟩
  · rw [CoreState.bellPart_work (hafter.core d), hcommit.work, if_pos (by rw [hcores]; exact hd), hcommitted]
  · rw [CoreState.bellPart_image (hafter.core d), hcommit.image, if_pos (by rw [hcores]; exact hd), hcommitted]
  · exact hafter.waitingCores.trans ((State.waitingCores_congr hcommit.fields hcommit.owner).trans hclosed.waitingCores)
  · exact hafter.fieldHold.trans (hcommit.fieldHold.trans hclosed.fieldHold)
  · rw [hafter.refs, hcommit.hub, hclosed.refs]
  · have h1 := hafter.records
    rw [hcommit.hub] at h1
    exact h1.trans hclosed.records
  · rw [State.boundCount_congr hafter.channels, hcommit.bound, State.boundCount_congr hclosed.channels]

theorem State.unstageNone_clerical : Clerical 0 s (s.unstage fn []) := .modPlot (Plot.unstageNone_bellPart _)

theorem State.bellClosed_clerical : Clerical 2 s (s.bellClosed fn) := by
  have hbooks : Clerical 0 s ((s.bellBooks fn).unstage fn []) := s.bellBooks_clerical.andThen State.unstageNone_clerical
  unfold State.bellClosed
  generalize (s.bellBooks fn).unstage fn [] = a at hbooks ⊢
  exact hbooks.trans (a.addBlock_clerical fn _ _ _)

theorem State.bellCommitted_clerical (extra : List EventEntry) : Clerical 0 ((s.bellClosed fn).commitPlot fn) (s.bellCommitted fn extra) := by
  unfold State.bellCommitted
  generalize (s.bellClosed fn).commitPlot fn = m
  refine Clerical.andThen (t := m.modPlot fn (fun p => { p with bell := p.bell.applyCtl, run.events := extra ++ p.run.events })) (.modPlot rfl) ?_
  exact .foldl _ (fun s (e : EventEntry) => s.plotReport_clerical fn e.code false 0 0 0) _ _

theorem State.settleNone_clerical (b : BitVec 48) : Clerical 0 s (State.settleBell [] fn b (s, [])) := by
  unfold State.settleBell
  exact .modPlot rfl

/-- The state after the commit and the completions, before the bell is counted. -/
def State.bellSettled (s : State) (fn : Fn) (extra : List EventEntry) : State := State.settleBell [] fn ((s.plot fn).bell.bell + 1) (s.bellCommitted fn extra, [])

theorem State.bellSettled_done (extra : List EventEntry) (hnodup : (s.plot fn).cores.Nodup) : BellDone fn s (s.bellSettled fn extra) := by
  have hclosed := s.bellClosed_clerical (fn := fn)
  have hcores : ((s.bellClosed fn).plot fn).cores = (s.plot fn).cores := Plot.cores_congr (Plot.bellPart_place (hclosed.plot fn))
  have hcommitted := s.bellCommitted_clerical (fn := fn) extra
  unfold State.bellSettled
  generalize s.bellCommitted fn extra = u at hcommitted ⊢
  have hafter : Clerical 0 ((s.bellClosed fn).commitPlot fn) (State.settleBell [] fn ((s.plot fn).bell.bell + 1) (u, [])) := hcommitted.andThen (State.settleNone_clerical _)
  have hcommit : Committed fn (s.bellClosed fn) ((s.bellClosed fn).commitPlot fn) := State.commitPlot_committed (by rw [hcores]; exact hnodup)
  generalize s.bellClosed fn = c at hclosed hcommit hafter
  generalize c.commitPlot fn = m at hcommit hafter
  exact BellDone.of_committed hclosed hcommit hafter

theorem BellDone.undisturbed (h : BellDone fn s v) (hjoined : (s.plot fn).group.joined = false) (hwaiting : s.waitingCores (some fn) = []) : Undisturbed fn v := by
  refine ⟨?_, ?_, h.waiting.trans hwaiting⟩
  · rw [Plot.bellPart_step h.plot]
    rfl
  · rw [Plot.bellPart_group h.plot]
    exact hjoined

theorem BellDone.place (h : BellDone fn s v) : (v.plot fn).place = (s.plot fn).place := (Plot.bellPart_place h.plot).trans rfl

theorem State.countBell_bellStands : BellStands fn v (v.countBell fn) := .setPlot rfl rfl

theorem State.countBell_undisturbed (h : Undisturbed fn v) : Undisturbed fn (v.countBell fn) := by
  obtain ⟨hfresh, hjoined, hwaiting⟩ := h
  refine ⟨?_, ?_, (State.waitingCores_congr rfl fun _ => rfl).trans hwaiting⟩ <;> unfold State.countBell <;> rw [State.modPlot_eq, State.setPlot_plot_same]
  · exact hfresh
  · exact hjoined

/-- Repairs at a bell where no core waits for one keep numbers, works and bell images. -/
theorem State.reeveChanges_bellStands (h : Undisturbed fn v) : BellStands fn v (v.reeveChanges fn) := by
  have haside := v.reeveChanges_aside fn
  have hcores := State.reeveChanges_cores h.waiting
  exact ⟨Plot.bellPart_bell (haside.plot fn), Plot.bellPart_attempt (haside.plot fn), fun d => CoreState.bellPart_work (hcores d), fun d => CoreState.bellPart_image (hcores d)⟩

theorem State.reeveChanges_undisturbed (h : Undisturbed fn v) : Undisturbed fn (v.reeveChanges fn) := by
  have hplot := (v.reeveChanges_aside fn).plot fn
  refine ⟨?_, ?_, State.reeveChanges_waiting h.waiting⟩
  · rw [Plot.bellPart_step hplot, h.fresh]
  · rw [Plot.bellPart_group hplot, h.joined]

/-- The state at which the next step is opened or held, the opening images being the works of now (R385). -/
def State.bellOpening (v : State) (fn : Fn) : State := ((v.countBell fn).reeveChanges fn).mapCores fn (fun c => { c with image := c.work })

theorem State.afterBell_running (loads : Nat) (h3 : (v.plot fn).place.state = 3) :
    v.afterBell fn loads = (v.bellOpening fn).openOrHold fn (if (v.plot fn).step.everRung then some (v.plot fn).step.lastBell else none) :=
  if_pos (by rw [h3]; rfl)

theorem State.bellOpening_plot : ((v.bellOpening fn).plot fn).bellPart = ((v.countBell fn).plot fn).bellPart := by
  obtain ⟨cs, hcs⟩ := ((v.countBell fn).reeveChanges fn).mapCores_frame fn (fun c => { c with image := c.work })
  unfold State.bellOpening
  rw [hcs]
  exact ((v.countBell fn).reeveChanges_aside fn).plot fn

theorem State.bellOpening_undisturbed (h : Undisturbed fn v) : Undisturbed fn (v.bellOpening fn) := by
  have hu := State.reeveChanges_undisturbed (State.countBell_undisturbed h)
  unfold State.bellOpening
  generalize (v.countBell fn).reeveChanges fn = w at hu ⊢
  have howner := w.mapCores_keeps fn CoreState.owner (f := fun c => { c with image := c.work }) fun _ => rfl
  obtain ⟨cs, hcs⟩ := w.mapCores_frame fn (fun c => { c with image := c.work })
  rw [hcs] at howner ⊢
  exact ⟨hu.fresh, hu.joined, (State.waitingCores_congr (s := w) (t := { w with cores := cs }) rfl howner).trans hu.waiting⟩

/-- Where the images are the works already, all stands up to the opening. -/
theorem State.bellOpening_bellStands (h : Undisturbed fn v) (hnodup : (v.plot fn).cores.Nodup) (himage : ∀ d ∈ (v.plot fn).cores, (v.core d).image = (v.core d).work) :
    BellStands fn v (v.bellOpening fn) := by
  have hfirst := v.countBell_bellStands.trans (State.reeveChanges_bellStands (State.countBell_undisturbed h))
  have hplace : (((v.countBell fn).reeveChanges fn).plot fn).place = (v.plot fn).place := by
    rw [Plot.bellPart_place (((v.countBell fn).reeveChanges_aside fn).plot fn)]
    unfold State.countBell
    rw [State.modPlot_eq, State.setPlot_plot_same]
  have hcores := Plot.cores_congr hplace
  refine hfirst.trans ?_
  unfold State.bellOpening
  generalize (v.countBell fn).reeveChanges fn = w at hfirst hcores ⊢
  have hcore := w.mapCores_core fn (fun c => { c with image := c.work }) (by rw [hcores]; exact hnodup)
  obtain ⟨cs, hcs⟩ := w.mapCores_frame fn (fun c => { c with image := c.work })
  rw [hcs] at hcore ⊢
  refine ⟨rfl, rfl, fun d => ?_, fun d => ?_⟩
  · rw [hcore]
    split <;> rfl
  · rw [hcore]
    split
    · next hd => exact (hfirst.work d).trans ((himage d (by rw [← hcores]; exact hd)).symm.trans (hfirst.image d).symm)
    · rfl

theorem State.openStep_opens (hnodup : (s.plot fn).cores.Nodup) :
    ((s.openStep fn).plot fn).step.phase = .running ∧ ((s.openStep fn).plot fn).step.released = 0 ∧ ∀ c ∈ (s.plot fn).cores, ((s.openStep fn).core c).step.offset = 0 := by
  have hcore := s.mapCores_core fn CoreState.beginStep hnodup
  unfold State.openStep
  generalize s.mapCores fn CoreState.beginStep = m at hcore ⊢
  dsimp only
  rw [State.modPlot_eq, State.setPlot_plot_same]
  refine ⟨rfl, rfl, fun c hc => ?_⟩
  have hbegun : m.core c = (s.core c).beginStep := (hcore c).trans (if_pos hc)
  exact congrArg (fun k : CoreState => k.step.offset) hbegun

/-- A bell that finds no hold and no stop opens the next step. -/
theorem State.openOrHold_opens (last : Option Nat) (h3 : (s.plot fn).place.state = 3) (hpartner : (s.plot fn).step.holds.partner = false) (hstop : (s.plot fn).step.stopAtBell = none)
    (hholds : (s.holdsAt fn last).any = false) : s.openOrHold fn last = s.openStep fn := by
  have hmeet : s.meetPartner fn = s := if_pos (by rw [hpartner]; rfl)
  have hnone : (({ s.holdsAt fn last with partner := (s.plot fn).step.holds.partner } : Holds)).any = false := by
    rw [hpartner]
    exact hholds
  unfold State.openOrHold
  simp only [hmeet, h3, hstop, hnone]
  rfl

end AfterBell

end Sys2Proof.Machine
end

section
/-! The bell that commits a step (R43, R61): O43. -/

namespace Sys2Proof.Machine

/-- A plot of one module whose step may commit, with no packet due at its bell and no core of it waiting for a remap. -/
structure MayCommit (fn : Fn) (s : State) : Prop where
  nodup : (s.plot fn).cores.Nodup
  joined : (s.plot fn).group.joined = false
  waiting : s.waitingCores (some fn) = []
  state : (s.plot fn).place.state = 3
  due : s.duePackets fn ((s.plot fn).bell.bell + 1).toNat = []
  last : (s.plot fn).bell.bell ≠ 0xFFFFFFFFFFFE

/-- Nothing holds or stops the step that a committing bell of the plot opens. -/
structure OpensNext (fn : Fn) (s : State) : Prop where
  reference : s.hub.refs.holdover = false
  records : s.hub.records.length ≤ 6
  completion : s.backlogFull fn = false
  thermal : ∀ f ∈ (s.plot fn).fieldList, (AMap.get {} s.fieldHold f).held = false
  partner : (s.plot fn).step.holds.partner = false
  stop : (s.plot fn).step.stopAtBell = none
  signed : (s.plot fn).regs.requireSigned = false

section CommitBell

variable {s t v : State} {fn : Fn}

theorem Plot.fieldList_congr {p q : Plot} (h : q.place = p.place) : q.fieldList = p.fieldList := by
  unfold Plot.fieldList
  rw [Plot.cores_congr h]

theorem State.backlogFull_congr (hbound : t.boundCount fn = s.boundCount fn) (hresults : (t.plot fn).packets.results = (s.plot fn).packets.results) : t.backlogFull fn = s.backlogFull fn := by
  unfold State.backlogFull Plot.resultBytes
  rw [hbound, hresults]

theorem Clerical.mayCommit (h : Clerical 0 s t) (k : MayCommit fn s) : MayCommit fn t := by
  have hpart := h.plot fn
  refine ⟨?_, ?_, h.waitingCores.trans k.waiting, ?_, ?_, ?_⟩
  · rw [Plot.cores_congr (Plot.bellPart_place hpart)]
    exact k.nodup
  · rw [Plot.bellPart_group hpart]
    exact k.joined
  · rw [Plot.bellPart_place hpart]
    exact k.state
  · rw [h.duePackets, Plot.bellPart_bell hpart]
    exact k.due
  · rw [Plot.bellPart_bell hpart]
    exact k.last

theorem Clerical.opensNext (h : Clerical 0 s t) (k : OpensNext fn s) : OpensNext fn t := by
  have hpart := h.plot fn
  refine ⟨?_, h.records.trans k.records, ?_, fun f hf => ?_, ?_, ?_, ?_⟩
  · rw [h.refs]
    exact k.reference
  · rw [State.backlogFull_congr (State.boundCount_congr h.channels) (Plot.bellPart_results hpart)]
    exact k.completion
  · rw [h.fieldHold]
    exact k.thermal f (by rwa [← Plot.fieldList_congr (Plot.bellPart_place hpart)])
  · rw [Plot.bellPart_step hpart]
    exact k.partner
  · rw [Plot.bellPart_step hpart]
    exact k.stop
  · rw [Plot.bellPart_regs hpart]
    exact k.signed

/-- What the opening of the next step finds is what the commit has left, with no hold in it. -/
theorem BellDone.noHold (h : BellDone fn s v) (k : OpensNext fn s) (last : Option Nat) : ((v.bellOpening fn).holdsAt fn last).any = false := by
  have hplot : ((v.bellOpening fn).plot fn).bellPart = ((v.countBell fn).plot fn).bellPart := v.bellOpening_plot
  have hcount : ((v.countBell fn).plot fn).place = (v.plot fn).place ∧ ((v.countBell fn).plot fn).packets = (v.plot fn).packets := by
    unfold State.countBell
    rw [State.modPlot_eq, State.setPlot_plot_same]
    exact ⟨rfl, rfl⟩
  have hplace : ((v.bellOpening fn).plot fn).place = (s.plot fn).place := (Plot.bellPart_place hplot).trans (hcount.1.trans h.place)
  have hresults : ((v.bellOpening fn).plot fn).packets.results = (s.plot fn).packets.results :=
    (Plot.bellPart_results hplot).trans ((congrArg (·.results) hcount.2).trans (Plot.bellPart_results h.plot))
  have hside : (v.bellOpening fn).channels = v.channels ∧ (v.bellOpening fn).fieldHold = v.fieldHold ∧ (v.bellOpening fn).hub.refs = v.hub.refs ∧ (v.bellOpening fn).hub.records.length ≤ v.hub.records.length := by
    have haside := (v.countBell fn).reeveChanges_aside fn
    obtain ⟨cs, hcs⟩ := ((v.countBell fn).reeveChanges fn).mapCores_frame fn (fun c => { c with image := c.work })
    unfold State.bellOpening
    rw [hcs]
    exact ⟨haside.channels, haside.fieldHold, haside.refs, haside.records⟩
  obtain ⟨hchannels, hfields, hrefs, hrecords⟩ := hside
  have hbacklog : (v.bellOpening fn).backlogFull fn = false :=
    (State.backlogFull_congr ((State.boundCount_congr hchannels).trans h.bound) hresults).trans k.completion
  have hfew : decide (8 < (v.bellOpening fn).hub.records.length) = false := decide_eq_false (by have := h.records; have := k.records; omega)
  have hholdover : (v.bellOpening fn).hub.refs.holdover = false := by rw [hrefs, h.refs, k.reference]
  have hcool : ((v.bellOpening fn).plot fn).fieldList.any (fun f => (AMap.get {} (v.bellOpening fn).fieldHold f).held) = false := by
    rw [Plot.fieldList_congr hplace, hfields, h.fieldHold]
    exact List.any_eq_false.2 fun f hf => ne_true_of_eq_false (k.thermal f hf)
  unfold Holds.any State.holdsAt
  simp only [hholdover, hfew, hbacklog, hcool, Bool.false_and, Bool.and_false, Bool.or_false]

/-- After the commit the next step is opened where nothing holds it; else numbers, works and bell images stand all the same. -/
theorem BellDone.afterBell (h : BellDone fn s v) (k : MayCommit fn s) (loads : Nat) : BellStands fn v (v.afterBell fn loads) ∧
    (OpensNext fn s → ((v.afterBell fn loads).plot fn).step.phase = .running ∧ ((v.afterBell fn loads).plot fn).step.released = 0 ∧ ∀ c ∈ (s.plot fn).cores, ((v.afterBell fn loads).core c).step.offset = 0) := by
  have hund : Undisturbed fn v := h.undisturbed k.joined k.waiting
  have hcores : (v.plot fn).cores = (s.plot fn).cores := Plot.cores_congr h.place
  have hstands : BellStands fn v (v.bellOpening fn) :=
    State.bellOpening_bellStands hund (by rw [hcores]; exact k.nodup) fun d hd => (h.image d (by rwa [← hcores])).trans (h.work d (by rwa [← hcores])).symm
  have hopening : Undisturbed fn (v.bellOpening fn) := State.bellOpening_undisturbed hund
  have hplot : ((v.bellOpening fn).plot fn).bellPart = ((v.countBell fn).plot fn).bellPart := v.bellOpening_plot
  have hcount : ((v.countBell fn).plot fn).place = (v.plot fn).place ∧ ((v.countBell fn).plot fn).step.holds = (v.plot fn).step.holds ∧ ((v.countBell fn).plot fn).step.stopAtBell = (v.plot fn).step.stopAtBell := by
    unfold State.countBell
    rw [State.modPlot_eq, State.setPlot_plot_same]
    exact ⟨rfl, rfl, rfl⟩
  have hplace : ((v.bellOpening fn).plot fn).place = (s.plot fn).place := (Plot.bellPart_place hplot).trans (hcount.1.trans h.place)
  rw [State.afterBell_running loads (by rw [h.place]; exact k.state)]
  refine ⟨hstands.trans (State.openOrHold_bellStands _ hopening), fun hopens => ?_⟩
  have hstep := Plot.bellPart_step h.plot
  rw [State.openOrHold_opens _ (by rw [hplace]; exact k.state) (by rw [Plot.bellPart_step hplot, hcount.2.1, hstep]; exact hopens.partner)
    (by rw [Plot.bellPart_step hplot, hcount.2.2, hstep]; exact hopens.stop) (h.noHold hopens _)]
  rw [← Plot.cores_congr hplace]
  exact State.openStep_opens (by rw [Plot.cores_congr hplace]; exact k.nodup)

/-- A record that is refused stops the plot after its step (R364). -/
theorem BellDone.refused (h : BellDone fn s v) (k : MayCommit fn s) :
    BellStands fn v (((v.countBell fn).modPlot fn (fun p => { p with packets.staged := [] ++ p.packets.staged })).stopNow fn 0x5005 []) := by
  have hclerical : Clerical 0 (v.countBell fn) ((v.countBell fn).modPlot fn (fun p => { p with packets.staged := [] ++ p.packets.staged })) := .modPlot rfl
  have hund := hclerical.undisturbed (State.countBell_undisturbed (h.undisturbed k.joined k.waiting))
  have hcount : BellStands fn v (v.countBell fn) := v.countBell_bellStands
  have hstop : Stopped fn 0x5005 _ _ := State.stopNow_stopped ((v.countBell fn).modPlot fn (fun p => { p with packets.staged := [] ++ p.packets.staged })) fn 0x5005 hund.noLatePackets
  exact hcount.trans (hclerical.bellStands.trans (hstop.bellStands hund.waiting))

theorem State.bellClosed_accepted (h : (s.plot fn).regs.requireSigned = false) : (s.bellClosed fn).recordRefused ((s.bellBooks fn).unstage fn []) fn = false := by
  have hregs : ((s.bellClosed fn).plot fn).regs.requireSigned = false := by rw [Plot.bellPart_regs (s.bellClosed_clerical.plot fn), h]
  unfold State.recordRefused
  rw [hregs]
  rfl

/-- The commit of a step, by what it leaves of numbers, works and bell images, and by the step it opens. -/
theorem State.commitBell_commits (k : MayCommit fn s) (extra : List EventEntry) : BellStands fn (s.bellSettled fn extra) (s.commitBell fn extra) ∧
    (OpensNext fn s → ((s.commitBell fn extra).plot fn).step.phase = .running ∧ ((s.commitBell fn extra).plot fn).step.released = 0 ∧
      ∀ c ∈ (s.plot fn).cores, ((s.commitBell fn extra).core c).step.offset = 0) := by
  have hdone := s.bellSettled_done extra k.nodup
  have hquiet := State.commitBell_quiet extra k.due k.last
  dsimp only at hquiet
  rw [← State.bellSettled] at hquiet
  have haccepted := s.bellClosed_accepted (fn := fn)
  rw [hquiet]
  generalize s.bellSettled fn extra = v at hdone ⊢
  generalize (s.bellClosed fn).recordRefused ((s.bellBooks fn).unstage fn []) fn = refused at haccepted ⊢
  split
  · next hrefused => exact ⟨hdone.refused k, fun hopens => nomatch (haccepted hopens.signed).symm.trans hrefused⟩
  · exact hdone.afterBell k _

theorem Plot.ringEvents_bellPart (p : Plot) (late : Bool) (now : Nat) (stamp : Word) : (p.ringEvents late now stamp).1.bellPart = p.bellPart := by
  unfold Plot.ringEvents
  dsimp only
  split_ifs <;> rfl

/-- A bell that may ring and has nothing to judge commits its step. -/
theorem State.ring_commits (late : Bool) (hstranded : s.strandedFlits fn = []) (hverdict : verdictOf (s.attemptReports fn) (s.plot fn).bell.attempt.toNat = .commit) (htest : s.testDue fn = false)
    (hquiet : s.quiet fn = true) (hturn : s.commonsTurn fn = true) (hlock : s.hub.faults.lockEnable = false) :
    ∃ (w : State) (extra : List EventEntry), Clerical 0 s w ∧ s.ring fn late = w.commitBell fn extra := by
  have hnote : s.noteStranded fn = s := by
    unfold State.noteStranded
    rw [hstranded]
    rfl
  let q := (s.plot fn).ringEvents late s.hub.time s.stamp
  have hpart : q.1.bellPart = (s.plot fn).bellPart := Plot.ringEvents_bellPart _ _ _ _
  refine ⟨(s.setPlot fn q.1).noteCommons fn, q.2, (Clerical.setPlot hpart).andThen (State.noteCommons_clerical _ fn), ?_⟩
  unfold State.ring State.ringWith
  rw [hnote]
  have hcommit : (verdictOf (s.attemptReports fn) (s.plot fn).bell.attempt.toNat != .commit || s.testDue fn) = false := by
    rw [hverdict, htest]
    rfl
  have hnow : (!s.quiet fn || !s.commonsTurn fn) = false := by
    rw [hquiet, hturn]
    rfl
  refine (if_neg (ne_true_of_eq_false hcommit)).trans ((if_neg (ne_true_of_eq_false hnow)).trans (if_pos ?_))
  rw [hlock]
  rfl

end CommitBell

/-- The three rows that ring a bell, on a plot of one module that waits for it. -/
theorem bellRow_rings {row : Instr} {fn : Fn} {dh : Nat} {s : State} (harrived : (((s.advance dh).tryDomains).plot fn).step.phase = .arrived) (hrung : (((s.advance dh).tryDomains).plot fn).step.rung = false)
    (hjoined : (((s.advance dh).tryDomains).plot fn).group.joined = false)
    (hrow : ((row = .bellRings fn dh ∨ row = .bellIntervalElapsed fn dh) ∧ (((s.advance dh).tryDomains).plot fn).mayRing ((s.advance dh).tryDomains).hub.time = true) ∨
      (row = .syncLate fn dh ∧ (((s.advance dh).tryDomains).plot fn).windowOver ((s.advance dh).tryDomains).hub.time = true)) :
    ∃ late, exec row s = .next (((s.advance dh).tryDomains).ring fn late) := by
  have hrings : (((s.advance dh).tryDomains).plot fn).mayRing ((s.advance dh).tryDomains).hub.time = true → execBellRings fn dh s = .next (((s.advance dh).tryDomains).ring fn false) := by
    intro hmay
    unfold execBellRings
    generalize (s.advance dh).tryDomains = u at harrived hrung hjoined hmay ⊢
    simp only [harrived, hrung, hjoined, hmay]
    rfl
  obtain ⟨rfl | rfl, hmay⟩ | ⟨rfl, hover⟩ := hrow
  · exact ⟨false, hrings hmay⟩
  · exact ⟨false, hrings hmay⟩
  · refine ⟨true, ?_⟩
    show execSyncLate fn dh s = _
    unfold execSyncLate
    generalize (s.advance dh).tryDomains = u at harrived hrung hjoined hover ⊢
    simp only [harrived, hrung, hjoined, hover]
    rfl

end Sys2Proof.Machine

namespace Sys2Proof.Claims

open Sys2Proof.Machine

/-- Settles O43: the ringing row commits, what the commit leaves stands through what follows it, and with no hold the next step is opened. -/
theorem bellsCommitTheirStep : Obligations.BellsCommitTheirStep := by
  unfold Obligations.BellsCommitTheirStep
  intro s fn dh row u p harrived hrung hjoined hlock h3 hnodup hstranded hverdict htest hquiet hturn hwaiting hlast hdue hrow
  have hover : p.bell.frame = true ∧ (∀ e, p.bell.latch = some e → p.step.moment + p.bell.window < e) ∧ p.step.moment + p.bell.window ≤ u.hub.time → p.windowOver u.hub.time = true := by
    rintro ⟨hframe, hlatch, htime⟩
    have hedge : (match p.bell.latch with | some e => decide (p.step.moment + p.bell.window < e) | none => true) = true := by
      cases he : p.bell.latch with
      | none => rfl
      | some e => exact decide_eq_true (hlatch e he)
    exact Bool.and_eq_true_iff.2 ⟨Bool.and_eq_true_iff.2 ⟨hframe, decide_eq_true htime⟩, hedge⟩
  obtain ⟨late, hexec⟩ := bellRow_rings harrived hrung hjoined (hrow.imp id fun h => ⟨h.1, hover h.2⟩)
  obtain ⟨w, extra, hw, hring⟩ := State.ring_commits (s := u) (fn := fn) late hstranded hverdict htest hquiet hturn hlock
  have hmay : MayCommit fn u := ⟨hnodup, hjoined, hwaiting, h3, hdue, hlast⟩
  have hpart := hw.plot fn
  have hcores : (w.plot fn).cores = p.cores := Plot.cores_congr (Plot.bellPart_place hpart)
  have hwmay := hw.mayCommit hmay
  obtain ⟨hstands, hopen⟩ := State.commitBell_commits hwmay extra
  have hdone := w.bellSettled_done extra hwmay.nodup
  have hcommitted : ∀ d, (w.core d).commitStep.work = (u.core d).commitStep.work := fun d =>
    CoreState.commitStep_congr (CoreState.bellPart_work (hw.core d)) (CoreState.bellPart_traffic (hw.core d))
  refine ⟨w.commitBell fn extra, hexec.trans (congrArg Host.Outcome.next hring), ?_, ?_, fun c hc => ⟨?_, ?_⟩, fun href hrecords hbacklog hcool hpartner hstop hsigned => ?_⟩
  · rw [hstands.bell, Plot.bellPart_bell hdone.plot]
    exact congrArg (· + 1) (Plot.bellPart_bell hpart)
  · rw [hstands.attempt, Plot.bellPart_attempt hdone.plot]
    rfl
  · rw [hstands.work, hdone.work c (by rwa [hcores]), hcommitted]
  · rw [hstands.image, hdone.image c (by rwa [hcores]), hcommitted]
  · rw [← hcores]
    exact hopen (hw.opensNext ⟨href, hrecords, hbacklog, hcool, hpartner, hstop, hsigned⟩)

end Sys2Proof.Claims
end

section
/-! Attempts that are undone, retried or stopped (R59, R281, R328, R374, R383, R385, R404): O44. -/

namespace Sys2Proof.Machine

/-- The attempt of a plot is undone: its cores stand as their bell images, what could not be read of them bruised, and its channels hold their journaled units. -/
structure Undone (fn : Fn) (s t : State) : Prop where
  core : ∀ c ∈ (s.plot fn).cores, (t.core c).work = (s.core c).image.heal ∧ (t.core c).image = (s.core c).image.heal ∧ (t.core c).step.events = []
  channel : ∀ ch : ChanId, (s.channel ch).owner = some fn → t.channel ch = (s.channel ch).restoreStep
  bell : (t.plot fn).bell.bell = (s.plot fn).bell.bell

/-- The attempt is undone, the plot's own books stand, and its commons requests are dropped. -/
structure Restored (fn : Fn) (s t : State) : Prop extends Undone fn s t where
  plot : (t.plot fn).bellPart = (s.plot fn).bellPart
  requests : (t.plot fn).commons.requests = []

section Undoing

variable {s t u : State} {fn : Fn} {code : Code} {n : Nat}

/-- A map whose values of a kind are changed: a value of that kind reads changed. -/
theorem AMap.get_map_if {α : Type} (d : α) (q : α → Bool) (f : α → α) (hd : q d = false) (m : AMap α) (k : Nat) (h : q (AMap.get d m k) = true) :
    AMap.get d (m.map (fun e => if q e.2 then (e.1, f e.2) else e)) k = f (AMap.get d m k) := by
  induction m with
  | nil => exact nomatch hd.symm.trans h
  | cons e m ih =>
    rw [List.map_cons]
    by_cases hk : e.1 = k
    · have hget : AMap.get d (e :: m) k = e.2 := if_pos hk
      rw [hget] at h ⊢
      rw [if_pos h]
      exact if_pos hk
    · have hget : AMap.get d (e :: m) k = AMap.get d m k := if_neg hk
      rw [hget] at h ⊢
      rw [← ih h]
      split <;> exact if_neg hk

/-- A change of a plot's channels changes each channel that the plot owns. -/
theorem State.mapChannels_channel (f : Channel → Channel) (ch : ChanId) (h : (s.channel ch).owner = some fn) : (s.mapChannels fn f).channel ch = f (s.channel ch) :=
  AMap.get_map_if ({} : Channel) (fun k : Channel => k.owner == some fn) f rfl s.channels ch.toNat (by rw [show (AMap.get {} s.channels ch.toNat).owner = some fn from h]; exact beq_self_eq_true _)

theorem State.noteJournals_clerical : Clerical 0 s (s.noteJournals fn) := by
  unfold State.noteJournals
  exact .foldl _ (fun s c => .foldl _ (fun s u => s.logReport_clerical _ _ _ _) _ s) _ s

/-- A core whose bell image has been read. -/
def CoreState.healed (c : CoreState) : CoreState := { c with image := c.image.heal }

theorem CoreState.healed_congr {c d : CoreState} (h : d.bellPart = c.bellPart) : d.healed.bellPart = c.healed.bellPart := by
  simp only [CoreState.bellPart, Prod.mk.injEq] at h
  obtain ⟨hw, hi, ht, hs, hto, ho⟩ := h
  simp only [CoreState.bellPart, CoreState.healed, hw, hi, ht, hs, hto, ho]

theorem CoreState.healed_healed (c : CoreState) : c.healed.healed = c.healed := by
  unfold CoreState.healed
  rw [CoreWork.heal_heal]

theorem State.readList_aside (l : List CoreId) : Aside 0 s (l.foldl (fun (s : State) c => s.readImage fn c) s) := .foldl _ (fun s c => s.readImage_aside fn c) l s

/-- Reading bell images heals those of the cores read. -/
theorem State.readList_core (l : List CoreId) (d : CoreId) :
    ((l.foldl (fun (s : State) c => s.readImage fn c) s).core d).bellPart = (if d ∈ l then (s.core d).healed else s.core d).bellPart := by
  induction l generalizing s with
  | nil => rfl
  | cons c l ih =>
    have hone : ((s.readImage fn c).core d).bellPart = (if d = c then (s.core c).healed else s.core d).bellPart := s.readImage_core fn c d
    rw [List.foldl_cons, ih]
    by_cases hd : d = c
    · subst hd
      rw [if_pos rfl] at hone
      rw [if_pos List.mem_cons_self]
      split
      · rw [CoreState.healed_congr hone, CoreState.healed_healed]
      · exact hone
    · rw [if_neg hd] at hone
      have hiff : d ∈ c :: l ↔ d ∈ l := by rw [List.mem_cons, or_iff_right hd]
      by_cases hl : d ∈ l
      · rw [if_pos hl, if_pos (hiff.2 hl), CoreState.healed_congr hone]
      · rw [if_neg hl, if_neg (mt hiff.1 hl), hone]

theorem State.clearMesh_clerical : Clerical 0 s (s.clearMesh fn) := ⟨⟨rfl, rfl, rfl, fun _ => rfl, rfl, rfl, rfl, le_rfl⟩, fun _ => rfl, rfl⟩

/-- The restore of an abandoned attempt (R281, R328, R383). -/
theorem State.restorePlot_restored (hnodup : (s.plot fn).cores.Nodup) : Restored fn s (s.restorePlot fn) := by
  let s1 := (s.clearMesh fn).noteJournals fn
  let s2 := s1.readImages fn
  have hs1 : Clerical 0 s s1 := State.clearMesh_clerical.andThen State.noteJournals_clerical
  have hs2 : Aside 0 s1 s2 := State.readList_aside _
  have hcores1 : (s1.plot fn).cores = (s.plot fn).cores := Plot.cores_congr (Plot.bellPart_place (hs1.plot fn))
  have hplot : (s2.plot fn).bellPart = (s.plot fn).bellPart := (hs2.plot fn).trans (hs1.plot fn)
  have hcores : (s2.plot fn).cores = (s.plot fn).cores := Plot.cores_congr (Plot.bellPart_place hplot)
  have himage : ∀ c ∈ (s.plot fn).cores, (s2.core c).image = (s.core c).image.heal := by
    intro c hc
    have hread := State.readList_core (s := s1) (fn := fn) (s1.plot fn).cores c
    rw [if_pos (by rwa [hcores1])] at hread
    exact (CoreState.bellPart_image hread).trans (congrArg CoreWork.heal (CoreState.bellPart_image (hs1.core c)))
  have hchannels : s2.channels = s.channels := hs2.channels.trans hs1.channels
  have hs : s.restorePlot fn = ((s2.mapCores fn CoreState.restoreStep).mapChannels fn Channel.restoreStep).modPlot fn
      (fun p => { p with rounds := [], commons.requests := [], sbase := p.sbaseImage, faults.attemptReports := [] }) := rfl
  rw [hs]
  clear_value s2
  have hcore := s2.mapCores_core fn CoreState.restoreStep (by rw [hcores]; exact hnodup)
  obtain ⟨cs, hcs⟩ := s2.mapCores_frame fn CoreState.restoreStep
  rw [hcs] at hcore ⊢
  have hsame : ∀ ch, s2.channel ch = s.channel ch := fun ch => by unfold State.channel; rw [hchannels]
  refine ⟨⟨fun c hc => ?_, fun ch hown => ?_, ?_⟩, ?_, ?_⟩
  · have hrestored : ({ s2 with cores := cs } : State).core c = (s2.core c).restoreStep := (hcore c).trans (if_pos (by rwa [hcores]))
    have hwork : ({ s2 with cores := cs } : State).core c = _ := hrestored
    refine ⟨(congrArg CoreState.work hwork).trans (himage c hc), (congrArg CoreState.image hwork).trans (himage c hc), congrArg (fun k : CoreState => k.step.events) hwork⟩
  · rw [← hsame] at hown ⊢
    exact State.mapChannels_channel (s := { s2 with cores := cs }) Channel.restoreStep ch hown
  · rw [State.modPlot_eq, State.setPlot_plot_same]
    exact Plot.bellPart_bell hplot
  · rw [State.modPlot_eq, State.setPlot_plot_same]
    exact hplot
  · rw [State.modPlot_eq, State.setPlot_plot_same]

/-! ### What may stand before and after -/

theorem Undone.after (h : Clerical n s t) (k : Undone fn t u) : Undone fn s u := by
  have hcores : (t.plot fn).cores = (s.plot fn).cores := Plot.cores_congr (Plot.bellPart_place (h.plot fn))
  have hsame : ∀ ch, t.channel ch = s.channel ch := fun ch => by unfold State.channel; rw [h.channels]
  refine ⟨fun c hc => ?_, fun ch hown => ?_, k.bell.trans (Plot.bellPart_bell (h.plot fn))⟩
  · have hcore := k.core c (by rwa [hcores])
    rwa [CoreState.bellPart_image (h.core c)] at hcore
  · rw [k.channel ch (by rwa [hsame]), hsame]

theorem Undone.setPlot {v : Plot} (h : Undone fn s t) (hbell : v.bell.bell = (t.plot fn).bell.bell) : Undone fn s (t.setPlot fn v) :=
  ⟨h.core, h.channel, by rw [State.setPlot_plot_same, hbell, h.bell]⟩

/-- A stop after the restore leaves the attempt undone: a core that it rebuilds is rebuilt from the image it stands in. -/
theorem Undone.stopped (h : Undone fn s t) (k : Stopped fn code t u) : Undone fn s u := by
  refine ⟨fun c hc => ?_, fun ch hown => ?_, k.bell.trans h.bell⟩
  · obtain ⟨hwork, himage, hevents⟩ := h.core c hc
    have hcore := k.core c
    rw [CoreState.bellPart_work hcore, CoreState.bellPart_image hcore, CoreState.bellPart_step hcore]
    split
    · refine ⟨?_, ?_, hevents⟩ <;> exact (congrArg CoreWork.heal himage).trans (CoreWork.heal_heal _)
    · exact ⟨hwork, himage, hevents⟩
  · rw [← h.channel ch hown]
    unfold State.channel
    rw [k.channels]

/-! ### The two ends of an abandoned attempt -/

theorem BellState.countOverrun_bell (b : BellState) (rs : List Report) : (b.countOverrun rs).bell = b.bell := by
  unfold BellState.countOverrun
  split <;> rfl

theorem BellState.countOverrun_attempt (b : BellState) (rs : List Report) : (b.countOverrun rs).attempt = b.attempt := by
  unfold BellState.countOverrun
  split <;> rfl

theorem State.abandonRetry_undone (rs : List Report) (k : Nat) (hnodup : (s.plot fn).cores.Nodup) : Undone fn s (s.abandonRetry fn rs k) ∧
    ((s.abandonRetry fn rs k).plot fn).step.phase = .abandoned ∧ ((s.abandonRetry fn rs k).plot fn).bell.attempt = (s.plot fn).bell.attempt ∧
    ((s.abandonRetry fn rs k).plot fn).commons.requests = [] ∧ ((s.abandonRetry fn rs k).plot fn).group = (s.plot fn).group := by
  let s1 := (s.queueReports fn (flagReports (.retry k) rs)).modPlot fn (fun p => { p with run.events := p.run.events ++ s.attemptEvents fn })
  have hs1 : Clerical 0 s s1 := (s.queueReports_clerical fn _).andThen (.modPlot rfl)
  have hrestored : Restored fn s1 (s1.restorePlot fn) := State.restorePlot_restored (by rw [Plot.cores_congr (Plot.bellPart_place (hs1.plot fn))]; exact hnodup)
  unfold State.abandonRetry
  dsimp only
  change Undone fn s ((s1.restorePlot fn).modPlot fn _) ∧ _
  generalize s1.restorePlot fn = t at hrestored ⊢
  have hpart := hrestored.plot.trans (hs1.plot fn)
  have hgroup := Plot.bellPart_group hpart
  rw [State.modPlot_eq, State.setPlot_plot_same]
  exact ⟨(hrestored.toUndone.setPlot (BellState.countOverrun_bell _ _)).after hs1, rfl, (BellState.countOverrun_attempt _ _).trans (Plot.bellPart_attempt hpart), hrestored.requests, hgroup⟩

/-- The code with which an abandoned attempt stops: that of the report that stops it, or RETRY_LIMIT's. -/
theorem State.abandonStop_undone (rs : List Report) (k : Nat) (hnodup : (s.plot fn).cores.Nodup) (hlate : Claims.NoLatePackets (s.plot fn)) :
    Undone fn s (s.abandonStop fn rs k) ∧ ((s.abandonStop fn rs k).plot fn).place.state = 5 ∧ ((s.abandonStop fn rs k).plot fn).bell.attempt = satAdd (s.plot fn).bell.attempt 1 ∧
      ((s.abandonStop fn rs k).plot fn).group = (s.plot fn).group ∧
      (∀ r, rs[k]? = some r → r.cls = .program → ((s.abandonStop fn rs k).plot fn).faults.stopCode = r.code) := by
  unfold State.abandonStop
  extract_lets p r limit extra code s1 evs s2 evs2 s3 s4
  have hs1 : Clerical 0 s s1 := s.queueReports_clerical fn _
  have hrestored : Restored fn s1 s2 := State.restorePlot_restored (by rw [Plot.cores_congr (Plot.bellPart_place (hs1.plot fn))]; exact hnodup)
  have hpart := hrestored.plot.trans (hs1.plot fn)
  have hattempt := Plot.bellPart_attempt hpart
  have hgroup := Plot.bellPart_group hpart
  have hlate2 : Claims.NoLatePackets (s2.plot fn) := noLatePackets_congr hlate hpart
  have hcode : ∀ r', rs[k]? = some r' → r'.cls = .program → code = r'.code := by
    intro r' hr' hcls
    have hr : r = r' := by
      show rs.getD k _ = r'
      rw [List.getD_eq_getElem?_getD, hr']
      rfl
    have hlimit : limit = false := by
      show (decide (3 ≤ p.bell.attempt.toNat) && r.cls != .program && r.cls != .system) = false
      rw [hr, hcls, show (FaultClass.program != FaultClass.program) = false from rfl, Bool.and_false, Bool.false_and]
    show (if limit = true then 0x3009 else r.code) = r'.code
    rw [hlimit, hr]
    rfl
  clear_value code evs2 s2
  have hundone : Undone fn s s3 := (hrestored.toUndone.setPlot (BellState.countOverrun_bell _ _)).after hs1
  have hplot3 : (s3.plot fn) = { s2.plot fn with bell := { (s2.plot fn).bell.countOverrun rs with attempt := satAdd (s2.plot fn).bell.attempt 1 } } := State.setPlot_plot_same _ _ _
  clear_value s3
  have hs4 : Clerical 2 s3 s4 := by
    show Clerical 2 s3 (if _ then _ else _)
    split
    · exact s3.addBlock_clerical fn _ _ _
    · exact (Clerical.refl s3).mono (Nat.zero_le 2)
  have hlate3 : Claims.NoLatePackets (s3.plot fn) := by
    unfold Claims.NoLatePackets
    rw [hplot3]
    exact hlate2
  have hlate4 : Claims.NoLatePackets (s4.plot fn) := noLatePackets_congr hlate3 (hs4.plot fn)
  clear_value s4
  have hstop : Stopped fn code s3 (s4.stopNow fn code) := .after hs4 (State.stopNow_stopped s4 fn code hlate4)
  refine ⟨hundone.stopped hstop, hstop.state, ?_, ?_, fun r' hr' hcls => hstop.stopCode.trans (hcode r' hr' hcls)⟩
  · rw [hstop.attempt, hplot3]
    exact congrArg (satAdd · 1) hattempt
  · rw [hstop.group, hplot3]
    exact hgroup

/-! ### The verdict of an attempt -/

theorem State.judge_retry {k : Nat} (h : verdictOf (s.attemptReports fn) (s.plot fn).bell.attempt.toNat = .retry k) : s.judge fn = (s.abandonRetry fn (s.attemptReports fn) k).groupWord fn 4 := by
  unfold State.judge
  dsimp only
  rw [h]

theorem State.judge_stop {k : Nat} (h : verdictOf (s.attemptReports fn) (s.plot fn).bell.attempt.toNat = .stop k) : s.judge fn = (s.abandonStop fn (s.attemptReports fn) k).groupWord fn 5 := by
  unfold State.judge
  dsimp only
  rw [h]

theorem StepState.attempting_iff (p : StepState) : p.attempting = true ↔ p.phase = .running ∨ (p.phase = .arrived ∧ p.rung = false) := by
  unfold StepState.attempting
  rw [Bool.or_eq_true, Bool.and_eq_true, beq_iff_eq, beq_iff_eq, Bool.not_eq_true']

/-- A single class P report stops the plot. -/
theorem verdictOf_program {r : Report} (h : r.cls = .program) (attempt : Nat) : verdictOf [r] attempt = .stop 0 := by
  have hab : r.abandons = true := by
    unfold Report.abandons
    rw [h]
  have hsystem : placeOf (fun r => r.cls == .system && r.abandons) [r] = none := placeOf_eq_none fun x hx => by
    rw [List.mem_singleton.1 hx, h]
    rfl
  have hprogram : placeOf (fun r => r.cls == .program && r.abandons) [r] = some 0 :=
    placeOf_eq_some (x := r) rfl (by rw [h, hab]; rfl) fun i y hi => nomatch hi
  have hhardware : placeOf (fun r => r.cls == .hardware && r.abandons) [r] = none := placeOf_eq_none fun x hx => by
    rw [List.mem_singleton.1 hx, h]
    rfl
  unfold verdictOf
  dsimp only
  rw [hsystem, hprogram, hhardware]

theorem insertBy_length {α : Type} (le : α → α → Bool) (x : α) (l : List α) : (insertBy le x l).length = l.length + 1 := by
  induction l with
  | nil => rfl
  | cons y l ih =>
    unfold insertBy
    split
    · rw [List.length_cons, ih, List.length_cons]
    · rfl

theorem sortBy_length {α : Type} (le : α → α → Bool) (l : List α) : (sortBy le l).length = l.length := by
  have hfold : ∀ acc : List α, (l.foldl (fun acc x => insertBy le x acc) acc).length = acc.length + l.length := by
    induction l with
    | nil => exact fun _ => rfl
    | cons x l ih =>
      intro acc
      rw [List.foldl_cons, ih, insertBy_length, List.length_cons]
      omega
  exact (hfold []).trans (Nat.zero_add _)

theorem sortBy_eq_nil {α : Type} {le : α → α → Bool} {l : List α} : sortBy le l = [] ↔ l = [] := by
  rw [← List.length_eq_zero_iff, sortBy_length, List.length_eq_zero_iff]

theorem State.attemptReports_eq_nil : s.attemptReports fn = [] ↔ (∀ c ∈ (s.plot fn).cores, (s.core c).traffic.reports = []) ∧ (s.plot fn).faults.attemptReports = [] := by
  unfold State.attemptReports
  dsimp only
  rw [sortBy_eq_nil, List.append_eq_nil_iff, List.flatMap_eq_nil_iff]
  simp only [List.map_eq_nil_iff]

/-- The list that one element of a duplicate-free list gives alone. -/
theorem flatMap_only {α β : Type} [DecidableEq α] {l : List α} (hnodup : l.Nodup) {c : α} (hc : c ∈ l) (f : α → List β) (h : ∀ d ∈ l, d ≠ c → f d = []) : l.flatMap f = f c := by
  induction l with
  | nil => cases hc
  | cons d l ih =>
    obtain ⟨hd, hl⟩ := List.nodup_cons.1 hnodup
    rw [List.flatMap_cons]
    by_cases hdc : d = c
    · rw [hdc, List.flatMap_eq_nil_iff.2 fun e he => h e (List.mem_cons_of_mem _ he) fun hec => hd (by rw [hdc, ← hec]; exact he), List.append_nil]
    · rw [h d List.mem_cons_self hdc, List.nil_append]
      exact ih hl ((List.mem_cons.1 hc).resolve_left (Ne.symm hdc)) fun e he => h e (List.mem_cons_of_mem _ he)

/-- The first report of an attempt is its only one. -/
theorem State.attemptReports_first (h : s.attemptReports fn = []) (hnodup : (s.plot fn).cores.Nodup) {c : CoreId} (hc : c ∈ (s.plot fn).cores) (r : CoreReport) :
    (s.modCore c (fun k => k.report r)).attemptReports fn = [r.full (s.plot fn) fn c s.stamp] := by
  obtain ⟨hcores, hplot⟩ := State.attemptReports_eq_nil.1 h
  let t := s.modCore c (fun k => k.report r)
  have hother : ∀ d ∈ (s.plot fn).cores, d ≠ c → (t.core d).traffic.reports.map (fun r => r.full (s.plot fn) fn d s.stamp) = [] := by
    intro d hd hdc
    have hcore : t.core d = s.core d := (State.modCore_core s c d _).trans (if_neg hdc)
    rw [hcore, hcores d hd]
    rfl
  have hown : (t.core c).traffic.reports.map (fun r => r.full (s.plot fn) fn c s.stamp) = [r.full (s.plot fn) fn c s.stamp] := by
    have hcore : t.core c = (s.core c).report r := (State.modCore_core s c c _).trans (if_pos rfl)
    have hreports : (t.core c).traffic.reports = [r] := by
      rw [hcore]
      show (s.core c).traffic.reports ++ [r] = [r]
      rw [hcores c hc]
      rfl
    rw [hreports]
    rfl
  have hlist : (t.plot fn).cores.flatMap (fun c => (t.core c).traffic.reports.map (fun r => r.full (t.plot fn) fn c t.stamp)) ++ (t.plot fn).faults.attemptReports = [r.full (s.plot fn) fn c s.stamp] := by
    show (s.plot fn).cores.flatMap (fun c => (t.core c).traffic.reports.map (fun r => r.full (s.plot fn) fn c s.stamp)) ++ (s.plot fn).faults.attemptReports = _
    rw [flatMap_only hnodup hc _ hother, hown, hplot]
    rfl
  unfold State.attemptReports
  exact (congrArg (sortBy _) hlist).trans rfl

end Undoing

/-! ### The rows -/

section Rows

variable {s : State} {fn : Fn} {dh : Nat}

theorem execStepAbandon_judges (h : ((s.advance dh).plot fn).step.attempting = true) : exec (.stepAbandon fn dh) s = .next ((s.advance dh).judge fn) :=
  congrArg Host.Outcome.next (if_pos h)

/-- The state in which a retried attempt starts again, its repairs not yet made. -/
def State.retryBooks (s : State) (fn : Fn) : State :=
  let rs := s.attemptReports fn
  (s.queueReports fn (flagReports (.retry (if (s.plot fn).step.undecided then 0 else rs.length)) rs)).modPlot fn
    (fun p => { p with faults.attemptReports := [], run.events := p.run.events ++ s.attemptEvents fn, bell.attempt := satAdd p.bell.attempt 1, step.undecided := false })

/-- The books of a retry: the attempt number rises, cores and repairs that wait stand. -/
structure RetryBooks (fn : Fn) (u v : State) : Prop where
  attempt : (v.plot fn).bell.attempt = satAdd (u.plot fn).bell.attempt 1
  bell : (v.plot fn).bell.bell = (u.plot fn).bell.bell
  place : (v.plot fn).place = (u.plot fn).place
  core : ∀ d : CoreId, (v.core d).bellPart = (u.core d).bellPart
  waiting : v.waitingCores (some fn) = u.waitingCores (some fn)

theorem State.retryBooks_books : RetryBooks fn s (s.retryBooks fn) := by
  unfold State.retryBooks
  dsimp only
  have hqueue := s.queueReports_clerical fn (flagReports (.retry (if (s.plot fn).step.undecided then 0 else (s.attemptReports fn).length)) (s.attemptReports fn))
  generalize s.queueReports fn _ = v at hqueue ⊢
  have hpart := hqueue.plot fn
  have hattempt := Plot.bellPart_attempt hpart
  have hbell := Plot.bellPart_bell hpart
  have hplace := Plot.bellPart_place hpart
  refine ⟨?_, ?_, ?_, hqueue.core, (State.waitingCores_congr (s := v) rfl fun _ => rfl).trans hqueue.waitingCores⟩ <;> rw [State.modPlot_eq, State.setPlot_plot_same]
  · exact congrArg (satAdd · 1) hattempt
  · exact hbell
  · exact hplace

/-- The retried attempt runs from offset 0 once released, its moved cores rebuilt (R385, R389). -/
theorem RetryBooks.restarts {u v : State} (h : RetryBooks fn u v) (hnodup : (u.plot fn).cores.Nodup) :
    let t := (v.reeveChanges fn).openStep fn
    (t.plot fn).bell.attempt = satAdd (u.plot fn).bell.attempt 1 ∧ (t.plot fn).bell.bell = (u.plot fn).bell.bell ∧ (t.plot fn).step.phase = .running ∧ (t.plot fn).step.released = 0 ∧
      ∀ c ∈ (u.plot fn).cores, (t.core c).step.offset = 0 ∧
        ((∀ w ∈ u.waitingCores (some fn), fieldCore w.1 w.2.1 w.2.2 ≠ c) → (t.core c).work = (u.core c).work) ∧
        ((∃ w ∈ u.waitingCores (some fn), fieldCore w.1 w.2.1 w.2.2 = c) → (t.core c).work = (u.core c).image.heal) := by
  have haside := v.reeveChanges_aside fn
  have hcore := v.reeveChanges_core fn
  generalize v.reeveChanges fn = w at haside hcore ⊢
  have hcores : (w.plot fn).cores = (u.plot fn).cores := Plot.cores_congr ((Plot.bellPart_place (haside.plot fn)).trans h.place)
  obtain ⟨hrunning, hreleased, hoffset⟩ := State.openStep_opens (s := w) (fn := fn) (by rw [hcores]; exact hnodup)
  have hstands : BellStands fn w (w.openStep fn) := State.openStep_bellStands
  refine ⟨?_, ?_, hrunning, hreleased, fun c hc => ⟨hoffset c (by rwa [hcores]), fun hnot => ?_, fun hwait => ?_⟩⟩
  · exact hstands.attempt.trans ((Plot.bellPart_attempt (haside.plot fn)).trans h.attempt)
  · exact hstands.bell.trans ((Plot.bellPart_bell (haside.plot fn)).trans h.bell)
  · have hmoved := hcore c
    rw [h.waiting, if_neg (by rw [List.mem_map]; exact fun ⟨w, hw, hwc⟩ => hnot w hw hwc)] at hmoved
    exact (hstands.work c).trans ((CoreState.bellPart_work hmoved).trans (CoreState.bellPart_work (h.core c)))
  · have hmoved := hcore c
    have hmem : c ∈ (u.waitingCores (some fn)).map remapCore := List.mem_map.2 hwait
    rw [h.waiting, if_pos hmem] at hmoved
    exact (hstands.work c).trans ((CoreState.bellPart_work hmoved).trans (congrArg CoreWork.heal (CoreState.bellPart_image (h.core c))))

theorem execRetryRelease_opens (hphase : ((s.advance dh).plot fn).step.phase = .abandoned) (htest : (s.advance dh).testDue fn = false) (hcls : ∀ r ∈ (s.advance dh).attemptReports fn, r.cls ≠ .system) :
    exec (.retryRelease fn dh) s = .next (((((s.advance dh).retryBooks fn).reeveChanges fn)).openStep fn) := by
  have hnone : placeOf (fun r => r.cls == FaultClass.system) ((s.advance dh).attemptReports fn) = none := placeOf_eq_none fun r hr => beq_false_of_ne (hcls r hr)
  show execRetryRelease fn dh s = _
  unfold execRetryRelease
  generalize s.advance dh = u at hphase htest hnone ⊢
  extract_lets _ p rs evs s1 s2
  have hgo : (p.step.phase != .abandoned || u.testDue fn) = false := by
    rw [htest, show p.step.phase = .abandoned from hphase]
    rfl
  have hrs : placeOf (fun r => r.cls == FaultClass.system) rs = none := hnone
  rw [if_neg (ne_true_of_eq_false hgo), hrs]
  rfl

theorem execStepLimit_judges (hphase : (s.plot fn).step.phase = .running) (h : ∃ c ∈ (s.plot fn).cores, (s.core c).totals.arrived = false ∧ 0xFFFFFF ≤ (s.core c).step.offset) :
    ∃ c ∈ (s.plot fn).cores, ∃ r : CoreReport, r.code = 0x200B ∧ exec (.stepLimit fn) s = .next ((s.modCore c (fun k => k.report r)).judge fn) := by
  obtain ⟨c, hc, harrived, hoffset⟩ := h
  let late := (s.plot fn).cores.filter (fun c => !(s.core c).totals.arrived)
  have hsome : (late.find? (fun c => decide (0xFFFFFF ≤ (s.core c).step.offset))).isSome = true :=
    List.find?_isSome.2 ⟨c, List.mem_filter.2 ⟨hc, by rw [harrived]; rfl⟩, decide_eq_true hoffset⟩
  obtain ⟨d, hd⟩ := Option.isSome_iff_exists.1 hsome
  refine ⟨d, (List.mem_filter.1 (List.mem_of_find?_eq_some hd)).1,
    { code := 0x200B, fill := false, offset := 0xFFFFFF, site := BitVec.ofNat 10 (fieldOf (s.core d).step.main.header 0 10), slot := 7, d0 := BitVec.ofNat 64 late.length, d1 := 0, d2 := 0 }, rfl, ?_⟩
  have hrun : ((s.plot fn).step.phase != .running) = false := by rw [hphase]; rfl
  show execStepLimit fn s = _
  unfold execStepLimit
  dsimp only
  rw [if_neg (ne_true_of_eq_false hrun), show List.find? _ _ = some d from hd]
  rfl

end Rows

end Sys2Proof.Machine

namespace Sys2Proof.Claims

open Sys2Proof.Machine

/-- Settles O44: an abandoned attempt is restored before the plot waits or stops, and a stop rebuilds no core to anything but the image it is in. -/
theorem attemptsAreUndoneAndRetried : Obligations.AttemptsAreUndoneAndRetried := by
  unfold Obligations.AttemptsAreUndoneAndRetried
  refine ⟨?_, ?_, ?_⟩
  · intro s fn dh u p undone hjoined hnodup hphase
    have hundone : ∀ t, Undone fn u t → undone t := fun t h => ⟨h.core, h.channel, h.bell⟩
    have hexec := execStepAbandon_judges (s := s) (fn := fn) (dh := dh) ((StepState.attempting_iff _).2 hphase)
    refine ⟨fun k hverdict => ?_, fun k hverdict hlate => ?_⟩
    · obtain ⟨hrestored, hwaits, hattempt, hrequests, hgroup⟩ := State.abandonRetry_undone (s := u) (fn := fn) (u.attemptReports fn) k hnodup
      have hword : (u.abandonRetry fn (u.attemptReports fn) k).groupWord fn 4 = u.abandonRetry fn (u.attemptReports fn) k := State.groupWord_unjoined _ (by rw [hgroup]; exact hjoined)
      exact ⟨_, hexec.trans (congrArg Host.Outcome.next ((State.judge_retry hverdict).trans hword)), hundone _ hrestored, hwaits, hattempt, hrequests⟩
    · obtain ⟨hrestored, hstate, hattempt, hgroup, -⟩ := State.abandonStop_undone (s := u) (fn := fn) (u.attemptReports fn) k hnodup hlate
      have hword : (u.abandonStop fn (u.attemptReports fn) k).groupWord fn 5 = u.abandonStop fn (u.attemptReports fn) k := State.groupWord_unjoined _ (by rw [hgroup]; exact hjoined)
      exact ⟨_, hexec.trans (congrArg Host.Outcome.next ((State.judge_stop hverdict).trans hword)), hundone _ hrestored, hstate, hattempt⟩
  · intro s fn dh u p hphase htest hcls hnodup
    have hbooks : RetryBooks fn u (u.retryBooks fn) := State.retryBooks_books
    have hrestarts := hbooks.restarts hnodup
    have hexec : exec (.retryRelease fn dh) s = .next (((u.retryBooks fn).reeveChanges fn).openStep fn) := execRetryRelease_opens hphase htest hcls
    dsimp only at hrestarts
    generalize ((u.retryBooks fn).reeveChanges fn).openStep fn = t at hrestarts hexec
    exact ⟨t, hexec, hrestarts⟩
  · intro s fn hjoined hlate hnodup hphase hnone hlimit
    obtain ⟨c, hc, r, hcode, hexec⟩ := execStepLimit_judges hphase hlimit
    let u := s.modCore c (fun k => k.report r)
    have hreports : u.attemptReports fn = [r.full (s.plot fn) fn c s.stamp] := State.attemptReports_first hnone hnodup hc r
    have hcls : (r.full (s.plot fn) fn c s.stamp).cls = .program := by
      unfold Report.cls
      rw [show (r.full (s.plot fn) fn c s.stamp).code = 0x200B from hcode]
      rfl
    have hverdict : verdictOf (u.attemptReports fn) (u.plot fn).bell.attempt.toNat = .stop 0 := by
      rw [hreports]
      exact verdictOf_program hcls _
    obtain ⟨hundone, hstate, -, hgroup, hstop⟩ := State.abandonStop_undone (s := u) (fn := fn) (u.attemptReports fn) 0 hnodup hlate
    have hword : (u.abandonStop fn (u.attemptReports fn) 0).groupWord fn 5 = u.abandonStop fn (u.attemptReports fn) 0 := State.groupWord_unjoined _ (by rw [hgroup]; exact hjoined)
    refine ⟨_, hexec.trans (congrArg Host.Outcome.next ((State.judge_stop hverdict).trans hword)), hstate, ?_, hundone.bell, fun d hd => ?_⟩
    · exact (hstop (r.full (s.plot fn) fn c s.stamp) (by rw [hreports]; rfl) hcls).trans hcode
    · have himage : (u.core d).image = (s.core d).image := by
        rw [State.modCore_core]
        split
        · next h => rw [h]; rfl
        · rfl
      rw [← himage]
      exact (hundone.core d hd).1

end Sys2Proof.Claims
end

section
/-! Idle and empty bells (R50, R73, R426, R442, R443): O45. -/

namespace Sys2Proof.Machine

/-- Repairs of the reeve: of a plot they touch its run and fault books alone, of the hub die neither start-up nor packets that await an idle bell. -/
structure Mended (s t : State) : Prop where
  plot : ∀ fn : Fn, t.plot fn = { s.plot fn with run := (t.plot fn).run, faults := (t.plot fn).faults }
  boot : t.hub.boot = s.hub.boot
  idle : t.hub.idleStaged = s.hub.idleStaged

section Mending

variable {s t u : State} {fn : Fn}

theorem Mended.refl (s : State) : Mended s s := ⟨fun _ => rfl, rfl, rfl⟩

theorem Mended.trans (h : Mended s t) (k : Mended t u) : Mended s u := by
  refine ⟨fun fn => ?_, k.boot.trans h.boot, k.idle.trans h.idle⟩
  rw [k.plot fn, h.plot fn]

theorem Mended.foldl {α : Type} (f : State → α → State) (hf : ∀ s a, Mended s (f s a)) (l : List α) (s : State) : Mended s (l.foldl f s) := by
  induction l generalizing s with
  | nil => exact .refl s
  | cons a l ih => exact (hf s a).trans (ih _)

theorem Mended.setPlot {f : Fn} {v : Plot} (h : v = { s.plot f with run := v.run, faults := v.faults }) : Mended s (s.setPlot f v) := by
  refine ⟨fun fn => ?_, rfl, rfl⟩
  by_cases hfn : fn = f
  · rw [hfn, State.setPlot_plot_same]
    exact h
  · rw [State.setPlot_plot_ne _ _ hfn]

theorem Mended.modPlot {f : Fn} {g : Plot → Plot} (h : g (s.plot f) = { s.plot f with run := (g (s.plot f)).run, faults := (g (s.plot f)).faults }) : Mended s (s.modPlot f g) := .setPlot h

/-- Other plots' data and the hub die's books of start-up left alone. -/
theorem Mended.of_eq (hplots : t.plots = s.plots) (hboot : t.hub.boot = s.hub.boot) (hidle : t.hub.idleStaged = s.hub.idleStaged) : Mended s t := by
  refine ⟨fun fn => ?_, hboot, hidle⟩
  unfold State.plot
  rw [hplots]

theorem State.queueReport_mended (r : Report) : Mended s (s.queueReport fn r) := by
  unfold State.queueReport
  refine Mended.trans (t := s.modPlot fn (fun p => { p with faults := p.faults.enqueue { r with seq := s.hub.seq } })) (.setPlot rfl) ?_
  obtain ⟨x, l, h⟩ := s.hub.sumUp_eq r
  have hboot : (s.hub.sumUp r).boot = s.hub.boot := by rw [h]
  have hidle : (s.hub.sumUp r).idleStaged = s.hub.idleStaged := by rw [h]
  exact .of_eq rfl hboot hidle

theorem State.coreReport_mended (c : CoreId) (code : Code) (d0 d1 d2 : Word) : Mended s (s.coreReport fn c code d0 d1 d2) := by
  unfold State.coreReport
  extract_lets _ r
  clear_value r
  refine Mended.trans ?_ (State.queueReport_mended r)
  exact .modPlot rfl

theorem State.readImage_mended (c : CoreId) : Mended s (s.readImage fn c) := by
  unfold State.readImage
  split
  · exact .refl s
  · refine Mended.trans ?_ (State.coreReport_mended c _ _ _ _)
    exact .of_eq rfl rfl rfl

theorem State.moveCore_mended (own : Option Fn) (w : Nat × Nat × Nat) : Mended s (State.moveCore own s w) := by
  have hfield : Mended s (s.setField (BitVec.ofNat 3 w.1) { s.field (BitVec.ofNat 3 w.1) with
      rows := AMap.put {} (s.field (BitVec.ofNat 3 w.1)).rows w.2.1 { AMap.get {} (s.field (BitVec.ofNat 3 w.1)).rows w.2.1 with serving := AMap.erase (AMap.get {} (s.field (BitVec.ofNat 3 w.1)).rows w.2.1).serving w.2.2 } }) := .of_eq rfl rfl rfl
  cases own with
  | none => exact hfield
  | some fn => exact hfield.trans ((State.readImage_mended _).trans (.of_eq rfl rfl rfl))

theorem State.takeRemaps_mended (own : Option Fn) : Mended s (s.takeRemaps own) :=
  (Mended.foldl _ (fun _ w => State.moveCore_mended own w) (s.waitingCores own) s).trans (.of_eq rfl rfl rfl)

theorem State.takeCeilings_mended : Mended s (s.takeCeilings fn) :=
  .foldl _ (fun s f => by
    dsimp only
    split
    · exact .refl s
    · exact .of_eq rfl rfl rfl) _ s

theorem State.reeveChanges_mended : Mended s (s.reeveChanges fn) := (State.takeRemaps_mended _).trans State.takeCeilings_mended

theorem State.idleChanges_mended : Mended s s.idleChanges := (State.takeRemaps_mended none).trans (.foldl _ (fun _ _ => State.reeveChanges_mended) _ _)

/-- With no packet for it an idle bell only makes repairs. -/
theorem State.takeIdle_eq (h : s.hub.idleStaged = []) : s.takeIdle = s.idleChanges := by
  have hidle : s.idleChanges.hub.idleStaged = [] := State.idleChanges_mended.idle.trans h
  unfold State.takeIdle
  generalize s.idleChanges = v at hidle ⊢
  dsimp only
  rw [hidle]
  have hhub : ({ v.hub with idleStaged := v.hub.idleStaged.filter (fun st => !([] : List Staged).contains st) } : Hub) = v.hub := by
    rw [hidle]
    exact congrArg (fun l => { v.hub with idleStaged := l }) hidle.symm
  exact congrArg (fun h => { v with hub := h }) hhub

/-! ### With no repair waiting -/

theorem State.takeMaps_eq (own : Option Fn) (h : ∀ f ∈ s.fields, ∀ a ∈ f.2.arrays, a.2.next = none) : s.takeMaps own = s := by
  have hfields : (s.takeMaps own).fields = s.fields := by
    unfold State.takeMaps
    refine (List.map_congr_left (g := id) fun f hf => ?_).trans (List.map_id _)
    have harrays : f.2.arrays.map (fun a => (a.1, if a.2.next.isSome && (match s.servedBy f.1 a.1 with | some c => (s.core c).owner == own | none => own.isNone) then { a.2 with map := a.2.next.getD a.2.map, next := none } else a.2)) = f.2.arrays := by
      refine (List.map_congr_left (g := id) fun a ha => ?_).trans (List.map_id _)
      rw [h f hf a ha]
      rfl
    exact congrArg (fun l => (f.1, { f.2 with arrays := l })) harrays
  have hrest : s.takeMaps own = { s with fields := (s.takeMaps own).fields } := rfl
  rw [hrest, hfields]

theorem Edge.take_eq {g : Edge} (h : g.next = []) (f : Nat → Bool) : g.take f = g := by
  unfold Edge.take
  rw [h]
  show { g with serves := g.serves, next := [] } = g
  rw [← h]

theorem State.takeRemaps_eq (hfields : ∀ f ∈ s.fields, (∀ r ∈ f.2.rows, r.2.serving = []) ∧ ∀ a ∈ f.2.arrays, a.2.next = none) (hedges : ∀ e ∈ s.edges, e.2.next = []) : s.takeRemaps none = s := by
  have hwaiting : s.waitingCores none = [] := by
    unfold State.waitingCores
    refine List.flatMap_eq_nil_iff.2 fun f hf => List.flatMap_eq_nil_iff.2 fun r hr => ?_
    rw [(hfields f hf).1 r hr]
    rfl
  unfold State.takeRemaps
  rw [hwaiting]
  dsimp only [List.foldl_nil]
  rw [State.takeMaps_eq none fun f hf => (hfields f hf).2]
  have hmap : s.edges.map (fun e => (e.1, e.2.take (fun k => s.linkPlots e.1 k == []))) = s.edges := by
    refine (List.map_congr_left (g := id) fun e he => ?_).trans (List.map_id _)
    rw [Edge.take_eq (hedges e he)]
    rfl
  rw [hmap]

theorem State.idleChanges_eq (hplots : ∀ fn ∈ s.plotNumbers, (s.plot fn).place.state ≠ 5) (hfields : ∀ f ∈ s.fields, (∀ r ∈ f.2.rows, r.2.serving = []) ∧ ∀ a ∈ f.2.arrays, a.2.next = none)
    (hedges : ∀ e ∈ s.edges, e.2.next = []) : s.idleChanges = s := by
  have hnone : s.plotNumbers.filter (fun fn => (s.plot fn).place.state == 5) = [] := List.filter_eq_nil_iff.2 fun fn hfn => ne_true_of_eq_false (beq_false_of_ne (hplots fn hfn))
  unfold State.idleChanges
  rw [hnone, State.takeRemaps_eq hfields hedges]
  rfl

end Mending

/-! ### The bell of a plot in which no step runs -/

/-- What the end of an empty bell leaves of the plots: packets everywhere, and of the plot its place and clock; the bell number rises. -/
structure EmptyRung (fn : Fn) (s t : State) : Prop where
  packets : ∀ g : Fn, (t.plot g).packets = (s.plot g).packets
  place : (t.plot fn).place = (s.plot fn).place
  clock : (t.plot fn).clock = (s.plot fn).clock
  bell : (t.plot fn).bell.bell = (s.plot fn).bell.bell + 1

section EmptyBell

variable {s t u : State} {fn : Fn} {st : Staged}

/-- After the packets of a bell at which no step runs, with no load among them, the number moves on (R443). -/
theorem State.afterBell_empty (h : (s.plot fn).place.state = 1 ∨ (s.plot fn).place.state = 2) : EmptyRung fn s (s.afterBell fn (s.plot fn).place.loads) := by
  let w := (s.countBell fn).reeveChanges fn
  have hcount : Mended (s.countBell fn) w := State.reeveChanges_mended
  have hplot : ∀ g, ((s.countBell fn).plot g).packets = (s.plot g).packets ∧ ((s.countBell fn).plot g).place = (s.plot g).place ∧ ((s.countBell fn).plot g).clock = (s.plot g).clock ∧
      ((s.countBell fn).plot g).bell.bell = (s.plot g).bell.bell := by
    intro g
    unfold State.countBell
    dsimp only
    rw [State.modPlot_eq]
    by_cases hg : g = fn
    · rw [hg, State.setPlot_plot_same]
      exact ⟨rfl, rfl, rfl, rfl⟩
    · rw [State.setPlot_plot_ne _ _ hg]
      exact ⟨rfl, rfl, rfl, rfl⟩
  have hw : ∀ g, (w.plot g).packets = (s.plot g).packets ∧ (w.plot g).place = (s.plot g).place ∧ (w.plot g).clock = (s.plot g).clock ∧ (w.plot g).bell.bell = (s.plot g).bell.bell := by
    intro g
    rw [hcount.plot g]
    exact hplot g
  have hafter : s.afterBell fn (s.plot fn).place.loads = w.modPlot fn (fun p => { p with
      step := { p.step with phase := .idle, rung := false }
      bell.bell := if p.place.loads == (s.plot fn).place.loads then p.bell.bell + 1 else p.bell.bell }) := by
    have hnot : ((s.plot fn).place.state == 3) = false := by
      obtain h | h := h <;> rw [h] <;> rfl
    have hidle : ((s.plot fn).place.state == 1 || (s.plot fn).place.state == 2) = true := by
      obtain h | h := h <;> rw [h] <;> rfl
    exact (if_neg (ne_true_of_eq_false hnot)).trans (if_pos hidle)
  rw [hafter, State.modPlot_eq]
  clear_value w
  obtain ⟨-, hplace, hclock, hbell⟩ := hw fn
  refine ⟨fun g => ?_, ?_, ?_, ?_⟩
  · by_cases hg : g = fn
    · rw [hg, State.setPlot_plot_same]
      exact (hw fn).1
    · rw [State.setPlot_plot_ne _ _ hg]
      exact (hw g).1
  · rw [State.setPlot_plot_same]
    exact hplace
  · rw [State.setPlot_plot_same]
    exact hclock
  · rw [State.setPlot_plot_same]
    exact (if_pos (by rw [hplace]; exact beq_self_eq_true _)).trans (congrArg (· + 1) hbell)

/-- The state in which an empty bell takes its packets. -/
def State.emptyOpened (s : State) (fn : Fn) (due : List Staged) : State :=
  ((s.unstage fn due).modPlot fn (fun p => { p with bell := { p.bell.applyCtl with latch := none }, clock := p.clock.countBell })).setPass fn

/-- What an empty bell opens with: the due packets leave the staging area, place and number stand. -/
theorem State.emptyOpened_plot (due : List Staged) (g : Fn) :
    ((s.emptyOpened fn due).plot g).packets.completions = (s.plot g).packets.completions ∧ ((s.emptyOpened fn due).plot g).place = (s.plot g).place ∧
      ((s.emptyOpened fn due).plot g).bell.bell = (s.plot g).bell.bell ∧ (g = fn → ((s.emptyOpened fn due).plot g).packets.staged = (s.plot g).packets.staged.filter (fun st => !due.contains st)) := by
  unfold State.emptyOpened State.setPass State.unstage
  dsimp only
  rw [State.modPlot_eq, State.modPlot_eq]
  by_cases hg : g = fn
  · rw [hg, State.setPlot_plot_same, State.setPlot_plot_same, State.setPlot_plot_same]
    exact ⟨rfl, rfl, rfl, fun _ => rfl⟩
  · rw [State.setPlot_plot_ne _ _ hg, State.setPlot_plot_ne _ _ hg, State.setPlot_plot_ne _ _ hg]
    exact ⟨rfl, rfl, rfl, fun h => absurd h hg⟩

theorem State.emptyOpened_floor (due : List Staged) : (s.emptyOpened fn due).floorMw fn = s.floorMw fn := by
  obtain ⟨-, hplace, -⟩ := s.emptyOpened_plot (fn := fn) due fn
  have hchannels : (s.emptyOpened fn due).channels = s.channels := by
    unfold State.emptyOpened
    exact (State.setPass_clerical _ fn).channels
  unfold State.floorMw
  rw [Plot.cores_congr hplace, State.boundCount_congr hchannels]

/-- The one packet of a bell settles with its COMPLETION; the plot's run takes note. -/
theorem State.settleBell_one (b : BitVec 48) (g : Fn) : (State.settleBell [st] fn b (t, [(st, some 0)])).plot g =
    { (t.complete st b 0).plot g with run := ((State.settleBell [st] fn b (t, [(st, some 0)])).plot g).run } := by
  have hfind : [(st, some (0 : Code))].find? (fun o => o.1 == st) = some (st, some 0) := by rw [List.find?_cons, beq_self_eq_true]
  unfold State.settleBell
  dsimp only [List.foldl_cons, List.foldl_nil]
  rw [hfind]
  dsimp only
  rw [show t.settle st b (some 0) = t.complete st b 0 from rfl, State.modPlot_eq]
  generalize t.complete st b 0 = w
  by_cases hg : g = fn
  · rw [hg, State.setPlot_plot_same]
  · rw [State.setPlot_plot_ne _ _ hg]

/-- An empty bell with one packet of stage 3 that takes effect. -/
theorem State.emptyBell_one (hdue : s.duePackets fn (s.plot fn).bell.bell.toNat = [st]) (hlast : (s.plot fn).bell.bell ≠ 0xFFFFFFFFFFFF) (hstage : typeStage st.type = 3) (hfree : (isMgmt st.type || st.type == 1) = true)
    (hfetch : (st.type == 4) = false) (htake : (s.emptyOpened fn [st]).takeMgmt st = (t, some 0)) :
    ∃ v : State, (∀ g, v.plot g = { (t.complete st (s.plot fn).bell.bell 0).plot g with run := (v.plot g).run }) ∧ s.emptyBell fn = v.afterBell fn (s.plot fn).place.loads := by
  let b := (s.plot fn).bell.bell
  have hfetched : fetchStage [st] b (s.emptyOpened fn [st], []) = ((s.emptyOpened fn [st], []), []) := by
    unfold fetchStage
    rw [show [st].filter (fun st => st.type == 4) = [] by rw [List.filter_cons, if_neg (ne_true_of_eq_false hfetch), List.filter_nil]]
    rfl
  have hnone : ∀ (k : Nat) (act : State → Staged → State × Option Code) (r : BellRun), k ≠ 3 → stageRun [st] k act r = r := by
    intro k act r hk
    unfold stageRun
    rw [List.filter_cons, if_neg (by rw [hstage]; exact fun h => hk (beq_iff_eq.1 h).symm), List.filter_nil]
    rfl
  have hthird : stageRun [st] 3 State.takeMgmt (s.emptyOpened fn [st], []) = (t, [(st, some 0)]) := by
    unfold stageRun
    rw [List.filter_cons, if_pos (by rw [hstage]; rfl), List.filter_nil, List.foldl_cons, List.foldl_nil]
    unfold takeOne
    simp only [hfree, if_true, htake, List.nil_append]
  have hlater : laterStages [st] (s.emptyOpened fn [st], []) = (t, [(st, some 0)]) := by
    unfold laterStages
    dsimp only
    rw [hthird, hnone 4 _ _ (by decide), hnone 5 _ _ (by decide), hnone 6 _ _ (by decide), hnone 7 _ _ (by decide)]
  have hopens : (b == lastBellNumber) = false := beq_false_of_ne hlast
  refine ⟨State.settleBell [st] fn b (t, [(st, some 0)]), State.settleBell_one b, ?_⟩
  unfold State.emptyBell
  extract_lets p b' due s1 f r s2 rest r2
  have hdue' : due = [st] := hdue
  clear_value due
  subst hdue'
  have hr : r = (s.emptyOpened fn [st], []) := (hnone 2 _ _ (by decide)).trans (congrArg Prod.fst hfetched)
  have hr2 : r2 = (t, [(st, some 0)]) := (congrArg (laterStages [st]) hr).trans hlater
  exact (if_neg (ne_true_of_eq_false hopens)).trans (by rw [hr2])

/-- The COMPLETION of a packet changes the queue of completions of its function alone. -/
theorem State.complete_plot (b : BitVec 48) (g : Fn) : ((t.complete st b 0).plot g).place = (t.plot g).place ∧ ((t.complete st b 0).plot g).clock = (t.plot g).clock ∧
    ((t.complete st b 0).plot g).bell = (t.plot g).bell ∧ ((t.complete st b 0).plot g).packets.staged = (t.plot g).packets.staged := by
  unfold State.complete
  split
  · exact ⟨rfl, rfl, rfl, rfl⟩
  · rw [State.modPlot_eq]
    by_cases hg : g = st.p.fn
    · rw [hg, State.setPlot_plot_same]
      exact ⟨rfl, rfl, rfl, rfl⟩
    · rw [State.setPlot_plot_ne _ _ hg]
      exact ⟨rfl, rfl, rfl, rfl⟩

theorem completionParam_code (type : BitVec 8) (unit : BitVec 32) : (BitVec.ofNat 64 ((0 : Code).toNat + 2 ^ 16 * type.toNat + 2 ^ 32 * unit.toNat)).extractLsb' 0 16 = 0 := by
  refine BitVec.eq_of_toNat_eq ?_
  have h : (0 : Code).toNat = 0 := rfl
  simp only [BitVec.extractLsb'_toNat, BitVec.toNat_ofNat, Nat.shiftRight_zero, h]
  omega

/-- A packet that took effect is completed unless it is QUIET (R417, R431). -/
theorem State.complete_completions (b : BitVec 48) :
    (st.p.flags.getLsbD 2 = true → ((t.complete st b 0).plot st.p.fn).packets.completions = (t.plot st.p.fn).packets.completions) ∧
    (st.p.flags.getLsbD 2 = false → ∃ d : DevPacket, ((t.complete st b 0).plot st.p.fn).packets.completions = (t.plot st.p.fn).packets.completions ++ [d] ∧ d.type = 0x81 ∧ d.tag = st.p.tag ∧ d.bell = b ∧
      d.param.extractLsb' 0 16 = 0) := by
  unfold State.complete
  refine ⟨fun hquiet => ?_, fun hquiet => ?_⟩
  · rw [if_pos (by rw [hquiet]; rfl)]
  · rw [if_neg (by rw [hquiet]; decide), State.modPlot_eq, State.setPlot_plot_same]
    exact ⟨_, rfl, rfl, rfl, rfl, completionParam_code _ _⟩

/-- A plot's budget is set with its place and number left alone. -/
theorem State.setBudget_plot (b : BitVec 16) : ((s.setBudget fn b).plot fn).clock.budget = b ∧ ((s.setBudget fn b).plot fn).place = (s.plot fn).place := by
  unfold State.setBudget State.setPass
  dsimp only
  split
  · rw [State.modPlot_eq, State.setPlot_plot_same, State.setPlot_plot_same]
    exact ⟨rfl, rfl⟩
  · rw [State.modPlot_eq, State.setPlot_plot_same, State.modPlot_eq, State.setPlot_plot_same, State.setPlot_plot_same]
    exact ⟨rfl, rfl⟩

theorem State.mayEmptyRing_state (h : s.mayEmptyRing fn = true) : (s.plot fn).place.state = 1 ∨ (s.plot fn).place.state = 2 := by
  unfold State.mayEmptyRing at h
  simp only [Bool.and_eq_true, Bool.or_eq_true, beq_iff_eq] at h
  exact h.1.1.1.2

/-- The plots once an empty bell with one packet of stage 3 has rung. -/
structure PacketRung (fn : Fn) (st : Staged) (s t u : State) : Prop where
  bell : (u.plot fn).bell.bell = (t.plot fn).bell.bell + 1
  place : (u.plot fn).place = (t.plot fn).place
  clock : (u.plot fn).clock = (t.plot fn).clock
  staged : (u.plot fn).packets.staged = (t.plot fn).packets.staged
  completions : (u.plot st.p.fn).packets.completions = ((t.complete st (s.plot fn).bell.bell 0).plot st.p.fn).packets.completions

theorem State.emptyBell_rung (hdue : s.duePackets fn (s.plot fn).bell.bell.toNat = [st]) (hlast : (s.plot fn).bell.bell ≠ 0xFFFFFFFFFFFF) (hstage : typeStage st.type = 3) (hfree : (isMgmt st.type || st.type == 1) = true)
    (hfetch : (st.type == 4) = false) (htake : (s.emptyOpened fn [st]).takeMgmt st = (t, some 0)) (hstate : (s.plot fn).place.state = 1 ∨ (s.plot fn).place.state = 2) (hplace : (t.plot fn).place = (s.plot fn).place) :
    PacketRung fn st s t (s.emptyBell fn) := by
  obtain ⟨v, hv, hbell⟩ := State.emptyBell_one hdue hlast hstage hfree hfetch htake
  obtain ⟨cplace, cclock, cbell, cstaged⟩ := t.complete_plot (st := st) (s.plot fn).bell.bell fn
  have hvplace : (v.plot fn).place = (t.plot fn).place := by rw [hv fn]; exact cplace
  have hafter : EmptyRung fn v (v.afterBell fn (v.plot fn).place.loads) := State.afterBell_empty (by rw [hvplace, hplace]; exact hstate)
  rw [hvplace, hplace] at hafter
  rw [hbell]
  refine ⟨?_, hafter.place.trans hvplace, hafter.clock.trans ?_, ?_, ?_⟩
  · rw [hafter.bell, hv fn]
    exact congrArg (fun b : BellState => b.bell + 1) cbell
  · rw [hv fn]
    exact cclock
  · rw [hafter.packets, hv fn]
    exact cstaged
  · rw [hafter.packets, hv st.p.fn]

theorem State.takeMgmt_nop (h : st.type = 1) : s.takeMgmt st = (s, some 0) := by
  unfold State.takeMgmt State.check7 State.mgmtRefusal isModuleType typeAllowed
  rw [h]
  rfl

theorem State.takeMgmt_budget (h : st.type = 0x26) (hallowed : typeAllowed 0x26 (s.plot st.p.plot).stateNow = true) (hfloor : s.floorMw st.p.plot ≤ 100 * (st.p.param.extractLsb' 0 16).toNat) :
    s.takeMgmt st = (s.setBudget st.p.plot (st.p.param.extractLsb' 0 16), some 0) := by
  have hfield : fieldOf st.p.param 0 16 = (st.p.param.extractLsb' 0 16).toNat := by
    rw [fieldOf, BitVec.extractLsb'_toNat, Nat.shiftRight_zero]
  have hcheck : s.check7 st.type st.p = none := by
    rw [h]
    exact if_neg (show ¬ 100 * fieldOf st.p.param 0 16 < s.floorMw st.p.plot by rw [hfield]; exact Nat.not_lt.2 hfloor)
  unfold State.takeMgmt
  dsimp only
  rw [hcheck, h, hallowed]
  rfl

end EmptyBell

section IdleRow

variable {s : State} {dh : Nat}

theorem execIdleBell_rings (hzero : (s.advance dh).hub.boot.bellZero = true) (hgrid : (s.advance dh).hub.boot.zeroAt + 2000 * ((s.advance dh).hub.idleBell.toNat + 1) ≤ (s.advance dh).hub.time)
    (hidle : (s.advance dh).hub.idleStaged = []) (hreload : (s.advance dh).hub.boot.reload = false) :
    exec (.idleBell dh) s = .next ((s.advance dh).modHub (fun h => { h with idleBell := h.idleBell + 1 })).idleChanges := by
  show execIdleBell dh s = _
  unfold execIdleBell
  generalize s.advance dh = u at hzero hgrid hidle hreload ⊢
  have hmade : Mended (u.modHub (fun h => { h with idleBell := h.idleBell + 1 })) (u.modHub (fun h => { h with idleBell := h.idleBell + 1 })).idleChanges := State.idleChanges_mended
  have htake : (u.modHub (fun h => { h with idleBell := h.idleBell + 1 })).takeIdle = (u.modHub (fun h => { h with idleBell := h.idleBell + 1 })).idleChanges := State.takeIdle_eq hidle
  have hnot : (!u.hub.boot.bellZero || decide (u.hub.time < u.hub.boot.zeroAt + 2000 * (u.hub.idleBell.toNat + 1))) = false := by
    rw [hzero, decide_eq_false (Nat.not_lt.2 hgrid)]
    rfl
  dsimp only
  rw [if_neg (ne_true_of_eq_false hnot), htake]
  have hboot := hmade.boot
  generalize (u.modHub (fun h => { h with idleBell := h.idleBell + 1 })).idleChanges = v at hboot ⊢
  have hnoreload : v.hub.boot.reload = false := (congrArg Boot.reload hboot).trans hreload
  rw [hnoreload]
  rfl

end IdleRow

end Sys2Proof.Machine

namespace Sys2Proof.Claims

open Sys2Proof.Machine

/-- Settles O45: repairs touch neither staging nor start-up, and a packet of stage 3 is all that its empty bell takes. -/
theorem emptyAndIdleBellsTakePackets : Obligations.EmptyAndIdleBellsTakePackets := by
  unfold Obligations.EmptyAndIdleBellsTakePackets
  refine ⟨?_, ?_⟩
  · intro s dh u hzero hgrid hidle hreload v
    have hexec : exec (.idleBell dh) s = .next v.idleChanges := execIdleBell_rings hzero hgrid hidle hreload
    refine ⟨hexec, fun hplots hfields hedges => hexec.trans (congrArg Host.Outcome.next ?_)⟩
    exact State.idleChanges_eq hplots hfields hedges
  · intro s fn dh u p due hmay hjoined hlast
    have hexec : exec (.emptyBell fn dh) s = .next (if due == [] then u else u.emptyBell fn) :=
      (if_neg (by rw [hmay]; decide)).trans (if_neg (ne_true_of_eq_false hjoined))
    have hrings : ∀ st, due = [st] → exec (.emptyBell fn dh) s = .next (u.emptyBell fn) := fun st hdue => hexec.trans (congrArg Host.Outcome.next (if_neg (by rw [hdue]; exact Bool.false_ne_true)))
    have hstate : p.place.state = 1 ∨ p.place.state = 2 := State.mayEmptyRing_state hmay
    refine ⟨fun hdue => hexec.trans (congrArg Host.Outcome.next (if_pos (by rw [hdue]; rfl))), fun st hdue htype hplot => ?_, fun st hdue htype hplot hfloor => ?_⟩
    · have hopened := u.emptyOpened_plot (fn := fn) [st]
      obtain ⟨-, hplace, hbell, hstaged⟩ := hopened fn
      have hrung := State.emptyBell_rung (s := u) (fn := fn) (st := st) hdue hlast (by rw [htype]; rfl) (by rw [htype]; rfl) (by rw [htype]; rfl) (State.takeMgmt_nop htype) hstate hplace
      have hcomplete := (u.emptyOpened fn [st]).complete_completions (st := st) p.bell.bell
      rw [← hrung.completions, (hopened st.p.fn).1] at hcomplete
      refine ⟨_, hrings st hdue, by rw [hrung.bell, hbell], hrung.place.trans hplace, ?_, hcomplete⟩
      rw [hrung.staged, hstaged rfl]
      intro hmem
      have hnot := (List.mem_filter.1 hmem).2
      rw [List.contains_cons, beq_self_eq_true] at hnot
      cases hnot
    · have hopened := u.emptyOpened_plot (fn := fn) [st]
      obtain ⟨-, hplace, hbell, -⟩ := hopened fn
      have hallowed : typeAllowed 0x26 ((u.emptyOpened fn [st]).plot fn).stateNow = true := by
        unfold Plot.stateNow
        rw [hplace]
        obtain h | h := hstate <;> rw [show (u.plot fn).place.state = _ from h] <;> rfl
      have htake := State.takeMgmt_budget (s := u.emptyOpened fn [st]) htype (by rw [hplot]; exact hallowed) (by rw [hplot, State.emptyOpened_floor]; exact hfloor)
      rw [hplot] at htake
      obtain ⟨hbudget, hset⟩ := State.setBudget_plot (s := u.emptyOpened fn [st]) (fn := fn) (st.p.param.extractLsb' 0 16)
      have hrung := State.emptyBell_rung (s := u) (fn := fn) (st := st) hdue hlast (by rw [htype]; rfl) (by rw [htype]; rfl) (by rw [htype]; rfl) htake hstate (hset.trans hplace)
      refine ⟨_, hrings st hdue, ?_, hrung.place.trans (hset.trans hplace)⟩
      rw [hrung.clock]
      exact hbudget

end Sys2Proof.Claims
end

section
/-! Droop of the field oscillators and the ceilings of the fields (R42, R65, R67, R69, R539): O46. -/

namespace Sys2Proof.Machine

section Ceilings

variable {s t : State} {fn : Fn} {f g : FieldId}

theorem AMap.get_of_find {α : Type} (d : α) {m : AMap α} {k : Nat} {v : α} (h : AMap.find m k = some v) : AMap.get d m k = v := by
  induction m with
  | nil => cases h
  | cons e m ih =>
    by_cases hk : e.1 = k
    · have hv : some e.2 = some v := (if_pos hk).symm.trans h
      exact (if_pos hk).trans (Option.some.inj hv)
    · exact (if_neg hk).trans (ih ((if_neg hk).symm.trans h))

/-- A field's ceiling once its limits have changed (R42, R539). -/
def State.ceilingNow (s : State) (f : FieldId) : Nat := min (s.field f).ceiling.toNat (if s.stepsIn f then (s.field f).urgent else (s.field f).limit)

theorem State.setCeiling_field : (s.setCeiling f).field f = { s.field f with ceiling := BitVec.ofNat 11 (s.ceilingNow f) } := State.setField_field_same _ _ _

theorem State.ceilingNow_lt : s.ceilingNow f < 2 ^ 11 := lt_of_le_of_lt (Nat.min_le_left _ _) (s.field f).ceiling.isLt

theorem State.setCeiling_ceiling : ((s.setCeiling f).field f).ceiling.toNat = s.ceilingNow f := by
  rw [State.setCeiling_field, BitVec.toNat_ofNat, Nat.mod_eq_of_lt State.ceilingNow_lt]

theorem ofNat_toNat_of_le {n b : Nat} (hb : b < 2048) (h : n ≤ b) : (BitVec.ofNat 11 n).toNat = n := by
  rw [BitVec.toNat_ofNat, Nat.mod_eq_of_lt (by omega)]

/-! ### Reports of a droop -/

/-- A plot's attempt has a DROOP_FLOOR report and the run its event (R69, R361). -/
structure DroopTold (field : FieldId) (b : BitVec 48) (p : Plot) : Prop where
  report : ∃ r ∈ p.faults.attemptReports, r.code = 0x4004 ∧ r.bell = b
  event : ∃ e ∈ p.run.events, e.code = 0x4004 ∧ e.d0 = BitVec.ofNat 64 (2 ^ field.toNat)

/-- The DROOP_FLOOR report and event of a plot's attempt. -/
def State.tellDroop (field : FieldId) (s : State) (fn : Fn) : State :=
  s.modPlot fn (fun p =>
    let at_ : BitVec 32 := BitVec.ofNat 32 (s.fieldOffset fn field)
    { p with
      faults.attemptReports := p.faults.attemptReports ++ [{ code := 0x4004, attempt := p.bell.attempt, bell := p.bell.bell, offset := at_, function := fn, hostTag := p.run.hostTag, time := s.stamp }]
      run.events := p.run.events ++ [{ code := 0x4004, bell := p.bell.bell, attempt := p.bell.attempt, kind := 0, site := 0, offset := at_, d0 := BitVec.ofNat 64 (2 ^ field.toNat), d1 := 0 }] })

theorem State.tellDroop_told (field : FieldId) : DroopTold field (s.plot fn).bell.bell ((s.tellDroop field fn).plot fn) := by
  unfold State.tellDroop
  rw [State.modPlot_eq, State.setPlot_plot_same]
  exact ⟨⟨_, List.mem_append_right _ List.mem_cons_self, rfl, rfl⟩, ⟨_, List.mem_append_right _ List.mem_cons_self, rfl, rfl⟩⟩

theorem State.tellDroop_keeps (field : FieldId) (h : Fn) : ((s.tellDroop field h).plot fn).bell = (s.plot fn).bell ∧ (∀ b, DroopTold field b (s.plot fn) → DroopTold field b ((s.tellDroop field h).plot fn)) := by
  unfold State.tellDroop
  rw [State.modPlot_eq]
  by_cases hfn : fn = h
  · rw [hfn, State.setPlot_plot_same]
    refine ⟨rfl, fun b told => ?_⟩
    obtain ⟨⟨r, hr, hrb⟩, ⟨e, he, hed⟩⟩ := told
    exact ⟨⟨r, List.mem_append_left _ hr, hrb⟩, ⟨e, List.mem_append_left _ he, hed⟩⟩
  · rw [State.setPlot_plot_ne _ _ hfn]
    exact ⟨rfl, fun _ told => told⟩

/-- Of all plots told, each has its report and event. -/
theorem State.tellDroops_told (field : FieldId) (l : List Fn) : ((l.foldl (State.tellDroop field) s).plot fn).bell = (s.plot fn).bell ∧
    ∀ b, b = (s.plot fn).bell.bell → (fn ∈ l ∨ DroopTold field b (s.plot fn)) → DroopTold field b ((l.foldl (State.tellDroop field) s).plot fn) := by
  induction l generalizing s with
  | nil => exact ⟨rfl, fun b _ h => h.resolve_left (List.not_mem_nil)⟩
  | cons h l ih =>
    obtain ⟨hbell, hkeep⟩ := s.tellDroop_keeps (fn := fn) field h
    obtain ⟨ibell, itold⟩ := ih (s := s.tellDroop field h)
    refine ⟨ibell.trans hbell, fun b hb hor => itold b (by rw [hb, hbell]) ?_⟩
    obtain hmem | htold := hor
    · obtain rfl | hmem := List.mem_cons.1 hmem
      · exact .inr (hb ▸ s.tellDroop_told field)
      · exact .inl hmem
    · exact .inr (hkeep b htold)

theorem State.tellDroops_field (field : FieldId) (l : List Fn) : (l.foldl (State.tellDroop field) s).fields = s.fields := by
  induction l generalizing s with
  | nil => rfl
  | cons h l ih => exact ih

/-- A tripped field at its floor: the droop limit below its ceiling, and the ceiling that follows (R69). -/
def State.floorField (s : State) (f : FieldId) : State :=
  (s.setField f { s.field f with floors := satAdd (s.field f).floors 1, droopCeil := BitVec.ofNat 11 (max 1100 ((s.field f).ceiling.toNat - 100)), restoreBells := s.hub.idleBell.toNat + 1024 }).setCeiling f

theorem State.stepsIn_congr (h : t.plots = s.plots) : t.stepsIn f = s.stepsIn f := by
  unfold State.stepsIn State.plotsIn State.plotNumbers State.plot
  rw [h]

theorem State.floorField_field :
    ((s.floorField f).field f).floors = satAdd (s.field f).floors 1 ∧ ((s.floorField f).field f).droopCeil.toNat = max 1100 ((s.field f).ceiling.toNat - 100) ∧
      ((s.floorField f).field f).restoreBells = s.hub.idleBell.toNat + 1024 ∧
      ((s.floorField f).field f).ceiling.toNat = min (s.field f).ceiling.toNat (if s.stepsIn f then ((s.floorField f).field f).urgent else ((s.floorField f).field f).limit) := by
  have hcut : (BitVec.ofNat 11 (max 1100 ((s.field f).ceiling.toNat - 100))).toNat = max 1100 ((s.field f).ceiling.toNat - 100) :=
    ofNat_toNat_of_le (b := 2047) (by omega) (by have := (s.field f).ceiling.isLt; omega)
  let k : Field := { s.field f with floors := satAdd (s.field f).floors 1, droopCeil := BitVec.ofNat 11 (max 1100 ((s.field f).ceiling.toNat - 100)), restoreBells := s.hub.idleBell.toNat + 1024 }
  have hk : (s.setField f k).field f = k := State.setField_field_same _ _ _
  have hfield : (s.floorField f).field f = { k with ceiling := BitVec.ofNat 11 ((s.setField f k).ceilingNow f) } := State.setCeiling_field.trans (by rw [hk])
  have hceiling : ((s.floorField f).field f).ceiling.toNat = (s.setField f k).ceilingNow f := State.setCeiling_ceiling
  have hsteps : (s.setField f k).stepsIn f = s.stepsIn f := State.stepsIn_congr rfl
  refine ⟨?_, ?_, ?_, ?_⟩
  · rw [hfield]
  · rw [hfield]
    exact hcut
  · rw [hfield]
  · rw [hceiling, hfield]
    unfold State.ceilingNow
    rw [hk, hsteps]
    rfl

theorem execDroopFloor_trips (h : (s.field f).tripped = true) :
    exec (.droopFloor f) s = if (s.plotsIn f).filter (fun fn => (s.plot fn).step.attempting) = [] then .next ((s.floorField f).logReport 0x4004 0 0 0)
      else .next (((s.plotsIn f).filter (fun fn => (s.plot fn).step.attempting)).foldl (State.tellDroop f) (s.floorField f)) := by
  have hexec : exec (.droopFloor f) s = if (s.plotsIn f).filter (fun fn => (s.plot fn).step.attempting) == [] then .next ((s.floorField f).logReport 0x4004 0 0 0)
      else .next (((s.plotsIn f).filter (fun fn => (s.plot fn).step.attempting)).foldl (State.tellDroop f) (s.floorField f)) := if_neg (by rw [h]; decide)
  rw [hexec]
  exact if_congr beq_iff_eq rfl rfl

/-! ### Settled rises -/

/-- One field at VSET_SETTLED. -/
def State.riseField (s : State) (f : FieldId) : State := if (AMap.find s.hub.power.settledRise f.toNat).isNone || s.stepsIn f then s else s.takeCeiling f

/-- A field with its ceiling risen to a settled one, its lowest limit at most (R42). -/
def Field.risen (k : Field) (v : BitVec 11) : Field := { k with ceiling := BitVec.ofNat 11 (min (max k.ceiling.toNat v.toNat) k.limit) }

/-- A field's data and the rise that waits for it are as they were. -/
def State.SameRise (f : FieldId) (s t : State) : Prop := t.field f = s.field f ∧ AMap.find t.hub.power.settledRise f.toNat = AMap.find s.hub.power.settledRise f.toNat

theorem State.riseField_ne (h : f ≠ g) : State.SameRise f s (s.riseField g) := by
  unfold State.riseField
  split
  · exact ⟨rfl, rfl⟩
  · exact ⟨State.setField_field_ne _ _ h, AMap.find_erase_ne _ fun hn => h (BitVec.eq_of_toNat_eq hn)⟩

theorem State.riseField_stays (h : AMap.find s.hub.power.settledRise f.toNat = none ∨ s.stepsIn f = true) : s.riseField f = s := by
  refine if_pos ?_
  obtain h | h := h
  · rw [h]
    rfl
  · rw [h, Bool.or_true]

theorem State.riseField_rises {v : BitVec 11} (h : AMap.find s.hub.power.settledRise f.toNat = some v) (hsteps : s.stepsIn f = false) : (s.riseField f).field f = (s.field f).risen v := by
  have hrise : s.riseField f = s.takeCeiling f := if_neg (by rw [h, hsteps]; exact Bool.false_ne_true)
  rw [hrise]
  refine (State.setField_field_same _ _ _).trans ?_
  rw [AMap.get_of_find 0 h]
  rfl

theorem State.riseField_books : (s.riseField g).plots = s.plots ∧ (s.riseField g).hub.power.pendingRise = s.hub.power.pendingRise := by
  unfold State.riseField
  split <;> exact ⟨rfl, rfl⟩

theorem State.riseFields_books (l : List FieldId) : (l.foldl State.riseField s).plots = s.plots ∧ (l.foldl State.riseField s).hub.power.pendingRise = s.hub.power.pendingRise := by
  induction l generalizing s with
  | nil => exact ⟨rfl, rfl⟩
  | cons g l ih =>
    obtain ⟨hplots, hpending⟩ := State.riseField_books (s := s) (g := g)
    exact ⟨ih.1.trans hplots, ih.2.trans hpending⟩

/-- A field that has no rise to take stays as it is. -/
theorem State.riseFields_stay (l : List FieldId) (h : f ∉ l ∨ AMap.find s.hub.power.settledRise f.toNat = none ∨ s.stepsIn f = true) : State.SameRise f s (l.foldl State.riseField s) := by
  induction l generalizing s with
  | nil => exact ⟨rfl, rfl⟩
  | cons g l ih =>
    rw [List.foldl_cons]
    have hsteps : (s.riseField g).stepsIn f = s.stepsIn f := State.stepsIn_congr State.riseField_books.1
    have hone : State.SameRise f s (s.riseField g) := by
      by_cases hfg : f = g
      · rw [← hfg, State.riseField_stays (h.resolve_left fun hn => hn (by rw [hfg]; exact List.mem_cons_self))]
        exact ⟨rfl, rfl⟩
      · exact State.riseField_ne hfg
    obtain ⟨hfield, hrise⟩ := hone
    obtain ⟨ifield, irise⟩ := ih (s := s.riseField g) (by rw [hrise, hsteps]; exact h.imp_left fun hn hm => hn (List.mem_cons_of_mem _ hm))
    exact ⟨ifield.trans hfield, irise.trans hrise⟩

/-- A field with a settled rise and no plot inside a step takes it, once. -/
theorem State.riseFields_rise {v : BitVec 11} (l : List FieldId) (hnodup : l.Nodup) (hmem : f ∈ l) (h : AMap.find s.hub.power.settledRise f.toNat = some v) (hsteps : s.stepsIn f = false) :
    (l.foldl State.riseField s).field f = (s.field f).risen v := by
  induction l generalizing s with
  | nil => cases hmem
  | cons g l ih =>
    obtain ⟨hg, hl⟩ := List.nodup_cons.1 hnodup
    rw [List.foldl_cons]
    by_cases hfg : f = g
    · obtain ⟨hfield, -⟩ := State.riseFields_stay (s := s.riseField g) l (.inl (hfg ▸ hg))
      rw [hfield, ← hfg]
      exact State.riseField_rises h hsteps
    · obtain ⟨hfield, hrise⟩ := State.riseField_ne (s := s) hfg
      rw [ih hl ((List.mem_cons.1 hmem).resolve_left hfg) (hrise.trans h) ((State.stepsIn_congr State.riseField_books.1).trans hsteps), hfield]

theorem mem_allFields (f : FieldId) : f ∈ allFields := by
  refine List.mem_map.2 ⟨f.toNat, List.mem_range.2 f.isLt, ?_⟩
  rw [BitVec.ofNat_toNat, BitVec.setWidth_eq]

theorem allFields_nodup : allFields.Nodup := by decide

theorem AMap.find_eq_none {α : Type} {m : AMap α} {k : Nat} (h : ∀ e ∈ m, e.1 ≠ k) : AMap.find m k = none := by
  induction m with
  | nil => rfl
  | cons e m ih => exact (if_neg (h e List.mem_cons_self)).trans (ih fun x hx => h x (List.mem_cons_of_mem _ hx))

/-- Rises that VSET has reached join those that wait for a bell. -/
theorem AMap.find_foldl_set {α : Type} (l m : AMap α) (k : Nat) (hnodup : (l.map (·.1)).Nodup) :
    AMap.find (l.foldl (fun m r => AMap.set m r.1 r.2) m) k = (AMap.find l k).or (AMap.find m k) := by
  induction l generalizing m with
  | nil => rfl
  | cons e l ih =>
    obtain ⟨he, hl⟩ := List.nodup_cons.1 hnodup
    rw [List.foldl_cons, ih _ hl]
    by_cases hk : e.1 = k
    · have hnone : AMap.find l k = none := AMap.find_eq_none fun x hx hxk => he (List.mem_map.2 ⟨x, hx, hxk.trans hk.symm⟩)
      rw [hnone, show AMap.find (e :: l) k = some e.2 from if_pos hk, ← hk, AMap.find_set_same]
      rfl
    · rw [AMap.find_set_ne _ _ (Ne.symm hk), show AMap.find (e :: l) k = AMap.find l k from if_neg hk]

end Ceilings

end Sys2Proof.Machine

namespace Sys2Proof.Claims

open Sys2Proof.Machine

/-- Settles O46: a field's ceiling follows its limits, and each field takes its settled rise once. -/
theorem fieldClocksFollowTheirLimits : Obligations.FieldClocksFollowTheirLimits := by
  unfold Obligations.FieldClocksFollowTheirLimits
  refine ⟨?_, ?_⟩
  · intro s field f
    refine ⟨fun htrip => congrArg Host.Outcome.next (if_neg (ne_true_of_eq_false htrip)), fun htrip => congrArg Host.Outcome.next (if_pos htrip), rfl, fun htrip => ?_, fun hcut hdue => ?_⟩
    · obtain ⟨hfloors, hdroop, hbells, hceiling⟩ := State.floorField_field (s := s) (f := field)
      have hexec := execDroopFloor_trips htrip
      by_cases hhit : (s.plotsIn field).filter (fun fn => (s.plot fn).step.attempting) = []
      · rw [if_pos hhit] at hexec
        generalize s.floorField field = v at hfloors hdroop hbells hceiling hexec
        refine ⟨_, hexec, hfloors, hdroop, hbells, hceiling, fun _ => rfl, fun fn hfn hatt => ?_⟩
        exact absurd hatt (List.filter_eq_nil_iff.1 hhit fn hfn)
      · rw [if_neg hhit] at hexec
        have hfields : ∀ g, ((((s.plotsIn field).filter (fun fn => (s.plot fn).step.attempting)).foldl (State.tellDroop field) (s.floorField field)).field g) = (s.floorField field).field g := by
          intro g
          unfold State.field
          rw [State.tellDroops_field]
        refine ⟨_, hexec, ?_, ?_, ?_, ?_, fun hnone => absurd (List.filter_eq_nil_iff.2 fun fn hfn => ne_true_of_eq_false (hnone fn hfn)) hhit, fun fn hfn hatt => ?_⟩
        · rw [hfields, hfloors]
        · rw [hfields, hdroop]
        · rw [hfields, hbells]
        · rw [hfields, hceiling]
        · have hmem : fn ∈ (s.plotsIn field).filter (fun fn => (s.plot fn).step.attempting) := List.mem_filter.2 ⟨hfn, hatt⟩
          obtain ⟨hreport, hevent⟩ := (State.tellDroops_told (s := s.floorField field) field _).2 (s.plot fn).bell.bell rfl (.inl hmem)
          exact ⟨hreport, hevent⟩
    · have hexec : exec (.droopCeilingRestore field) s = .next ((s.setField field { f with droopCeil := BitVec.ofNat 11 (min 1600 (f.droopCeil.toNat + 100)), restoreBells := f.restoreBells + 1024 }).setCeiling field) :=
        if_neg (by rw [Bool.or_eq_true, decide_eq_true_iff, decide_eq_true_iff]; exact not_or.2 ⟨hcut, Nat.not_lt.2 hdue⟩)
      refine ⟨_, hexec, ?_, ?_⟩ <;> rw [State.setCeiling_field, State.setField_field_same]
      exact ofNat_toNat_of_le (b := 1600) (by omega) (Nat.min_le_left _ _)
  · intro s hnodup
    let u := s.modHub (fun h => { h with power.settledRise := h.power.pendingRise.foldl (fun m r => AMap.set m r.1 r.2) h.power.settledRise, power.pendingRise := [] })
    have hfind : ∀ k, AMap.find u.hub.power.settledRise k = (AMap.find s.hub.power.pendingRise k).or (AMap.find s.hub.power.settledRise k) := fun k => AMap.find_foldl_set _ _ _ hnodup
    refine ⟨allFields.foldl State.riseField u, rfl, (State.riseFields_books allFields).2, ?_⟩
    intro f k
    refine ⟨fun v hv => ⟨fun hsteps => ?_, fun hsteps => ?_⟩, fun hpending hsettled => ?_⟩
    · exact State.riseFields_rise allFields allFields_nodup (mem_allFields f) (by rw [hfind, hv]; rfl) hsteps
    · obtain ⟨hfield, hrise⟩ := State.riseFields_stay (s := u) (f := f) allFields (.inr (.inr hsteps))
      exact ⟨hfield, hrise.trans (by rw [hfind, hv]; rfl)⟩
    · exact (State.riseFields_stay (s := u) (f := f) allFields (.inr (.inl (by rw [hfind, hpending, hsettled]; rfl)))).1

end Sys2Proof.Claims
end

section
/-! Bell words that are sent, plots of a group that stop, and the references of the hub clock and of the host link (R76 to R80, R510, R520, R524): O47. -/

namespace Sys2Proof.Machine

section Words

variable {s t u : State} {fn : Fn}

/-- Words that are sent wait at their ports; nothing else of the module changes. -/
structure Sent (s t : State) : Prop where
  rest : t = { s with ports := t.ports }
  port : ∀ k : PortId, t.port k = { s.port k with bellOut := (t.port k).bellOut }

theorem Sent.refl (s : State) : Sent s s := ⟨rfl, fun _ => rfl⟩

theorem Sent.trans (h : Sent s t) (k : Sent t u) : Sent s u := by
  refine ⟨k.rest.trans ?_, fun p => ?_⟩
  · rw [h.rest]
  · rw [k.port p, h.port p]

theorem Sent.foldl {α : Type} (f : State → α → State) (hf : ∀ s a, Sent s (f s a)) (l : List α) (s : State) : Sent s (l.foldl f s) := by
  induction l generalizing s with
  | nil => exact .refl s
  | cons a l ih => exact (hf s a).trans (ih _)

theorem State.sendWord_sent (port : PortId) (w : Word) : Sent s (s.sendWord port w) := by
  unfold State.sendWord
  dsimp only
  split
  · refine ⟨rfl, fun k => ?_⟩
    by_cases hk : k = port
    · rw [hk, State.setPort_port_same]
    · rw [State.setPort_port_ne _ _ hk]
  · exact .refl s

theorem State.sendDown_sent (g : BitVec 8) (w : Word) : Sent s (s.sendDown g w) := .foldl _ (fun _ _ => State.sendWord_sent _ _) _ _

theorem State.sendAll_sent (w : Word) : Sent s (s.sendAll w) := .foldl _ (fun _ _ => State.sendWord_sent _ _) _ _

theorem State.groupSend_sent (g : BitVec 8) (w : Word) : Sent s (s.groupSend g w) := by
  unfold State.groupSend
  split
  · exact State.sendDown_sent g w
  · exact State.sendWord_sent 0 w

theorem State.groupWord_sent (kind : Nat) : Sent s (s.groupWord fn kind) := by
  unfold State.groupWord
  dsimp only
  split
  · exact State.groupSend_sent _ _
  · exact .refl s

theorem Sent.plots (h : Sent s t) : t.plots = s.plots := by
  rw [h.rest]

theorem Sent.plot (h : Sent s t) (fn : Fn) : t.plot fn = s.plot fn := by
  unfold State.plot
  rw [h.plots]

/-! ### A stop keeps to its plot -/

/-- What befalls a plot leaves the other plots what their bells go by, and every port in its state. -/
structure Apart (fn : Fn) (s t : State) : Prop where
  plot : ∀ g : Fn, g ≠ fn → (t.plot g).bellPart = (s.plot g).bellPart
  port : ∀ k : PortId, (t.port k).state = (s.port k).state

theorem Apart.refl (fn : Fn) (s : State) : Apart fn s s := ⟨fun _ _ => rfl, fun _ => rfl⟩

theorem Apart.trans (h : Apart fn s t) (k : Apart fn t u) : Apart fn s u := ⟨fun g hg => (k.plot g hg).trans (h.plot g hg), fun p => (k.port p).trans (h.port p)⟩

theorem State.port_congr (h : t.ports = s.ports) (k : PortId) : t.port k = s.port k := by
  unfold State.port
  rw [h]

theorem Aside.apart {n : Nat} (h : Aside n s t) : Apart fn s t := ⟨fun g _ => h.plot g, fun k => by rw [State.port_congr h.ports]⟩

theorem Sent.apart (h : Sent s t) : Apart fn s t := ⟨fun g _ => by rw [h.plot], fun k => by rw [h.port k]⟩

theorem Apart.setPlot (v : Plot) : Apart fn s (s.setPlot fn v) := ⟨fun _ hg => by rw [State.setPlot_plot_ne _ _ hg], fun _ => rfl⟩

theorem State.stopNow_apart (code : Code) (hlate : Claims.NoLatePackets (s.plot fn)) : Apart fn s (s.stopNow fn code) := by
  obtain ⟨u, hu, heq⟩ := s.stopNow_eq fn code hlate
  have hstopped : Apart fn s (s.modPlot fn (fun p => p.stopped code)) := .setPlot _
  have hrefused := u.refuseStaged_clerical fn
  rw [heq]
  exact hstopped.trans ((State.reeveChanges_aside _ fn).apart.trans (hu.toAside.apart.trans ((Apart.setPlot _).trans hrefused.toAside.apart)))

theorem State.stopHere_apart (code : Code) (d0 d1 d2 : Word) (hlate : Claims.NoLatePackets (s.plot fn)) :
    Apart fn s (s.stopHere fn code d0 d1 d2) ∧ ((s.stopHere fn code d0 d1 d2).plot fn).place.state = 5 ∧ ((s.stopHere fn code d0 d1 d2).plot fn).bell.bell = (s.plot fn).bell.bell := by
  have hbooks := (s.queueReport_clerical fn (s.hubReport fn code true d0 d1 d2)).trans (State.closeBetween_clerical _ fn [(s.hubReport fn code true d0 d1 d2).stopEvent])
  unfold State.stopHere
  dsimp only
  generalize (s.queueReport fn (s.hubReport fn code true d0 d1 d2)).closeBetween fn [(s.hubReport fn code true d0 d1 d2).stopEvent] = v at hbooks ⊢
  have hstop := State.stopNow_stopped v fn code (noLatePackets_congr hlate (hbooks.plot fn))
  have hapart := hbooks.toAside.apart.trans (State.stopNow_apart (s := v) code (noLatePackets_congr hlate (hbooks.plot fn)))
  have hword : Sent (v.stopNow fn code) ((v.stopNow fn code).groupWord fn 5) := State.groupWord_sent 5
  rw [hword.plot]
  exact ⟨hapart.trans hword.apart, hstop.state, hstop.bell.trans (Plot.bellPart_bell (hbooks.plot fn))⟩

/-! ### Holdover that expires -/

/-- A plot that is held has had no attempt of its step abandoned. -/
def HeldFresh (p : Plot) : Prop := p.place.state = 3 → p.step.phase = .held → p.step.retriedAt = none

theorem noLatePackets_of_fresh {p : Plot} (h : p.step.retriedAt = none) : Claims.NoLatePackets p := fun _ _ _ _ hs => nomatch h.symm.trans hs

/-- A plot of a group between steps or in one: it stops, or is to stop at its next bell (R77). -/
theorem State.stopGroupPlot_cases (d0 d1 : Word) (h : HeldFresh (s.plot fn)) : Apart fn s (s.stopGroupPlot fn d0 d1) ∧
    ((s.plot fn).place.state = 3 → (s.plot fn).step.phase ≠ .held → (s.stopGroupPlot fn d0 d1).plot fn = { s.plot fn with step.stopAtBell := some { code := 0x3006, d0 := d0, d1 := d1 } }) ∧
    HeldFresh ((s.stopGroupPlot fn d0 d1).plot fn) := by
  unfold State.stopGroupPlot
  dsimp only
  by_cases h3 : (s.plot fn).place.state = 3
  · rw [if_neg (by rw [h3]; decide)]
    by_cases hheld : (s.plot fn).step.phase = .held
    · rw [if_pos (by rw [hheld]; rfl)]
      have hnote : ∃ v : State, v = (if (s.plot fn).step.holds.reference then s.noteRefHold fn else s) ∧ Apart fn s v ∧ (v.plot fn).step.retriedAt = none := by
        refine ⟨_, rfl, ?_⟩
        split
        · have hset : Apart fn s (s.modPlot fn (fun p => { p with step := { p.step with holds.reference := false, windowFrom := none }, run.events := p.run.events ++ [s.holdEvent fn] })) := .setPlot _
          have hstep : ((s.modPlot fn (fun p => { p with step := { p.step with holds.reference := false, windowFrom := none }, run.events := p.run.events ++ [s.holdEvent fn] })).plot fn).step.retriedAt = none := by
            rw [State.modPlot_eq, State.setPlot_plot_same]
            exact h h3 hheld
          unfold State.noteRefHold
          dsimp only
          generalize s.modPlot fn _ = w at hset hstep ⊢
          have hreport := w.plotReport_clerical fn 0x4001 false 0 0 0
          exact ⟨hset.trans hreport.toAside.apart, by rw [Plot.bellPart_step (hreport.plot fn)]; exact hstep⟩
        · exact ⟨.refl fn s, h h3 hheld⟩
      obtain ⟨v, hv, hapart, hfresh⟩ := hnote
      rw [← hv]
      obtain ⟨hstop, hstate, -⟩ := State.stopHere_apart (s := v) (fn := fn) 0x3006 d0 d1 0 (noLatePackets_of_fresh hfresh)
      exact ⟨hapart.trans hstop, fun _ hn => absurd hheld hn, fun hn => by rw [hstate] at hn; exact absurd hn (by decide)⟩
    · rw [if_neg (by rw [beq_iff_eq]; exact hheld)]
      refine ⟨.setPlot _, fun _ _ => State.setPlot_plot_same _ _ _, fun _ hn => ?_⟩
      rw [State.setPlot_plot_same] at hn
      exact absurd hn hheld
  · rw [if_pos (bne_iff_ne.2 h3)]
    exact ⟨.refl fn s, fun hn => absurd hn h3, h⟩

/-- All plots that stop or are to stop: port states stand, and each that runs a step outside a hold is told (R77). -/
theorem State.stopGroupPlots (d0 : Word) (d1 : State → Word) (l : List Fn) (h : ∀ fn ∈ l, HeldFresh (s.plot fn)) :
    (∀ k : PortId, ((l.foldl (fun (s : State) fn => s.stopGroupPlot fn d0 (d1 s)) s).port k).state = (s.port k).state) ∧
    ∀ fn : Fn, (s.plot fn).place.state = 3 → (s.plot fn).step.phase ≠ .held → (fn ∈ l ∨ ∃ q : Report, (s.plot fn).step.stopAtBell = some q ∧ q.code = 0x3006) →
      ∃ q : Report, ((l.foldl (fun (s : State) fn => s.stopGroupPlot fn d0 (d1 s)) s).plot fn).step.stopAtBell = some q ∧ q.code = 0x3006 := by
  induction l generalizing s with
  | nil => exact ⟨fun _ => rfl, fun _ _ _ h => h.resolve_left List.not_mem_nil⟩
  | cons f l ih =>
    obtain ⟨hapart, htold, hfresh⟩ := State.stopGroupPlot_cases (s := s) (fn := f) d0 (d1 s) (h f List.mem_cons_self)
    rw [List.foldl_cons]
    generalize s.stopGroupPlot f d0 (d1 s) = t at hapart htold hfresh ⊢
    have hall : ∀ g ∈ l, HeldFresh (t.plot g) := by
      intro g hg
      by_cases hgf : g = f
      · rw [hgf]
        exact hfresh
      · have hpart := hapart.plot g hgf
        unfold HeldFresh
        rw [Plot.bellPart_place hpart, Plot.bellPart_step hpart]
        exact h g (List.mem_cons_of_mem _ hg)
    obtain ⟨iport, itold⟩ := ih hall
    refine ⟨fun k => (iport k).trans (hapart.port k), fun fn h3 hheld hor => ?_⟩
    by_cases hfn : fn = f
    · subst hfn
      have ht := htold h3 hheld
      exact itold fn (by rw [ht]; exact h3) (by rw [ht]; exact hheld) (.inr (by rw [ht]; exact ⟨_, rfl, rfl⟩))
    · have hpart := hapart.plot fn hfn
      refine itold fn (by rw [Plot.bellPart_place hpart]; exact h3) (by rw [Plot.bellPart_step hpart]; exact hheld) ?_
      rw [Plot.bellPart_step hpart]
      exact hor.imp_left fun hmem => (List.mem_cons.1 hmem).resolve_left hfn

/-- One optical port goes down at the end of the holdover. -/
def State.portDown (s : State) (k : Nat) : State :=
  let q := s.port (BitVec.ofNat 4 k)
  (if q.state = 0 then s else s.setPort (BitVec.ofNat 4 k) { q with state := 3 }).logReport 0x3006 (opticalD0 k) (q.neighbour.setWidth 64) 0

theorem State.portDown_port (k : Nat) (p : PortId) : ((s.portDown k).port p).state = if p = BitVec.ofNat 4 k ∧ (s.port p).state ≠ 0 then 3 else (s.port p).state := by
  have hlog : ∀ (v : State) (d0 d1 : Word), ((v.logReport 0x3006 d0 d1 0).port p).state = (v.port p).state := fun _ _ _ => rfl
  unfold State.portDown
  dsimp only
  rw [hlog]
  by_cases hp : p = BitVec.ofNat 4 k
  · subst hp
    split
    · next h => rw [if_neg (fun hn => hn.2 h)]
    · next h => rw [State.setPort_port_same, if_pos ⟨rfl, h⟩]
  · have hnot : ¬ (p = BitVec.ofNat 4 k ∧ (s.port p).state ≠ 0) := fun hn => hp hn.1
    rw [if_neg hnot]
    split
    · rfl
    · rw [State.setPort_port_ne _ _ hp]

theorem State.portDown_plots (k : Nat) : (s.portDown k).plots = s.plots := by
  have hlog : ∀ (v : State) (d0 d1 : Word), (v.logReport 0x3006 d0 d1 0).plots = v.plots := fun _ _ _ => rfl
  unfold State.portDown
  dsimp only
  rw [hlog]
  split <;> rfl

theorem State.portsDown (l : List Nat) (p : PortId) : (l.foldl State.portDown s).plots = s.plots ∧
    ((l.foldl State.portDown s).port p).state = if p ∈ l.map (BitVec.ofNat 4) ∧ (s.port p).state ≠ 0 then 3 else (s.port p).state := by
  induction l generalizing s with
  | nil => exact ⟨rfl, by rw [if_neg (fun h => List.not_mem_nil h.1)]; rfl⟩
  | cons k l ih =>
    obtain ⟨iplots, iport⟩ := ih (s := s.portDown k)
    refine ⟨iplots.trans (State.portDown_plots k), ?_⟩
    rw [List.foldl_cons, iport, State.portDown_port, List.map_cons]
    by_cases h0 : (s.port p).state = 0
    · simp [h0]
    · by_cases hp : p = BitVec.ofNat 4 k
      · have hone : (if p = BitVec.ofNat 4 k ∧ (s.port p).state ≠ 0 then 3 else (s.port p).state) = 3 := if_pos ⟨hp, h0⟩
        rw [hone, ite_self]
        exact (if_pos ⟨List.mem_cons.2 (.inl hp), h0⟩).symm
      · simp [hp]

theorem mem_allPorts (p : PortId) : p ∈ (List.range 16).map (BitVec.ofNat 4) := by
  refine List.mem_map.2 ⟨p.toNat, List.mem_range.2 p.isLt, ?_⟩
  rw [BitVec.ofNat_toNat, BitVec.setWidth_eq]

/-- The plots of groups stop or are told, with every port down. -/
def State.stopGroups (s : State) : State :=
  (s.plotNumbers.filter (fun fn => (s.plot fn).group.joined)).foldl (fun (t : State) fn => t.stopGroupPlot fn (opticalD0 0) ((t.port 0).neighbour.setWidth 64)) s

theorem State.endHoldover (l : List Nat) (hl : ∀ p : PortId, p ∈ l.map (BitVec.ofNat 4)) (hheld : ∀ fn ∈ s.plotNumbers, (s.plot fn).step.phase = .held → (s.plot fn).step.retriedAt = none) :
    (∀ k : PortId, (((l.foldl State.portDown s).stopGroups).port k).state = if (s.port k).state = 0 then 0 else 3) ∧
    ∀ fn ∈ s.plotNumbers, (s.plot fn).group.joined = true → (s.plot fn).place.state = 3 → (s.plot fn).step.phase ≠ .held →
      ∃ q : Report, (((l.foldl State.portDown s).stopGroups).plot fn).step.stopAtBell = some q ∧ q.code = 0x3006 := by
  have hdown := fun p => State.portsDown (s := s) l p
  generalize l.foldl State.portDown s = v at hdown ⊢
  have hplots : v.plots = s.plots := (hdown 0).1
  have hplot : ∀ fn, v.plot fn = s.plot fn := fun fn => by unfold State.plot; rw [hplots]
  have hnumbers : v.plotNumbers = s.plotNumbers := by unfold State.plotNumbers; rw [hplots]
  have hfresh : ∀ fn ∈ v.plotNumbers.filter (fun fn => (v.plot fn).group.joined), HeldFresh (v.plot fn) := by
    intro fn hfn _ hphase
    rw [hplot] at hphase ⊢
    exact hheld fn (hnumbers ▸ (List.mem_filter.1 hfn).1) hphase
  obtain ⟨hports, htold⟩ := State.stopGroupPlots (s := v) (opticalD0 0) (fun t => (t.port 0).neighbour.setWidth 64) _ hfresh
  refine ⟨fun k => (hports k).trans ?_, fun fn hfn hjoined h3 hphase => htold fn ?_ ?_ (.inl (List.mem_filter.2 ⟨by rw [hnumbers]; exact hfn, ?_⟩))⟩
  · rw [(hdown k).2]
    by_cases h0 : (s.port k).state = 0
    · rw [if_neg (fun hn => hn.2 h0), if_pos h0, h0]
    · rw [if_pos ⟨hl k, h0⟩, if_neg h0]
  · rw [hplot]
    exact h3
  · rw [hplot]
    exact hphase
  · rw [hplot]
    exact hjoined

theorem execHoldoverExpiry_expires {dh : Nat} (hholdover : (s.advance dh).hub.refs.holdover = true) (htime : (s.advance dh).hub.refs.lostAt + 10000000 ≤ (s.advance dh).hub.time) :
    exec (.holdoverExpiry dh) s = .next ((List.range 16).foldl State.portDown (s.advance dh)).stopGroups := by
  have hgo : (!(s.advance dh).hub.refs.holdover || decide ((s.advance dh).hub.time < (s.advance dh).hub.refs.lostAt + 10000000)) = false := by
    rw [hholdover, decide_eq_false (Nat.not_lt.2 htime)]
    rfl
  show execHoldoverExpiry dh s = _
  unfold execHoldoverExpiry
  generalize s.advance dh = u at hgo ⊢
  dsimp only
  rw [if_neg (ne_true_of_eq_false hgo)]
  generalize List.range 16 = l
  rfl

theorem Hub.sumUp_refLoss {h : Hub} {r : Report} (hcode : r.code = 0x4001) : h.sumUp r = h := by
  have hnone : r.sumBit = none := by
    unfold Report.sumBit Report.cls codeClass
    rw [hcode]
    rfl
  unfold Hub.sumUp
  rw [hnone]

/-- REF_LOSS goes to the log and to the management bus; it sets no bit of HUB.FAULTSUM. -/
theorem State.refLoss_hub : s.refLoss.plots = s.plots ∧ s.refLoss.hub.refs = s.hub.refs ∧ s.refLoss.hub.pins = s.hub.pins ∧ s.refLoss.hub.i3c.ibi = s.hub.i3c.ibi ++ [0x4001] ∧ s.refLoss.hub.faults.logLast = 0x4001 := by
  have hlog : s.logReport 0x4001 0 0 0 = { s with hub := { s.hub with faults := s.hub.faults.enterLog { code := 0x4001, time := s.stamp, seq := s.hub.seq }, seq := s.hub.seq + 1 } } := by
    unfold State.logReport
    dsimp only [State.modHub]
    rw [Hub.sumUp_refLoss rfl]
  unfold State.refLoss
  rw [hlog]
  exact ⟨rfl, rfl, rfl, rfl, rfl⟩

end Words

end Sys2Proof.Machine

namespace Sys2Proof.Claims

open Sys2Proof.Machine

/-- Settles O47: port states and other plots stand while a plot of a group stops. -/
theorem referencesAreWatched : Obligations.ReferencesAreWatched := by
  unfold Obligations.ReferencesAreWatched
  intro s dh u r
  refine ⟨fun hphase hholdover => ?_, rfl, fun hholdover htime hheld => ?_, fun hok => ?_, rfl⟩
  · let v := u.modHub (fun h => { h with refs := { h.refs with sysrefOk := false, holdover := true, sysrefLosses := satAdd h.refs.sysrefLosses 1, lostAt := h.time, faultN := true } })
    have hexec : exec (.sysrefLoss dh) s = .next v.refLoss := (if_neg hphase).trans (if_neg (ne_true_of_eq_false hholdover))
    obtain ⟨hplots, hrefs, -, hibi, hlog⟩ := v.refLoss_hub
    exact ⟨_, hexec, hrefs, hibi, hlog, hplots⟩
  · have hexec : exec (.holdoverExpiry dh) s = .next ((List.range 16).foldl State.portDown u).stopGroups := execHoldoverExpiry_expires hholdover htime
    obtain ⟨hports, htold⟩ := State.endHoldover (s := u) (List.range 16) mem_allPorts hheld
    generalize ((List.range 16).foldl State.portDown u).stopGroups = t at hexec hports htold
    exact ⟨t, hexec, hports, htold⟩
  · let v := u.modHub (fun h => { h with refs := { h.refs with pcieOk := false, pcieLosses := satAdd h.refs.pcieLosses 1, faultN := true, pcieLost := true }, pins.pcieUp := false })
    have hexec : exec (.pcieRefclkLoss dh) s = .next v.refLoss := if_neg (by rw [show (s.advance dh).hub.refs.pcieOk = true from hok]; decide)
    obtain ⟨hplots, hrefs, hpins, hibi, -⟩ := v.refLoss_hub
    exact ⟨_, hexec, hrefs, (congrArg (fun p : Pins => p.pcieUp) hpins).trans rfl, hibi, hplots⟩

end Sys2Proof.Claims
end

section
/-! Failed cores and bridge links, and the spares that replace them (R29 to R37, R388, R390): O48. -/

namespace Sys2Proof.Machine

section Rows

variable {s t : State} {c : CoreId} {fn : Fn}

/-! ### The spare of a row -/

/-- A failed column with a healthy spare above it is replaced by the lowest such spare (R31). -/
theorem RowMap.fail_lowest {r : RowMap} {f g : Nat} (h : Claims.NextSpare r f g) : ∃ r2 : RowMap, r.fail f = (r2, true) ∧ Claims.Spared r r2 f g ∧ r2.serving = r.serving := by
  obtain ⟨hfg, hg, hgood, hspare, hbetween⟩ := h
  have hbad : ∀ j < 36, (r.bad ||| BitVec.ofNat 36 (2 ^ f)).getLsbD j = (r.bad.getLsbD j || j == f) := fun j hj => by rw [BitVec.getLsbD_or, getLsbD_twoPow hj]
  have hfind : (List.range 36).find? (fun k => decide (f < k) && !(r.bad ||| BitVec.ofNat 36 (2 ^ f)).getLsbD k && !r.enable.getLsbD k) = some g := by
    rw [List.find?_range_eq_some]
    refine ⟨?_, List.mem_range.2 hg, fun j hj => ?_⟩
    · rw [hbad g hg, hgood, hspare]
      simp [hfg, Nat.ne_of_gt hfg]
    · rw [hbad j (by omega)]
      by_cases hfj : f < j
      · obtain h | h := hbetween j hfj hj
        · simp [h]
        · simp [h]
      · simp [hfj]
  unfold RowMap.fail
  dsimp only
  rw [hfind]
  refine ⟨_, rfl, ⟨fun j hj => ?_, hbad, rfl⟩, rfl⟩
  simp only [BitVec.getLsbD_or, BitVec.getLsbD_and, BitVec.getLsbD_not, getLsbD_twoPow hj, hj, decide_true, Bool.true_and]
  by_cases hjf : j = f
  · subst hjf
    simp [Nat.ne_of_lt hfg]
  · by_cases hjg : j = g
    · subst hjg
      simp [hjf]
    · simp [hjf, hjg, beq_eq_false_iff_ne.2 hjf, beq_eq_false_iff_ne.2 hjg]

/-! ### A core that waits for its remap -/

theorem fieldCore_self (c : CoreId) : fieldCore (fieldOfCore c).toNat (rowOf c % 16) (colOf c % 32) = c := by
  have h := c.isLt
  refine BitVec.eq_of_toNat_eq ?_
  unfold fieldCore coreAt fieldOfCore rowOf colOf
  simp only [BitVec.toNat_ofNat]
  omega

theorem State.remapFold_fields (F : State → Nat → State) (hF : ∀ s k, (F s k).fields = s.fields) (l : List Nat) : (l.foldl F s).fields = s.fields := by
  induction l generalizing s with
  | nil => rfl
  | cons k l ih => exact (ih (s := F s k)).trans (hF s k)

/-- Columns listed as waiting for a mask read it; the others stand. -/
theorem AMap.find_foldl_const {α : Type} (v : α) (l : List Nat) (m : AMap α) (k : Nat) : AMap.find (l.foldl (fun m k => AMap.set m k v) m) k = if k ∈ l then some v else AMap.find m k := by
  induction l generalizing m with
  | nil => rfl
  | cons j l ih =>
    rw [List.foldl_cons, ih]
    by_cases hkj : k = j
    · rw [hkj, AMap.find_set_same, ite_self, if_pos List.mem_cons_self]
    · rw [AMap.find_set_ne _ _ hkj]
      exact if_congr (by rw [List.mem_cons, or_iff_right hkj]) rfl rfl

theorem State.field_congr (h : t.fields = s.fields) (f : FieldId) : t.field f = s.field f := by
  unfold State.field
  rw [h]

/-- The row that `remapRow` lists. -/
def State.remapped (s : State) (f : FieldId) (row : Nat) (new : RowMap) : RowMap :=
  let old := (AMap.get {} (s.field f).rows row).enable
  let moved := (List.range 32).filter (fun k => physicalColumn old k != physicalColumn new.enable k)
  let heldBy (k : Nat) : Option Fn := (s.core (fieldCore f.toNat row k)).owner.filter (fun fn => (s.plot fn).repairsNow)
  let wait := moved.filter (fun k => (heldBy k).isNone && (AMap.find new.serving k).isNone)
  { new with serving := wait.foldl (fun m k => AMap.set m k old) new.serving }

theorem State.remapRow_rows (f : FieldId) (row : Nat) (new : RowMap) : AMap.get {} ((s.remapRow f row new).field f).rows row = s.remapped f row new := by
  have hfields : (s.remapRow f row new).fields = (s.setField f { s.field f with rows := AMap.put {} (s.field f).rows row (s.remapped f row new) }).fields := by
    refine State.remapFold_fields _ (fun s k => ?_) _
    split
    · exact State.rebuildCore_fields _ _ _
    · rfl
  rw [State.field_congr hfields, State.setField_field_same, AMap.get_put_same]

/-- A core whose plot is not repaired at once is served as before until its next bell (R31, R42). -/
theorem State.physOf_remapRow (new : RowMap) (hserving : new.serving = (s.rowMap c).serving) (hnow : ∀ fn, (s.core c).owner = some fn → (s.plot fn).repairsNow = false) :
    (s.remapRow (fieldOfCore c) (rowOf c % 16) new).physOf c = s.physOf c := by
  have hrow : (s.remapRow (fieldOfCore c) (rowOf c % 16) new).rowMap c = s.remapped (fieldOfCore c) (rowOf c % 16) new := State.remapRow_rows _ _ _
  have hcol : colOf c % 32 < 32 := Nat.mod_lt _ (by decide)
  have hheld : (s.core (fieldCore (fieldOfCore c).toNat (rowOf c % 16) (colOf c % 32))).owner.filter (fun fn => (s.plot fn).repairsNow) = none := by
    rw [fieldCore_self]
    cases h : (s.core c).owner with
    | none => rfl
    | some fn => exact Option.filter_some_neg (hnow fn h)
  unfold State.physOf
  rw [hrow]
  unfold State.remapped RowMap.column
  dsimp only
  rw [AMap.find_foldl_const, hserving]
  cases hfind : AMap.find (s.rowMap c).serving (colOf c % 32) with
  | some old =>
    rw [if_neg]
    · rfl
    · intro hmem
      have hcond := (List.mem_filter.1 hmem).2
      rw [hfind] at hcond
      simp at hcond
  | none =>
    by_cases hmoved : physicalColumn (s.rowMap c).enable (colOf c % 32) = physicalColumn new.enable (colOf c % 32)
    · rw [if_neg]
      · exact hmoved.symm
      · intro hmem
        have hcond := (List.mem_filter.1 (List.mem_filter.1 hmem).1).2
        exact bne_iff_ne.1 hcond hmoved
    · rw [if_pos]
      · rfl
      · refine List.mem_filter.2 ⟨List.mem_filter.2 ⟨List.mem_range.2 hcol, bne_iff_ne.2 hmoved⟩, ?_⟩
        rw [hheld, hfind]
        rfl

theorem State.failCore_spared {g : Nat} (hphys : s.physOf c < 36) (hgood : (s.rowMap c).bad.getLsbD (s.physOf c) = false) (hspare : Claims.NextSpare (s.rowMap c) (s.physOf c) g) :
    ∃ r2 : RowMap, Claims.Spared (s.rowMap c) r2 (s.physOf c) g ∧ r2.serving = (s.rowMap c).serving ∧
      s.failCore c = (s.remapRow (fieldOfCore c) (rowOf c % 16) r2).partReport c (s.core c).owner false 0x3002 (s.coreLostD0 c) (r2.enable.setWidth 64) (s.faultOffset c) := by
  obtain ⟨r2, hfail, hspared, hserving⟩ := RowMap.fail_lowest hspare
  refine ⟨r2, hspared, hserving, ?_⟩
  have hgo : (decide (36 ≤ s.physOf c) || ((s.rowMap c).bad.getLsbD (s.physOf c) && !(s.rowMap c).enable.getLsbD (s.physOf c))) = false := by
    rw [decide_eq_false (Nat.not_le.2 hphys), hgood]
    rfl
  unfold State.failCore
  dsimp only
  rw [if_neg (ne_true_of_eq_false hgo), if_neg (ne_true_of_eq_false hgood), hfail]
  rfl

/-! ### Logic checks -/

theorem State.setPhysCore_rowMap (k : PhysCore) : (s.setPhysCore c k).rowMap c = s.rowMap c := by
  unfold State.rowMap State.setPhysCore
  rw [State.setField_field_same]

theorem State.setPhysCore_coreLostD0 (k : PhysCore) : (s.setPhysCore c k).coreLostD0 c = s.coreLostD0 c := by
  unfold State.coreLostD0 State.physOf
  rw [State.setPhysCore_rowMap]

theorem execLogicCheckEvent_eq (hcore : s.hasCore c = true) :
    let k := s.physCore c
    let u := s.setPhysCore c { k with lastLogic := some ((s.core c).owner, s.bellsOf c) }
    let again : Prop := ∃ b, k.lastLogic = some ((s.core c).owner, b) ∧ b ≤ s.bellsOf c ∧ s.bellsOf c ≤ b + 1024
    (¬ again → exec (.logicCheckEvent c) s = .next (u.partReport c (s.core c).owner false 0x3002 (s.coreLostD0 c) 0 (s.faultOffset c))) ∧
    (again → exec (.logicCheckEvent c) s = .next (u.failCore c)) := by
  intro k u again
  have hd0 : u.coreLostD0 c = s.coreLostD0 c := State.setPhysCore_coreLostD0 _
  have hoff : u.faultOffset c = s.faultOffset c := rfl
  rw [← hd0, ← hoff]
  have hstart : exec (.logicCheckEvent c) s = .next (if (match k.lastLogic with | some (o, b) => o == (s.core c).owner && b ≤ s.bellsOf c && s.bellsOf c ≤ b + 1024 | none => false) then u.failCore c
      else u.partReport c (s.core c).owner false 0x3002 (u.coreLostD0 c) 0 (u.faultOffset c)) := if_neg (ne_true_of_eq_false (congrArg (!·) hcore))
  have hagain : (match k.lastLogic with | some (o, b) => o == (s.core c).owner && decide (b ≤ s.bellsOf c) && decide (s.bellsOf c ≤ b + 1024) | none => false) = true ↔ again := by
    show _ ↔ ∃ b, k.lastLogic = some ((s.core c).owner, b) ∧ b ≤ s.bellsOf c ∧ s.bellsOf c ≤ b + 1024
    cases k.lastLogic with
    | none => simp
    | some x => simp [Prod.ext_iff, and_assoc]
  exact ⟨fun hnot => hstart.trans (congrArg Host.Outcome.next (if_neg (mt hagain.1 hnot))), fun hyes => hstart.trans (congrArg Host.Outcome.next (if_pos (hagain.2 hyes)))⟩

/-! ### Bridge links -/

/-- A failed link that serves nothing and is to serve nothing is only marked (R37). -/
theorem Edge.fail_unused {g : Edge} {link : Nat} (h : ∀ k < 32, g.planned k ≠ link) : g.fail link = ({ g with bad := g.bad ||| BitVec.ofNat 36 (2 ^ link) }, none) := by
  have hnone : (List.range 32).find? (fun k => g.planned k == link) = none := List.find?_eq_none.2 fun k hk => by
    rw [beq_iff_eq]
    exact h k (List.mem_range.1 hk)
  unfold Edge.fail
  dsimp only
  rw [hnone]

theorem find_spare {P : Nat → Bool} {i : Nat} (hlow : 32 ≤ i) (hhigh : i < 36) (hi : P i = true) (hfirst : ∀ q, 32 ≤ q → q < i → P q = false) : ((List.range 4).map (32 + ·)).find? P = some i := by
  rw [List.find?_map]
  have hfind : (List.range 4).find? (P ∘ (32 + ·)) = some (i - 32) := by
    rw [List.find?_range_eq_some]
    refine ⟨?_, List.mem_range.2 (by omega), fun j hj => ?_⟩
    · show P (32 + (i - 32)) = true
      rw [Nat.add_sub_cancel' hlow]
      exact hi
    · show (!P (32 + j)) = true
      rw [hfirst (32 + j) (by omega) (by omega)]
      rfl
  rw [hfind]
  exact congrArg some (Nat.add_sub_cancel' hlow)

/-- The lowest healthy spare that serves nothing is to serve the failed link's number (R37). -/
theorem Edge.fail_spare {g : Edge} {link k i : Nat} (hk : k < 32) (hserves : g.planned k = link) (hfirst : ∀ q < k, g.planned q ≠ link) (hlow : 32 ≤ i) (hhigh : i < 36) (hne : i ≠ link)
    (hgood : g.bad.getLsbD i = false) (hfree : ∀ l ∈ g.serves ++ g.next, l.2 ≠ i) (hlowest : ∀ q, 32 ≤ q → q < i → q = link ∨ g.bad.getLsbD q = true ∨ ∃ l ∈ g.serves ++ g.next, l.2 = q) :
    g.fail link = ({ g with bad := g.bad ||| BitVec.ofNat 36 (2 ^ link), next := AMap.set g.next k i }, some (k, i)) := by
  have hfind : (List.range 32).find? (fun k => g.planned k == link) = some k := by
    rw [List.find?_range_eq_some]
    exact ⟨beq_iff_eq.2 hserves, List.mem_range.2 hk, fun q hq => by rw [beq_false_of_ne (hfirst q hq)]; rfl⟩
  have hbad : ∀ j < 36, (g.bad ||| BitVec.ofNat 36 (2 ^ link)).getLsbD j = (g.bad.getLsbD j || j == link) := fun j hj => by rw [BitVec.getLsbD_or, getLsbD_twoPow hj]
  have hused : ∀ q, (g.serves.any (fun l => l.2 == q) || g.next.any (fun l => l.2 == q)) = true ↔ ∃ l ∈ g.serves ++ g.next, l.2 = q := by
    intro q
    rw [← List.any_append, List.any_eq_true]
    simp only [beq_iff_eq]
  have hspare : ((List.range 4).map (32 + ·)).find? (fun i => !(g.bad ||| BitVec.ofNat 36 (2 ^ link)).getLsbD i && !(g.serves.any (fun l => l.2 == i) || g.next.any (fun l => l.2 == i))) = some i := by
    refine find_spare hlow hhigh ?_ fun q hq hqi => ?_
    · have hnot : (g.serves.any (fun l => l.2 == i) || g.next.any (fun l => l.2 == i)) = false := Bool.eq_false_iff.2 fun h => by
        obtain ⟨l, hl, hli⟩ := (hused i).1 h
        exact hfree l hl hli
      rw [hbad i hhigh, hgood, hnot, beq_false_of_ne hne]
      rfl
    · rw [hbad q (by omega)]
      obtain h | h | h := hlowest q hq hqi
      · simp [h]
      · simp [h]
      · rw [(hused q).2 h, Bool.not_true, Bool.and_false]
  unfold Edge.fail
  dsimp only
  rw [hfind]
  dsimp only
  rw [hspare]
  rfl

/-- Reports change no edge, and of no plot whether it is repaired at once. -/
structure Reported (s t : State) : Prop where
  edges : t.edges = s.edges
  repairs : ∀ fn : Fn, (t.plot fn).repairsNow = (s.plot fn).repairsNow

theorem Reported.trans {u : State} (h : Reported s t) (k : Reported t u) : Reported s u := ⟨k.edges.trans h.edges, fun fn => (k.repairs fn).trans (h.repairs fn)⟩

theorem Reported.setPlot {v : Plot} (h : v.repairsNow = (s.plot fn).repairsNow) : Reported s (s.setPlot fn v) := by
  refine ⟨rfl, fun g => ?_⟩
  by_cases hg : g = fn
  · rw [hg, State.setPlot_plot_same, h]
  · rw [State.setPlot_plot_ne _ _ hg]

theorem State.queueReport_reported (r : Report) : Reported s (s.queueReport fn r) := by
  refine ⟨rfl, fun g => ?_⟩
  have hplot := State.queueReport_mended (s := s) (fn := fn) r |>.plot g
  rw [hplot]
  rfl

theorem State.partReport_reported (owner : Option Fn) (hubDie : Bool) (code : Code) (d0 d1 : Word) (offset : Option Nat) : Reported s (s.partReport c owner hubDie code d0 d1 offset) := by
  cases owner with
  | none => exact ⟨rfl, fun _ => rfl⟩
  | some fn =>
    unfold State.partReport
    extract_lets core
    dsimp -zeta only
    extract_lets p rung r
    clear_value r
    split
    · exact .setPlot rfl
    · split
      · refine Reported.trans ?_ (State.queueReport_reported r)
        exact .setPlot rfl
      · refine Reported.trans ?_ (State.queueReport_reported r)
        exact .setPlot rfl

/-- LINK_DOWN to one plot with a slot on a link; its repairs are made at once where it is held or being restored (R37, R404). -/
def State.linkReport (field : FieldId) (d0 d1 : Word) (s : State) (fn : Fn) : State :=
  let s := s.partReport 0 (some fn) true 0x3006 d0 d1 (if (s.plot fn).step.attempting || (s.plot fn).step.phase == .abandoned then some (s.fieldOffset fn field) else none)
  if (s.plot fn).repairsNow then s.takeRemaps (some fn) else s

/-- LINK_DOWN of a link that has a spare: in the log, or to every plot with a slot on the link (R37). -/
def State.linkReports (s : State) (field : FieldId) (d0 d1 : Word) (users : List Fn) : State :=
  if users == [] then s.partReport 0 none true 0x3006 d0 d1 none else users.foldl (State.linkReport field d0 d1) s

theorem State.linkReport_reported (field : FieldId) (d0 d1 : Word) (h : (s.plot fn).repairsNow = false) : Reported s (State.linkReport field d0 d1 s fn) := by
  have hreport := State.partReport_reported (s := s) (c := 0) (some fn) true 0x3006 d0 d1 (if (s.plot fn).step.attempting || (s.plot fn).step.phase == .abandoned then some (s.fieldOffset fn field) else none)
  unfold State.linkReport
  dsimp only
  generalize s.partReport 0 (some fn) true 0x3006 d0 d1 _ = t at hreport ⊢
  rw [if_neg (by rw [hreport.repairs, h]; exact Bool.false_ne_true)]
  exact hreport

theorem State.linkFold_reported (field : FieldId) (d0 d1 : Word) (users : List Fn) (h : ∀ fn ∈ users, (s.plot fn).repairsNow = false) : Reported s (users.foldl (State.linkReport field d0 d1) s) := by
  induction users generalizing s with
  | nil => exact ⟨rfl, fun _ => rfl⟩
  | cons fn l ih =>
    have hone := State.linkReport_reported field d0 d1 (h fn List.mem_cons_self)
    exact hone.trans (ih fun g hg => (hone.repairs g).trans (h g (List.mem_cons_of_mem _ hg)))

theorem State.linkReports_reported (field : FieldId) (d0 d1 : Word) (users : List Fn) (h : ∀ fn ∈ users, (s.plot fn).repairsNow = false) : Reported s (s.linkReports field d0 d1 users) := by
  unfold State.linkReports
  split
  · exact State.partReport_reported none true 0x3006 d0 d1 none
  · exact State.linkFold_reported field d0 d1 users h

end Rows

end Sys2Proof.Machine

namespace Sys2Proof.Claims

open Sys2Proof.Machine

/-- Settles O48: the lowest healthy spare serves, a core as before until its plot's bell, and reports change neither. -/
theorem failedPartsAreReplaced : Obligations.FailedPartsAreReplaced := by
  unfold Obligations.FailedPartsAreReplaced
  refine ⟨?_, ?_, ?_⟩
  · intro s c cause g f r hcore hphys hgood hspare row hrow
    obtain ⟨r2, hspared, hserving, hfail⟩ := State.failCore_spared hphys hgood hspare
    refine ⟨r2, hspared, hserving, State.physOf_remapRow r2 hserving, ?_⟩
    have hlost : ∀ x : Host.Outcome State Fault Refusal, (if (!s.hasCore c) = true then x else .next (s.failCore c)) = .next (s.failCore c) := fun x => if_neg (ne_true_of_eq_false (congrArg (!·) hcore))
    obtain rfl | rfl := hrow
    · exact (show exec (.coreLost c cause) s = _ from hlost _).trans (congrArg Host.Outcome.next hfail)
    · exact (show exec (.powerDomainFault c) s = _ from hlost _).trans (congrArg Host.Outcome.next hfail)
  · intro s c k now u again hcore
    obtain ⟨hfirst, hagain⟩ := execLogicCheckEvent_eq hcore
    refine ⟨hfirst, fun h => (hagain h).trans ?_⟩
    exact (show exec (.coreLost c .heartbeat) u = _ from if_neg (ne_true_of_eq_false (congrArg (!·) (show u.hasCore c = true from hcore)))).symm
  · intro s field side link e g hedge hlink hgood
    have hgo : (decide (36 ≤ link.toNat) || g.bad.getLsbD link.toNat) = false := by
      rw [decide_eq_false (Nat.not_le.2 hlink), hgood]
      rfl
    refine ⟨fun hunused => ?_, fun k i hk hserves hfirst hlow hhigh hne hspare hfree hlowest hnow => ?_⟩
    · show execBridgeLinkFailure field side link s = _
      unfold execBridgeLinkFailure
      rw [hedge]
      dsimp only
      rw [if_neg (ne_true_of_eq_false hgo), Edge.fail_unused hunused]
      rfl
    · have hfail := Edge.fail_spare hk hserves hfirst hlow hhigh hne hspare hfree hlowest
      have hi : (i != 36) = true := bne_iff_ne.2 (Nat.ne_of_lt hhigh)
      let u : State := { s with edges := AMap.put {} s.edges e { g with bad := g.bad ||| BitVec.ofNat 36 (2 ^ link.toNat), next := AMap.set g.next k i } }
      have hexec : exec (.bridgeLinkFailure field side link) s = .next (u.linkReports field (BitVec.ofNat 64 (field.toNat + 2 ^ 3 * side.toNat)) (link.setWidth 64) (s.linkPlots e k)) := by
        show execBridgeLinkFailure field side link s = _
        unfold execBridgeLinkFailure
        rw [hedge]
        dsimp only
        rw [if_neg (ne_true_of_eq_false hgo), hfail]
        dsimp only
        rw [hi]
        by_cases hu : (s.linkPlots e k == []) = true
        · exact (if_pos hu).trans (congrArg Host.Outcome.next ((if_pos rfl).trans (if_pos hu).symm))
        · exact (if_neg hu).trans (congrArg Host.Outcome.next (if_neg hu).symm)
      refine ⟨_, hexec, ?_, fun hnone => ?_⟩
      · have hreported := State.linkReports_reported (s := u) field (BitVec.ofNat 64 (field.toNat + 2 ^ 3 * side.toNat)) (link.setWidth 64) (s.linkPlots e k) hnow
        rw [hreported.edges]
        exact AMap.get_put_same _ _ _ _
      · rw [hnone]
        rfl

end Sys2Proof.Claims
end

section
/-! Image scrubbing, ageing lasers and the lock-step exchange (R392, R393, R398, R400 to R403): O49. -/

namespace Sys2Proof.Machine

/-! ### Ageing lasers -/

section Lasers

variable {s t : State} {port : PortId} {k : Nat}

/-- A lane as the end of a second leaves it (R398). -/
def Lane.aged (l : Lane) : Lane := { l with corr := BitVec.ofNat 24 (min l.corrNow (2 ^ 24 - 1)), corrNow := 0 }

theorem Lane.aged_corr (l : Lane) : l.aged.corr.toNat = min l.corrNow (2 ^ 24 - 1) := by
  have h : min l.corrNow (2 ^ 24 - 1) < 2 ^ 24 := by omega
  exact (BitVec.toNat_ofNat _ _).trans (Nat.mod_eq_of_lt h)

/-- Whether a lane of a port is above THRESH. -/
def Port.ageing (p : Port) (k : Nat) : Bool := decide (p.thresh.toNat < (AMap.get {} p.lanes k).corrNow)

/-- The second of one lane of a port. -/
def State.ageLane (port : PortId) (s : State) (k : Nat) : State :=
  let p := s.port port
  let q : Port := { p with lanes := AMap.put {} p.lanes k (AMap.get {} p.lanes k).aged }
  if p.ageing k && !p.overCount.getLsbD k then (s.setPort port { q with overCount := p.overCount ||| BitVec.ofNat 9 (2 ^ k) }).logReport 0x4007 0 0 0 else s.setPort port q

theorem execLaserAgeing_eq : exec (.laserAgeing port) s = .next ((List.range 9).foldl (State.ageLane port) s) := rfl

/-- What the seconds of the lanes below `n` leave of the port and the log. -/
structure Aged (port : PortId) (s : State) (n : Nat) (t : State) : Prop where
  thresh : (t.port port).thresh = (s.port port).thresh
  lane : ∀ k, AMap.get {} (t.port port).lanes k = if k < n then (AMap.get {} (s.port port).lanes k).aged else AMap.get {} (s.port port).lanes k
  marked : ∀ k < 9, (t.port port).overCount.getLsbD k = ((s.port port).overCount.getLsbD k || (decide (k < n) && (s.port port).ageing k))
  told : (∃ k < n, (s.port port).overCount.getLsbD k = false ∧ (s.port port).ageing k = true) → t.hub.faults.logLast = 0x4007
  still : (∀ k < n, (s.port port).overCount.getLsbD k = true ∨ (s.port port).ageing k = false) → t.hub = s.hub

theorem State.logReport_port (code : Code) (d0 d1 d2 : Word) : (s.logReport code d0 d1 d2).port port = s.port port := rfl

theorem State.ageLane_aged {n : Nat} (hn : n < 9) (h : Aged port s n t) : Aged port s (n + 1) (State.ageLane port t n) := by
  have hlane : AMap.get {} (t.port port).lanes n = AMap.get {} (s.port port).lanes n := (h.lane n).trans (if_neg (Nat.lt_irrefl n))
  have hover : (t.port port).overCount.getLsbD n = (s.port port).overCount.getLsbD n := (h.marked n hn).trans (by simp)
  have hageing : (t.port port).ageing n = (s.port port).ageing n := by
    unfold Port.ageing
    rw [h.thresh, hlane]
  have hlanes : ∀ k, AMap.get {} (AMap.put {} (t.port port).lanes n (AMap.get {} (t.port port).lanes n).aged) k = if k < n + 1 then (AMap.get {} (s.port port).lanes k).aged else AMap.get {} (s.port port).lanes k := by
    intro k
    by_cases hk : k = n
    · rw [hk, AMap.get_put_same, if_pos (Nat.lt_succ_self n), hlane]
    · rw [AMap.get_put_ne _ _ _ hk, h.lane]
      exact if_congr (by omega) rfl rfl
  have hbit : ∀ k < 9, (decide (k < n + 1) && (s.port port).ageing k) = ((decide (k < n) && (s.port port).ageing k) || (k == n && (s.port port).ageing n)) := by
    intro k _
    by_cases hk : k = n
    · subst hk
      simp
    · have hiff : k < n + 1 ↔ k < n := by omega
      simp [hk, hiff]
  have hearlier : (∀ k < n + 1, (s.port port).overCount.getLsbD k = true ∨ (s.port port).ageing k = false) → t.hub = s.hub := fun hall => h.still fun k hk => hall k (Nat.lt_succ_of_lt hk)
  unfold State.ageLane
  dsimp only
  by_cases hnew : ((t.port port).ageing n && !(t.port port).overCount.getLsbD n) = true
  · rw [if_pos hnew]
    obtain ⟨hold, hnot⟩ := Bool.and_eq_true_iff.1 hnew
    rw [hageing] at hold
    rw [hover, Bool.not_eq_true'] at hnot
    refine ⟨?_, fun k => ?_, fun k hk => ?_, fun _ => rfl, fun hall => ?_⟩
    · rw [State.logReport_port, State.setPort_port_same]
      exact h.thresh
    · rw [State.logReport_port, State.setPort_port_same]
      exact hlanes k
    · rw [State.logReport_port, State.setPort_port_same]
      show ((t.port port).overCount ||| BitVec.ofNat 9 (2 ^ n)).getLsbD k = _
      rw [BitVec.getLsbD_or, getLsbD_twoPow hk, h.marked k hk, hbit k hk, hold, Bool.and_true, Bool.or_assoc]
    · obtain h1 | h1 := hall n (Nat.lt_succ_self n)
      · exact nomatch h1.symm.trans hnot
      · exact nomatch h1.symm.trans hold
  · rw [if_neg hnew]
    have hquiet : (s.port port).overCount.getLsbD n = true ∨ (s.port port).ageing n = false := by
      rw [← hover, ← hageing]
      cases ho : (t.port port).overCount.getLsbD n
      · cases ha : (t.port port).ageing n
        · exact .inr rfl
        · exact absurd (by rw [ha, ho]; rfl) hnew
      · exact .inl rfl
    refine ⟨?_, fun k => ?_, fun k hk => ?_, fun hsome => ?_, hearlier⟩
    · rw [State.setPort_port_same]
      exact h.thresh
    · rw [State.setPort_port_same]
      exact hlanes k
    · rw [State.setPort_port_same]
      show (t.port port).overCount.getLsbD k = _
      rw [h.marked k hk, hbit k hk]
      by_cases hkn : k = n
      · obtain hq | hq := hquiet
        · rw [hkn, hq]
          rfl
        · rw [hkn, hq, Bool.and_false, Bool.and_false, Bool.or_false, Bool.or_false, Bool.or_false]
      · rw [beq_false_of_ne hkn, Bool.false_and, Bool.or_false]
    · obtain ⟨k, hk, hnone, hage⟩ := hsome
      refine h.told ⟨k, lt_of_le_of_ne (Nat.le_of_lt_succ hk) fun hkn => ?_, hnone, hage⟩
      subst hkn
      obtain hq | hq := hquiet
      · exact nomatch hq.symm.trans hnone
      · exact nomatch hq.symm.trans hage

theorem State.ageLanes (n : Nat) (hn : n ≤ 9) : Aged port s n ((List.range n).foldl (State.ageLane port) s) := by
  induction n with
  | zero => exact ⟨rfl, fun k => (if_neg (Nat.not_lt_zero k)).symm, fun k _ => by simp, fun h => absurd h (by simp), fun _ => rfl⟩
  | succ n ih =>
    rw [List.range_succ, List.foldl_append, List.foldl_cons, List.foldl_nil]
    exact State.ageLane_aged hn (ih (Nat.le_of_succ_le hn))

end Lasers

/-- A plot that keeps the exchange its partner sent. -/
def State.withPartner (s : State) (fn : Fn) (x : LockstepExchange) : State := s.setPlot fn { s.plot fn with step.partner := some x }

/-- What an exchange does in a paired module once it is kept, by the plot's phase. -/
theorem execLockstepDigestReceived_eq {s : State} {fn : Fn} {x : LockstepExchange} (hon : s.hub.faults.lockEnable = true) (hturn : (s.plot fn).step.rung = true → s.commonsTurn fn = true) :
    exec (.lockstepDigestReceived fn x) s =
      if (s.plot fn).step.rung then .next ((s.withPartner fn x).compare fn)
      else if (s.plot fn).step.phase == .held then
        match x with
        | .stopped _ => .next ((s.withPartner fn x).divergeHere fn)
        | _ => .next (((s.withPartner fn x).meetPartner fn).releaseHeld fn)
      else .next (s.withPartner fn x) := by
  have hgo : ¬ (!s.hub.faults.lockEnable || ((s.plot fn).step.rung && !s.commonsTurn fn)) = true := by
    rw [hon]
    cases hrung : (s.plot fn).step.rung
    · exact Bool.false_ne_true
    · rw [hturn hrung]
      exact Bool.false_ne_true
  have hstep : ((s.withPartner fn x).plot fn).step = { (s.plot fn).step with partner := some x } := congrArg Plot.step (State.setPlot_plot_same _ _ _)
  show execLockstepDigestReceived fn x s = _
  unfold execLockstepDigestReceived
  rw [if_neg hgo]
  show (if ((s.withPartner fn x).plot fn).step.rung then _ else if ((s.withPartner fn x).plot fn).step.phase == .held then _ else _) = _
  rw [hstep]
  rfl

end Sys2Proof.Machine

namespace Sys2Proof.Claims

open Sys2Proof.Machine

/-- Settles O49. -/
theorem imagesLasersAndPartnersAreChecked : Obligations.ImagesLasersAndPartnersAreChecked := by
  unfold Obligations.ImagesLasersAndPartnersAreChecked
  refine ⟨?_, ?_, ?_⟩
  · intro s c object block copyBad k key hcore
    have hgo : ¬ (!s.hasCore c) = true := ne_true_of_eq_false (congrArg (!·) hcore)
    refine ⟨⟨_, (show execImageScrubPass c object block false copyBad s = _ from if_neg hgo), ?_, ?_, fun n hn => ?_⟩, fun hold => ?_⟩
    · rw [State.setCore_core_same]
      exact AMap.find_set_same _ _ _
    · rw [State.setCore_core_same]
    · rw [State.setCore_core_same]
      show AMap.find (match AMap.find k.tables.passesSinceReload key with | some n => AMap.set k.tables.passesSinceReload key (n + 1) | none => k.tables.passesSinceReload) key = some (n + 1)
      rw [hn]
      exact AMap.find_set_same _ _ _
    · show execImageScrubPass c object block true copyBad s = _
      unfold execImageScrubPass
      rw [if_neg hgo]
      refine (if_neg (by decide)).trans ?_
      cases hsince : AMap.find (s.core c).tables.passesSinceReload (4096 * object.toNat + block.toNat) with
      | none => rfl
      | some n => exact if_neg (Nat.not_lt.2 (hold n hsince))
  · intro s port p
    have h := State.ageLanes (s := s) (port := port) 9 le_rfl
    refine ⟨_, execLaserAgeing_eq, fun k hk => ?_, fun k hk => ?_, fun hsome => h.told ?_, fun hall => h.still ?_⟩
    · rw [h.lane, if_pos hk]
      exact ⟨Lane.aged_corr _, rfl⟩
    · rw [h.marked k hk, decide_eq_true hk, Bool.true_and]
      rfl
    · obtain ⟨k, hk, hnone, hage⟩ := hsome
      exact ⟨k, hk, hnone, decide_eq_true hage⟩
    · exact fun k hk => (hall k hk).imp_right fun hle => decide_eq_false (Nat.not_lt.2 hle)
  · intro s fn x u
    refine ⟨fun hoff => if_pos (by rw [hoff]; rfl), fun hrung hturn => if_pos (by rw [hrung, hturn, Bool.not_false, Bool.and_true, Bool.or_true]), fun hon hrung hturn => ?_, fun hon hrung hheld => ?_, fun hon hrung hheld => ?_⟩
    · exact (execLockstepDigestReceived_eq hon fun _ => hturn).trans (if_pos hrung)
    · refine (execLockstepDigestReceived_eq hon fun h => nomatch h.symm.trans hrung).trans ((if_neg (ne_true_of_eq_false hrung)).trans ((if_pos (beq_iff_eq.2 hheld)).trans ?_))
      cases x <;> rfl
    · exact (execLockstepDigestReceived_eq hon fun h => nomatch h.symm.trans hrung).trans ((if_neg (ne_true_of_eq_false hrung)).trans (if_neg fun h => hheld (beq_iff_eq.1 h)))

end Sys2Proof.Claims
end

section
/-! Optical lanes and training (R506, R509, R511 to R516, R535): O50. -/

namespace Sys2Proof.Machine

section Lanes

variable {s : State} {port : PortId} {lane : BitVec 4}

/-- A codeword with an uncorrectable error (R511). -/
theorem execCodewordReceived_bad {q : BitVec 12} {n : Nat} (hlane : lane.toNat ≤ 8) (hn : 15 < n) :
    let l := AMap.get {} (s.port port).lanes lane.toNat
    exec (.codewordReceived port lane q n) s = .next (s.setLane port lane { l with uncorr := satAdd l.uncorr 1, discarding := true, nakDue := if l.discarding = false ∨ q = l.recvSeq then some q else l.nakDue }) := by
  intro l
  have hdue : (!l.discarding || q == l.recvSeq) = true ↔ (l.discarding = false ∨ q = l.recvSeq) := by
    rw [Bool.or_eq_true_iff, Bool.not_eq_true', beq_iff_eq]
  refine (if_neg (Nat.not_lt.2 hlane)).trans ?_
  refine congrArg Host.Outcome.next ((if_pos hn).trans ?_)
  rw [if_congr hdue rfl rfl]

/-- A codeword whose errors are corrected (R509, R511). -/
theorem execCodewordReceived_good {q : BitVec 12} {n : Nat} (hlane : lane.toNat ≤ 8) (hn : n ≤ 15) :
    let l := AMap.get {} (s.port port).lanes lane.toNat
    exec (.codewordReceived port lane q n) s =
      .next (s.setLane port lane
        (if l.discarding && q != l.recvSeq then { l with corrNow := l.corrNow + n } else { l with corrNow := l.corrNow + n, recvSeq := q + 1, discarding := false, nakDue := none })) := by
  intro l
  refine (if_neg (Nat.not_lt.2 hlane)).trans ?_
  exact congrArg Host.Outcome.next (if_neg (Nat.not_lt.2 hn))

/-- A NAK that is not the eighth failed replay (R511). -/
theorem execNakReceived_replays {q : BitVec 12} {n : Nat} (hlane : lane.toNat ≤ 8) :
    let l := AMap.get {} (s.port port).lanes lane.toNat
    (l.retryFrom ≠ some q ∨ l.replays < 8) →
      exec (.nakReceived port lane q n) s =
        .next (s.setLane port lane { l with retryFrom := some q, replays := if l.retryFrom = some q then l.replays + 1 else 1, replay := satAdd l.replay (min n 256) }) := by
  intro l hmore
  have hnot : ¬ (l.retryFrom == some q && decide (8 ≤ l.replays)) = true := by
    intro h
    obtain ⟨hq, h8⟩ := Bool.and_eq_true_iff.1 h
    exact hmore.elim (fun hne => hne (beq_iff_eq.1 hq)) (fun hlt => Nat.not_le.2 hlt (of_decide_eq_true h8))
  refine (if_neg (Nat.not_lt.2 hlane)).trans ?_
  refine congrArg Host.Outcome.next ((if_neg hnot).trans ?_)
  rw [if_congr beq_iff_eq rfl rfl]

/-- The eighth failed replay of a SEQ (R512). -/
theorem execNakReceived_fails {q : BitVec 12} {n : Nat} (hlane : lane.toNat ≤ 8) :
    let l := AMap.get {} (s.port port).lanes lane.toNat
    let u := s.setLane port lane { l with failed := true, retryFrom := none, replays := 0 }
    l.retryFrom = some q → 8 ≤ l.replays → (s.port port).spareIn = false → (s.port port).spareTraining = none →
      exec (.nakReceived port lane q n) s = .next (u.setPort port { u.port port with spareTraining := some lane }) := by
  intro l u hq h8 hin htraining
  have hlast : (l.retryFrom == some q && decide (8 ≤ l.replays)) = true := by
    rw [hq, beq_self_eq_true, decide_eq_true h8]
    rfl
  have hspare : ¬ ((s.port port).spareIn || (s.port port).spareTraining.isSome) = true := by
    rw [hin, htraining]
    exact Bool.false_ne_true
  refine (if_neg (Nat.not_lt.2 hlane)).trans ?_
  exact congrArg Host.Outcome.next ((if_pos hlast).trans (if_neg hspare))

/-- An ACK at or past the SEQ of a replay (R511). -/
theorem execAckReceived_ends {q r : BitVec 12} (hlane : lane.toNat ≤ 8) (hr : (AMap.get {} (s.port port).lanes lane.toNat).retryFrom = some r) (hfreed : (q - r).toNat < 2048) :
    exec (.ackReceived port lane q) s = .next (s.setLane port lane { AMap.get {} (s.port port).lanes lane.toNat with ackSeq := q + 1, retryFrom := none, replays := 0 }) := by
  refine (if_neg (Nat.not_lt.2 hlane)).trans (congrArg Host.Outcome.next ?_)
  dsimp only
  rw [hr]
  dsimp only
  rw [if_pos (decide_eq_true hfreed), if_pos (decide_eq_true hfreed)]

/-- An ACK with no replay under way (R511). -/
theorem execAckReceived_quiet {q : BitVec 12} (hlane : lane.toNat ≤ 8) (hr : (AMap.get {} (s.port port).lanes lane.toNat).retryFrom = none) :
    exec (.ackReceived port lane q) s = .next (s.setLane port lane { AMap.get {} (s.port port).lanes lane.toNat with ackSeq := q + 1 }) := by
  refine (if_neg (Nat.not_lt.2 hlane)).trans (congrArg Host.Outcome.next ?_)
  dsimp only
  rw [hr]
  rfl

end Lanes

/-! ### Training -/

section Training

variable {s t : State} {port : PortId}

theorem AMap.get_map_value {α β : Type} {d : α} (f : α → β) (m : AMap α) (k : Nat) : AMap.get (f d) (m.map fun l => (l.1, f l.2)) k = f (AMap.get d m k) := by
  induction m with
  | nil => rfl
  | cons e m ih =>
    rw [List.map_cons, AMap.get_cons]
    obtain ⟨a, v⟩ := e
    rw [AMap.get_cons]
    by_cases h : a = k
    · rw [if_pos h, if_pos h]
    · rw [if_neg h, if_neg h, ih]

theorem AMap.get_of_unlisted {α : Type} {d : α} {m : AMap α} {k : Nat} (h : k ∉ m.map (·.1)) : AMap.get d m k = d := by
  obtain hd | hm := AMap.get_mem d m k
  · exact hd
  · exact absurd (List.mem_map.2 ⟨_, hm, rfl⟩) h

/-- Leaving out the entries that hold the default changes no value. -/
theorem AMap.get_filter_ne {α : Type} [DecidableEq α] {d : α} {m : AMap α} (k : Nat) (hnodup : (m.map (·.1)).Nodup) : AMap.get d (m.filter fun l => l.2 != d) k = AMap.get d m k := by
  induction m with
  | nil => rfl
  | cons e m ih =>
    obtain ⟨a, v⟩ := e
    rw [List.map_cons, List.nodup_cons] at hnodup
    obtain ⟨hfresh, hrest⟩ := hnodup
    by_cases hv : v = d
    · rw [List.filter_cons_of_neg (by simp [hv]), ih hrest, AMap.get_cons]
      by_cases hk : a = k
      · rw [if_pos hk, hv]
        exact AMap.get_of_unlisted (hk ▸ hfresh)
      · rw [if_neg hk]
    · rw [List.filter_cons_of_pos (by simpa using hv), AMap.get_cons, AMap.get_cons, ih hrest]

/-- A lane as training leaves it (R515): on its own number, its counts kept. -/
def Lane.trained (l : Lane) : Lane := { corr := l.corr, uncorr := l.uncorr, replay := l.replay }

/-- A port as training leaves it, before it takes a role (R515). -/
def Port.trained (p : Port) (r : TrainResult) : Port :=
  { p with state := 1, role := 0, neighbour := r.neighbour, nport := r.nport, delay := r.delay, lanes := (p.lanes.map fun l => (l.1, l.2.trained)).filter fun l => l.2 != {}, failedLane := 0xF, spareIn := false, spareTraining := none, bellOut := [], bellIn := [] }

theorem Port.trained_lane {p : Port} {r : TrainResult} (k : Nat) (hnodup : (p.lanes.map (·.1)).Nodup) : AMap.get {} (p.trained r).lanes k = (AMap.get {} p.lanes k).trained := by
  have hkeys : ((p.lanes.map fun l => (l.1, l.2.trained)).map (·.1)).Nodup := by
    rw [List.map_map]
    exact hnodup
  exact (AMap.get_filter_ne k hkeys).trans (AMap.get_map_value (d := ({} : Lane)) Lane.trained p.lanes k)

/-- What training gives a port whatever its role, compared with the port before. -/
structure Trained (p : Port) (r : TrainResult) (q : Port) : Prop where
  neighbour : q.neighbour = r.neighbour
  nport : q.nport = r.nport
  delay : q.delay = r.delay
  failedLane : q.failedLane = 0xF
  spareIn : q.spareIn = false
  lanes : q.lanes = (p.trained r).lanes

/-- The state of a trained port that is classified: in use by its role, or unused and reported (R514, R521). -/
theorem State.classify_eq (hstate : (s.port port).state = 1) :
    let p := s.port port
    let r := linkRole s.system.module port p.neighbour p.nport
    s.classify port =
      if r == 0 || (r != 3 && decide (960 < p.delay.toNat)) then (s.setPort port { p with state := 3, role := 0 }).logReport 0x3006 (opticalD0 port.toNat) (p.neighbour.setWidth 64) 0
      else s.setPort port { p with state := 2, role := r } :=
  if_neg (by rw [hstate]; decide)

/-- A report of the reeve's log changes the log, the fault summary and what the management bus is told, no more (R380, R382). -/
theorem State.logReport_hub (code : Code) (d0 d1 d2 : Word) :
    ∃ f l, (s.logReport code d0 d1 d2).hub = { s.hub with faults := f, i3c.ibi := l, seq := s.hub.seq + 1 } := by
  obtain ⟨x, l, h⟩ := s.hub.sumUp_eq { code := code, time := s.stamp, d0 := d0, d1 := d1, d2 := d2 }
  refine ⟨({ s.hub.faults with sum := x } : HubFaults).enterLog { code := code, time := s.stamp, d0 := d0, d1 := d1, d2 := d2, seq := s.hub.seq }, l, ?_⟩
  dsimp only [State.logReport, State.modHub]
  rw [h]

theorem State.logReport_boot (code : Code) (d0 d1 d2 : Word) : (s.logReport code d0 d1 d2).hub.boot = s.hub.boot := by
  obtain ⟨f, l, h⟩ := s.logReport_hub code d0 d1 d2
  rw [h]

theorem State.classify_frame : (s.classify port).system = s.system ∧ (s.classify port).hub.boot = s.hub.boot := by
  unfold State.classify
  dsimp only
  split
  · exact ⟨rfl, rfl⟩
  · split
    · exact ⟨rfl, State.logReport_boot _ _ _ _⟩
    · exact ⟨rfl, rfl⟩

theorem State.classifyAll_frame (l : List PortId) : (l.foldl State.classify s).system = s.system ∧ (l.foldl State.classify s).hub.boot = s.hub.boot := by
  induction l generalizing s with
  | nil => exact ⟨rfl, rfl⟩
  | cons a l ih =>
    obtain ⟨hsystem, hboot⟩ := ih (s := s.classify a)
    exact ⟨hsystem.trans State.classify_frame.1, hboot.trans State.classify_frame.2⟩

/-- A port of an unpaired module that trains, by whether the module has its number. -/
theorem execLinkTraining_unpaired {r : TrainResult} (hok : r.ok = true) (hpair : ¬ (s.hub.faults.lockEnable && port == s.hub.faults.lockPort) = true) :
    let u := s.setPort port ((s.port port).trained r)
    exec (.linkTraining port r) s =
      .next (if s.hub.boot.linked then
          (if s.hub.boot.bellZero && ((u.classify port).port port).role == 2 then (u.classify port).sendWord port (bellWord 3 0xFF 0 (s.system.stime.toNat + 10000)) else u.classify port)
        else u) := by
  intro u
  refine (if_neg (by rw [hok]; exact Bool.false_ne_true)).trans ((if_neg hpair).trans ?_)
  by_cases hlinked : s.hub.boot.linked = true
  · rw [if_pos hlinked]
    refine (if_neg (by rw [show (s.setPort port _).hub = s.hub from rfl, hlinked]; exact Bool.false_ne_true)).trans ?_
    rw [← show (u.classify port).hub.boot = s.hub.boot from State.classify_frame.2, ← show (u.classify port).system = s.system from State.classify_frame.1]
    rfl
  · rw [if_neg hlinked]
    exact if_pos (by rw [show (s.setPort port _).hub = s.hub from rfl, Bool.not_eq_true'] ; exact Bool.eq_false_of_not_eq_true hlinked)

/-- A port through which the module is paired trains (R400, R515). -/
theorem execLinkTraining_paired {r : TrainResult} (hok : r.ok = true) (hpair : (s.hub.faults.lockEnable && port == s.hub.faults.lockPort) = true) :
    exec (.linkTraining port r) s =
      .next (s.setPort port { (s.port port).trained r with state := if r.neighbour = s.hub.faults.partner ∧ r.namesUs = true ∧ r.nport = port then 4 else 3 }) := by
  have hmeets : (r.neighbour == s.hub.faults.partner && r.namesUs && r.nport == port) = true ↔ (r.neighbour = s.hub.faults.partner ∧ r.namesUs = true ∧ r.nport = port) := by
    rw [Bool.and_eq_true_iff, Bool.and_eq_true_iff, beq_iff_eq, beq_iff_eq, and_assoc]
  rw [← if_congr hmeets rfl rfl]
  exact (if_neg (by rw [hok]; exact Bool.false_ne_true)).trans (if_pos hpair)

theorem refusesRole_iff {role : BitVec 2} {d : BitVec 12} : (role == 0 || (role != 3 && decide (960 < d.toNat))) = true ↔ (role = 0 ∨ (role ≠ 3 ∧ 960 < d.toNat)) := by
  rw [Bool.or_eq_true_iff, Bool.and_eq_true_iff, beq_iff_eq, bne_iff_ne, decide_eq_true_iff]

variable {r : TrainResult} {p : Port}

theorem Port.trained_trained : Trained p r (p.trained r) := ⟨rfl, rfl, rfl, rfl, rfl, rfl⟩

/-- A trained port that its role refuses goes unused with a report (R514, R521). -/
theorem State.classify_refused (hport : s.port port = p.trained r) (hrole : linkRole s.system.module port r.neighbour r.nport = 0 ∨ (linkRole s.system.module port r.neighbour r.nport ≠ 3 ∧ 960 < r.delay.toNat)) :
    (s.classify port).port port = { p.trained r with state := 3, role := 0 } ∧ (s.classify port).hub.faults.logLast = 0x3006 := by
  have h := State.classify_eq (s := s) (port := port) (by rw [hport]; rfl)
  rw [hport] at h
  rw [h.trans (if_pos (refusesRole_iff.2 hrole))]
  exact ⟨State.setPort_port_same _ _ _, rfl⟩

/-- A trained port that its role admits is in use (R514, R521). -/
theorem State.classify_admitted (hport : s.port port = p.trained r) (hrole : ¬ (linkRole s.system.module port r.neighbour r.nport = 0 ∨ (linkRole s.system.module port r.neighbour r.nport ≠ 3 ∧ 960 < r.delay.toNat))) :
    (s.classify port).port port = { p.trained r with state := 2, role := linkRole s.system.module port r.neighbour r.nport } := by
  have h := State.classify_eq (s := s) (port := port) (by rw [hport]; rfl)
  rw [hport] at h
  rw [h.trans (if_neg fun hr => hrole (refusesRole_iff.1 hr))]
  exact State.setPort_port_same _ _ _

/-- What becomes of a port that trains in a module that has its number and is not paired through it (R514, R516, R521). -/
theorem execLinkTraining_linked (hok : r.ok = true) (hpair : ¬ (s.hub.faults.lockEnable && port == s.hub.faults.lockPort) = true) (hlinked : s.hub.boot.linked = true) :
    let role := linkRole s.system.module port r.neighbour r.nport
    ∃ t, exec (.linkTraining port r) s = .next t ∧ Trained (s.port port) r (t.port port) ∧
      (¬ (role = 0 ∨ (role ≠ 3 ∧ 960 < r.delay.toNat)) → (t.port port).state = 2 ∧ (t.port port).role = role) ∧
      ((role = 0 ∨ (role ≠ 3 ∧ 960 < r.delay.toNat)) → (t.port port).state = 3 ∧ t.hub.faults.logLast = 0x3006) := by
  intro role
  have hexec := (execLinkTraining_unpaired hok hpair).trans (congrArg Host.Outcome.next (if_pos hlinked))
  have hport : (s.setPort port ((s.port port).trained r)).port port = (s.port port).trained r := State.setPort_port_same _ _ _
  generalize hu : s.setPort port ((s.port port).trained r) = u at hexec hport
  have hmodule : u.system = s.system := by
    rw [← hu]
    rfl
  by_cases hrole : role = 0 ∨ (role ≠ 3 ∧ 960 < r.delay.toNat)
  · obtain ⟨hc, hlog⟩ := State.classify_refused (s := u) hport (by rw [hmodule]; exact hrole)
    refine ⟨_, hexec.trans (congrArg Host.Outcome.next (if_neg (by rw [hc]; simp))), ?_, fun h => absurd hrole h, fun _ => ⟨?_, hlog⟩⟩
    · rw [hc]
      exact ⟨rfl, rfl, rfl, rfl, rfl, rfl⟩
    · rw [hc]
  · have hc := State.classify_admitted (s := u) hport (by rw [hmodule]; exact hrole)
    rw [hmodule] at hc
    refine ⟨_, hexec, ?_⟩
    split
    · have hsent := (State.sendWord_sent (s := u.classify port) port (bellWord 3 0xFF 0 (s.system.stime.toNat + 10000))).port port
      rw [hsent, hc]
      exact ⟨⟨rfl, rfl, rfl, rfl, rfl, rfl⟩, fun _ => ⟨rfl, rfl⟩, fun h => absurd h hrole⟩
    · rw [hc]
      exact ⟨⟨rfl, rfl, rfl, rfl, rfl, rfl⟩, fun _ => ⟨rfl, rfl⟩, fun h => absurd h hrole⟩

/-- A module that has its number and depth, before its ports take their roles (R513). -/
def State.numbered (s : State) (r : LinksResult) : State :=
  let m : BitVec 12 := if s.system.root || !r.lit then 0 else r.module
  ({ s with system := { s.system with module := m, depth := BitVec.ofNat 3 (depthOf m), standalone := !s.system.root && !r.lit } } : State).modHub fun h =>
    { h with boot.linked := true, boot.phase := if h.boot.fieldTested then 6 else h.boot.phase }

theorem execLinksDone_eq {r : LinksResult} (hgo : ¬ (!s.testing || s.hub.boot.linked) = true) (hok : r.ok = true) :
    exec (.linksDone r) s = .next (((List.range 16).map (BitVec.ofNat 4)).foldl State.classify (s.numbered r)) := by
  generalize hl : (List.range 16).map (BitVec.ofNat 4) = l
  show execLinksDone r s = _
  unfold execLinksDone
  rw [if_neg hgo, if_neg (by rw [hok]; exact Bool.false_ne_true), hl]
  rfl

/-- The module has its number and depth once its links are done (R513). -/
theorem execLinksDone_links {r : LinksResult} (hgo : ¬ (!s.testing || s.hub.boot.linked) = true) (hok : r.ok = true) :
    ∃ t, exec (.linksDone r) s = .next t ∧ t.system = (s.numbered r).system ∧ t.hub.boot = (s.numbered r).hub.boot :=
  ⟨_, execLinksDone_eq hgo hok, State.classifyAll_frame _⟩

end Training

end Sys2Proof.Machine

namespace Sys2Proof.Claims

open Sys2Proof.Machine

/-- Settles O50. -/
theorem lanesCorrectAndReplay : Obligations.LanesCorrectAndReplay := by
  unfold Obligations.LanesCorrectAndReplay
  refine ⟨?_, ?_, ?_, ?_, ?_⟩
  · intro s port lane q n hlane p l
    refine ⟨fun hn htaken => ?_, fun hn hdiscarding hq => ?_, fun hn => execCodewordReceived_bad hlane hn, fun hmore => execNakReceived_replays hlane hmore, fun hq h8 hin htraining => ?_, fun r hr hfreed => ?_, fun hr => ?_⟩
    · refine (execCodewordReceived_good hlane hn).trans (congrArg (fun l => Host.Outcome.next (s.setLane port lane l)) (if_neg fun h => ?_))
      obtain ⟨hd, hne⟩ := Bool.and_eq_true_iff.1 h
      exact htaken.elim (fun hf => nomatch hd.symm.trans hf) (bne_iff_ne.1 hne)
    · refine (execCodewordReceived_good hlane hn).trans (congrArg (fun l => Host.Outcome.next (s.setLane port lane l)) (if_pos ?_))
      exact Bool.and_eq_true_iff.2 ⟨hdiscarding, bne_iff_ne.2 hq⟩
    · refine ⟨_, execNakReceived_fails hlane hq h8 hin htraining, ?_, ?_, ?_⟩
      · rw [State.setPort_port_same]
      · rw [State.setPort_port_same, State.setLane, State.setPort_port_same]
        exact congrArg Lane.failed (AMap.get_put_same _ _ _ _)
      · rw [State.setPort_port_same, State.setLane, State.setPort_port_same]
    · exact (execAckReceived_ends hlane hr hfreed)
    · exact ⟨_, execAckReceived_quiet hlane hr, rfl⟩
  · intro s port k hk
    show execSpareLaneTrained port true s = _
    unfold execSpareLaneTrained
    dsimp only
    rw [hk]
    rfl
  · intro s port r pair role
    have hpairIff : pair ↔ (s.hub.faults.lockEnable && port == s.hub.faults.lockPort) = true := by rw [Bool.and_eq_true_iff, beq_iff_eq]
    refine ⟨fun hno => if_pos (by rw [hno]; rfl), fun hok hnodup => ?_⟩
    have hlanes : ∀ q, Trained (s.port port) r q → ∀ k, (AMap.get {} q.lanes k).failed = false ∧ (AMap.get {} q.lanes k).uncorr = (AMap.get {} (s.port port).lanes k).uncorr := by
      intro q hq k
      rw [hq.lanes, Port.trained_lane k hnodup]
      exact ⟨rfl, rfl⟩
    by_cases hpair : pair
    · refine ⟨_, execLinkTraining_paired hok (hpairIff.1 hpair), ?_⟩
      rw [State.setPort_port_same]
      exact ⟨rfl, rfl, rfl, rfl, rfl, hlanes _ ⟨rfl, rfl, rfl, rfl, rfl, rfl⟩, fun _ => rfl, fun h => absurd hpair h, fun h => absurd hpair h, fun h => absurd hpair h⟩
    · have hno := fun h => hpair (hpairIff.2 h)
      by_cases hlinked : s.hub.boot.linked = true
      · obtain ⟨t, hexec, ht, hin, hout⟩ := execLinkTraining_linked hok hno hlinked
        have hadmits : role = 3 ∨ (role ≠ 0 ∧ r.delay.toNat ≤ 960) → ¬ (role = 0 ∨ (role ≠ 3 ∧ 960 < r.delay.toNat)) := by
          rintro (h3 | ⟨hne, hle⟩) (h0 | ⟨hne3, hlt⟩)
          · exact nomatch h3.symm.trans h0
          · exact hne3 h3
          · exact hne h0
          · exact Nat.not_lt.2 hle hlt
        exact ⟨t, hexec, ht.neighbour, ht.nport, ht.delay, ht.failedLane, ht.spareIn, hlanes _ ht, fun h => absurd h hpair, fun _ hoff => (nomatch hlinked.symm.trans hoff),
          fun _ _ hr => hin (hadmits hr), fun _ _ hr => hout hr⟩
      · refine ⟨_, (execLinkTraining_unpaired hok hno).trans (congrArg Host.Outcome.next (if_neg hlinked)), ?_⟩
        rw [State.setPort_port_same]
        exact ⟨rfl, rfl, rfl, rfl, rfl, hlanes _ Port.trained_trained, fun h => absurd h hpair, fun _ _ => rfl, fun _ hon => absurd hon hlinked, fun _ hon => absurd hon hlinked⟩
  · intro s r htesting hlinked hok
    have hgo : ¬ (!s.testing || s.hub.boot.linked) = true := by
      rw [htesting, hlinked]
      exact Bool.false_ne_true
    obtain ⟨u, hexec, hsystem, hboot⟩ := execLinksDone_links hgo hok
    refine ⟨u, hexec, ?_⟩
    rw [hsystem, hboot]
    exact ⟨rfl, rfl, rfl, rfl, fun htested => if_pos htested⟩
  · intro s port husers hlock
    have hnot : ¬ (s.hub.faults.lockEnable && port == s.hub.faults.lockPort) = true := by
      intro h
      obtain ⟨hon, hport⟩ := Bool.and_eq_true_iff.1 h
      exact hlock.elim (fun hoff => nomatch hon.symm.trans hoff) (fun hne => hne (beq_iff_eq.1 hport))
    have hdown : exec (.opticalLinkDown port) s = .next ((s.setPort port { s.port port with state := 3, spareTraining := none }).logReport 0x3006 (opticalD0 port.toNat) ((s.port port).neighbour.setWidth 64) 0) :=
      congrArg Host.Outcome.next ((if_neg hnot).trans (if_pos (by rw [husers]; rfl)))
    refine ⟨_, hdown, ?_, rfl, rfl⟩
    exact congrArg Port.state (State.setPort_port_same _ _ _)

end Sys2Proof.Claims
end

section
/-! Bell words, joins and gates (R60, R374, R385, R510, R516 to R532): O51. -/

namespace Sys2Proof.Machine

/-! ### Words -/

section Words

variable {s t u : State} {port : PortId} {w : Word} {fn : Fn} {g : BitVec 8}

theorem wordKind_eq {n : BitVec 4} (h : w.extractLsb' 0 4 = n) : wordKind w = n.toNat := congrArg BitVec.toNat h

theorem ofNat_wordBell : BitVec.ofNat 12 (wordBell w) = w.extractLsb' 12 12 := BitVec.ofNat_toNat _ _ |>.trans (BitVec.setWidth_eq _)

/-- A state whose port has lost a word that was taken. -/
def State.tookWord (s : State) (port : PortId) (w : Word) : State := s.setPort port { s.port port with bellIn := (s.port port).bellIn.erase w }

theorem State.tookWord_port : (s.tookWord port w).port port = { s.port port with bellIn := (s.port port).bellIn.erase w } := State.setPort_port_same _ _ _

theorem State.tookWord_role : ((s.tookWord port w).port port).role = (s.port port).role := by rw [State.tookWord_port]

/-- A word of its kind that waits at a port is taken. -/
theorem word_taken {n : BitVec 4} (hkind : w.extractLsb' 0 4 = n) (hw : w ∈ (s.port port).bellIn) : ¬ (wordKind w != n.toNat || !(s.port port).bellIn.contains w) = true := by
  rw [wordKind_eq hkind, List.contains_iff_mem.2 hw, bne_self_eq_false]
  exact Bool.false_ne_true

theorem State.groupPlot_congr (h : t.plots = s.plots) : t.groupPlot g = s.groupPlot g := by
  unfold State.groupPlot State.plotNumbers State.plot
  rw [h]

/-- A stop leaves the plot's books but for what it undoes (R374). -/
theorem State.restorePlot_bellPart : ((s.restorePlot fn).plot fn).bellPart = (s.plot fn).bellPart := by
  have hbooks : Clerical 0 s ((s.clearMesh fn).noteJournals fn) := State.clearMesh_clerical.andThen State.noteJournals_clerical
  have hread : Aside 0 ((s.clearMesh fn).noteJournals fn) (((s.clearMesh fn).noteJournals fn).readImages fn) := State.readList_aside _
  have hplot := (hread.plot fn).trans (hbooks.plot fn)
  have hs : s.restorePlot fn = (((((s.clearMesh fn).noteJournals fn).readImages fn).mapCores fn CoreState.restoreStep).mapChannels fn Channel.restoreStep).modPlot fn
      (fun p => { p with rounds := [], commons.requests := [], sbase := p.sbaseImage, faults.attemptReports := [] }) := rfl
  rw [hs]
  generalize ((s.clearMesh fn).noteJournals fn).readImages fn = v at hplot
  obtain ⟨cs, hcs⟩ := v.mapCores_frame fn CoreState.restoreStep
  rw [hcs, State.modPlot_eq, State.setPlot_plot_same]
  exact hplot

/-- A step that a STOP word undoes, before the plot stops (R374): its reports are queued, and the record takes its block. -/
def State.undoneStep (s : State) (fn : Fn) (rs : List Report) (evs : List EventEntry) : State :=
  let v := ((s.queueReports fn rs).restorePlot fn).modPlot fn (fun p => { p with bell.attempt := satAdd p.bell.attempt 1 })
  if (s.plot fn).run.isOpen then v.addBlock fn (v.stepBlock fn [] evs) [3] (s.plot fn).bell.bell else v

theorem State.undoneStep_books (rs : List Report) (evs : List EventEntry) :
    ((s.undoneStep fn rs evs).plot fn).step = (s.plot fn).step ∧ ((s.undoneStep fn rs evs).plot fn).packets.staged = (s.plot fn).packets.staged ∧
      ((s.undoneStep fn rs evs).plot fn).bell.bell = (s.plot fn).bell.bell := by
  let v := (s.queueReports fn rs).restorePlot fn
  let v1 := v.modPlot fn (fun p => { p with bell.attempt := satAdd p.bell.attempt 1 })
  let v2 := s.undoneStep fn rs evs
  show (v2.plot fn).step = _ ∧ (v2.plot fn).packets.staged = _ ∧ (v2.plot fn).bell.bell = _
  have hv : (v.plot fn).bellPart = (s.plot fn).bellPart := State.restorePlot_bellPart.trans ((s.queueReports_clerical fn rs).plot fn)
  have hv1 : v1.plot fn = { v.plot fn with bell.attempt := satAdd (v.plot fn).bell.attempt 1 } := State.setPlot_plot_same _ _ _
  have hv2 : Clerical 2 v1 v2 := by
    show Clerical 2 v1 (if (s.plot fn).run.isOpen then v1.addBlock fn (v1.stepBlock fn [] evs) [3] (s.plot fn).bell.bell else v1)
    split
    · exact v1.addBlock_clerical fn _ _ _
    · exact (Clerical.refl v1).mono (Nat.zero_le 2)
  clear_value v2 v
  have h := hv2.plot fn
  have hstep := Plot.bellPart_step hv
  have hstaged := Plot.bellPart_staged hv
  have hbell := Plot.bellPart_bell hv
  rw [Plot.bellPart_step h, Plot.bellPart_staged h, Plot.bellPart_bell h, hv1]
  exact ⟨hstep, hstaged, hbell⟩

theorem State.undoneStep_stops (code : Code) (rs : List Report) (evs : List EventEntry) (hlate : Claims.NoLatePackets (s.plot fn)) :
    (((s.undoneStep fn rs evs).stopNow fn code).plot fn).place.state = 5 ∧ (((s.undoneStep fn rs evs).stopNow fn code).plot fn).bell.bell = (s.plot fn).bell.bell := by
  obtain ⟨hstep, hstaged, hb⟩ := s.undoneStep_books (fn := fn) rs evs
  generalize s.undoneStep fn rs evs = v at hstep hstaged hb ⊢
  have hlate2 : Claims.NoLatePackets (v.plot fn) := by
    unfold Claims.NoLatePackets
    rw [hstep, hstaged]
    exact hlate
  have hstop := v.stopNow_stopped fn code hlate2
  exact ⟨hstop.state, hstop.bell.trans hb⟩

theorem State.closeBetween_stops (code : Code) (hlate : Claims.NoLatePackets (s.plot fn)) :
    (((s.closeBetween fn []).stopNow fn code).plot fn).place.state = 5 ∧ (((s.closeBetween fn []).stopNow fn code).plot fn).bell.bell = (s.plot fn).bell.bell := by
  have hbooks := s.closeBetween_clerical fn []
  generalize s.closeBetween fn [] = v at hbooks ⊢
  have hstop := v.stopNow_stopped fn code (noLatePackets_congr hlate (hbooks.plot fn))
  exact ⟨hstop.state, hstop.bell.trans (Plot.bellPart_bell (hbooks.plot fn))⟩

/-- A member that a STOP word names stops: in a step, which is undone, or between steps (R374, R524). -/
theorem State.stopMember_eq {bell : Nat} (hgo : ¬ ((s.plot fn).place.state != 3 || (s.plot fn).bell.bell.toNat % 4096 != bell) = true) :
    ∃ code rs evs, s.stopMember fn bell = (({ s with hub := { s.hub with seq := s.hub.seq + 1 } } : State).undoneStep fn rs evs).stopNow fn code ∨
      s.stopMember fn bell = (({ s with hub := { s.hub with seq := s.hub.seq + 1 } } : State).closeBetween fn []).stopNow fn code := by
  by_cases hstep : ((s.plot fn).step.phase == .running || (s.plot fn).step.phase == .arrived || (s.plot fn).step.phase == .abandoned) = true
  · exact ⟨_, _, _, .inl ((if_neg hgo).trans (if_pos hstep))⟩
  · exact ⟨_, [], [], .inr ((if_neg hgo).trans (if_neg hstep))⟩

/-- A member that a STOP word stops (R374, R524). -/
theorem State.stopMember_stops {bell : Nat} (hstate : (s.plot fn).place.state = 3) (hlate : Claims.NoLatePackets (s.plot fn)) (hbell : (s.plot fn).bell.bell.toNat % 4096 = bell) :
    ((s.stopMember fn bell).plot fn).place.state = 5 ∧ ((s.stopMember fn bell).plot fn).bell.bell = (s.plot fn).bell.bell := by
  have hgo : ¬ ((s.plot fn).place.state != 3 || (s.plot fn).bell.bell.toNat % 4096 != bell) = true := by
    rw [hstate, hbell, bne_self_eq_false, bne_self_eq_false]
    exact Bool.false_ne_true
  obtain ⟨code, rs, evs, h⟩ := s.stopMember_eq hgo
  generalize hu : ({ s with hub := { s.hub with seq := s.hub.seq + 1 } } : State) = u at h
  have hplot : u.plot fn = s.plot fn := by
    rw [← hu]
    rfl
  rw [← hplot] at hlate ⊢
  obtain h | h := h
  · rw [h]
    exact u.undoneStep_stops code rs evs hlate
  · rw [h]
    exact u.closeBetween_stops code hlate

theorem Sent.system (h : Sent s t) : t.system = s.system := by rw [h.rest]

theorem Sent.core (h : Sent s t) (c : CoreId) : t.core c = s.core c := by
  rw [h.rest]
  rfl

/-- A word that goes down the branches, as the words of a parent do. -/
theorem State.spread_down (hrole : (s.port port).role = 1) : s.spread port w = s.sendDown (wordGroup w) w :=
  if_pos (by rw [hrole, Bool.or_eq_true_iff]; exact .inr rfl)

theorem State.takesWord_parent (hrole : (s.port port).role = 1) : s.takesWord port = true := by
  unfold State.takesWord
  rw [hrole, Bool.or_eq_true_iff]
  exact .inr rfl

/-- SYNC from the parent (R517). -/
theorem execSync_parent {correction : Int} (hkind : w.extractLsb' 0 4 = 0) (hw : w ∈ (s.port port).bellIn) (hrole : (s.port port).role = 1) :
    let u := s.tookWord port w
    exec (.sync port w correction) s =
      .next (({ u with system := { u.system with slew := correction } } : State).setPort port { u.port port with skew := (u.port port).skew || decide (8 < correction.natAbs) }) := by
  intro u
  refine (if_neg (word_taken hkind hw)).trans (congrArg Host.Outcome.next ?_)
  exact if_pos (beq_iff_eq.2 (State.tookWord_role (w := w) |>.trans hrole))

/-- SYNC from a child (R517). -/
theorem execSync_child {correction : Int} (hkind : w.extractLsb' 0 4 = 0) (hw : w ∈ (s.port port).bellIn) (hrole : (s.port port).role = 2) :
    exec (.sync port w correction) s = .next ((s.tookWord port w).sendWord port (bellWord 0 0xFF 0 (s.tookWord port w).system.stime.toNat)) := by
  refine (if_neg (word_taken hkind hw)).trans (congrArg Host.Outcome.next ?_)
  have h1 : ¬ (((s.tookWord port w).port port).role == 1) = true := by
    rw [State.tookWord_role, hrole]
    decide
  exact (if_neg h1).trans (if_pos (beq_iff_eq.2 (State.tookWord_role.trans hrole)))

/-- The words of arrival that a module holds, with one more. -/
def System.withArrival (y : System) (key : BitVec 8 × BitVec 12 × PortId) : System :=
  { y with arrivedWords := if key ∈ y.arrivedWords then y.arrivedWords else y.arrivedWords ++ [key] }

/-- ARRIVE from a child (R520). -/
theorem execArrive_registers (hkind : w.extractLsb' 0 4 = 1) (hw : w ∈ (s.port port).bellIn) :
    let u := s.tookWord port w
    exec (.arrive port w) s = .next (({ u with system := u.system.withArrival (wordGroup w, w.extractLsb' 12 12, port) } : State).afterArrival (wordGroup w) (wordBell w)) := by
  intro u
  refine (if_neg (word_taken hkind hw)).trans (congrArg Host.Outcome.next ?_)
  rw [← ofNat_wordBell]
  unfold System.withArrival
  rw [← if_congr List.contains_iff_mem rfl rfl]
  rfl

theorem execEdge_eq (hkind : w.extractLsb' 0 4 = 2) (hw : w ∈ (s.port port).bellIn) :
    let u := s.tookWord port w
    exec (.edge port w) s = .next (if u.system.root then u.groupEdge (wordGroup w) (wordBell w) (nearestTime u.system.stime.toNat (wordValue w)) else u.sendWord 0 w) :=
  if_neg (word_taken hkind hw)

/-- RING of the whole system (R516). -/
theorem execRing_all (hkind : w.extractLsb' 0 4 = 3) (hw : w ∈ (s.port port).bellIn) (hg : wordGroup w = 0xFF) (hzero : s.hub.boot.bellZero = false) :
    let u := s.tookWord port w
    exec (.ring port w) s = .next (({ u with system := { u.system with ringFrom := some (nearestTime u.system.stime.toNat (wordValue w)) } } : State).sendAll w) := by
  intro u
  refine (if_neg (word_taken hkind hw)).trans (congrArg Host.Outcome.next ?_)
  refine (if_pos (beq_iff_eq.2 hg)).trans (congrArg (State.sendAll · w) ?_)
  exact if_neg (ne_true_of_eq_false hzero)

/-- The state that RING of a group leaves before it sets the epoch of the group's plot (R520). -/
def State.rung (s : State) (w : Word) : State :=
  let v := s.sendDown (wordGroup w) w
  { v with system := { v.system with arrivedWords := v.system.arrivedWords.filter fun a => !(a.1 == wordGroup w && a.2.1.toNat == wordBell w) } }

/-- RING of a group (R520). -/
theorem execRing_group (hkind : w.extractLsb' 0 4 = 3) (hw : w ∈ (s.port port).bellIn) (hg : wordGroup w ≠ 0xFF) :
    ∃ t, exec (.ring port w) s = .next t ∧ t.system = ((s.tookWord port w).rung w).system ∧
      ∀ fn, s.groupPlot (wordGroup w) = some fn → (t.plot fn).step.epoch = some (nearestTime (s.tookWord port w).system.stime.toNat (wordValue w)) := by
  have hsent : Sent (s.tookWord port w) ((s.tookWord port w).sendDown (wordGroup w) w) := State.sendDown_sent _ _
  have hplot : ((s.tookWord port w).rung w).groupPlot (wordGroup w) = s.groupPlot (wordGroup w) := State.groupPlot_congr hsent.plots
  have hexec : exec (.ring port w) s =
      .next (match ((s.tookWord port w).rung w).groupPlot (wordGroup w) with
        | none => (s.tookWord port w).rung w
        | some fn => ((s.tookWord port w).rung w).modPlot fn (fun p => { p with step.epoch := some (nearestTime (s.tookWord port w).system.stime.toNat (wordValue w)) })) :=
    (if_neg (word_taken hkind hw)).trans (congrArg Host.Outcome.next (if_neg fun h => hg (beq_iff_eq.1 h)))
  rw [hplot] at hexec
  cases hfound : s.groupPlot (wordGroup w) with
  | none =>
    rw [hfound] at hexec
    exact ⟨_, hexec, rfl, fun fn h => nomatch h⟩
  | some fn =>
    rw [hfound] at hexec
    refine ⟨_, hexec, rfl, fun g h => ?_⟩
    cases h
    exact congrArg (fun p : Plot => p.step.epoch) (State.setPlot_plot_same _ _ _)

/-- HALT from the parent (R524). -/
theorem execHalt_halts (hkind : w.extractLsb' 0 4 = 4) (hw : w ∈ (s.port port).bellIn) (hrole : (s.port port).role = 1) (hplot : s.groupPlot (wordGroup w) = some fn) :
    exec (.halt port w) s = .next (((s.tookWord port w).sendDown (wordGroup w) w).haltPlot fn) := by
  have hsent : Sent (s.tookWord port w) ((s.tookWord port w).sendDown (wordGroup w) w) := State.sendDown_sent _ _
  refine (if_neg (word_taken hkind hw)).trans (congrArg Host.Outcome.next ?_)
  change (match ((s.tookWord port w).spread port w).groupPlot (wordGroup w) with | some fn => if (s.tookWord port w).takesWord port then ((s.tookWord port w).spread port w).haltPlot fn else (s.tookWord port w).spread port w | none => (s.tookWord port w).spread port w) = _
  rw [State.spread_down (State.tookWord_role.trans hrole), State.groupPlot_congr hsent.plots, State.groupPlot_congr (t := s.tookWord port w) (s := s) rfl, hplot, State.takesWord_parent (State.tookWord_role.trans hrole)]
  rfl

/-- STOP from the parent (R524). -/
theorem execStop_stops (hkind : w.extractLsb' 0 4 = 5) (hw : w ∈ (s.port port).bellIn) (hrole : (s.port port).role = 1) (hplot : s.groupPlot (wordGroup w) = some fn) :
    exec (.stop port w) s = .next (((s.tookWord port w).sendDown (wordGroup w) w).stopMember fn (wordBell w)) := by
  have hsent : Sent (s.tookWord port w) ((s.tookWord port w).sendDown (wordGroup w) w) := State.sendDown_sent _ _
  refine (if_neg (word_taken hkind hw)).trans (congrArg Host.Outcome.next ?_)
  change (match ((s.tookWord port w).spread port w).groupPlot (wordGroup w) with | some fn => if (s.tookWord port w).takesWord port then ((s.tookWord port w).spread port w).stopMember fn (wordBell w) else (s.tookWord port w).spread port w | none => (s.tookWord port w).spread port w) = _
  rw [State.spread_down (State.tookWord_role.trans hrole), State.groupPlot_congr hsent.plots, State.groupPlot_congr (t := s.tookWord port w) (s := s) rfl, hplot, State.takesWord_parent (State.tookWord_role.trans hrole)]
  rfl

/-- CONTROL from the parent (R526, R527). -/
theorem execControl_kept (hkind : w.extractLsb' 0 4 = 6) (hw : w ∈ (s.port port).bellIn) (hrole : (s.port port).role = 1) :
    let v := (s.tookWord port w).sendDown (wordGroup w) w
    exec (.control port w) s = .next (if (v.groupPlot (wordGroup w)).isSome then { v with system := { v.system with control := v.system.control ++ [(wordGroup w, w.extractLsb' 24 40)] } } else v) := by
  refine (if_neg (word_taken hkind hw)).trans (congrArg Host.Outcome.next ?_)
  exact if_neg (by rw [State.setPort_port_same, hrole]; decide)

end Words

/-! ### Joins and group bells -/

section Joins

variable {s t u : State} {fn : Fn} {g : BitVec 8} {st : Staged}

/-- A confirmed plot joins its group at the epoch (R526). -/
theorem execBellEpoch_joins {dh e : Nat} :
    let u := s.advance dh
    (u.plot fn).step.epoch = some e → e ≤ u.system.stime.toNat → (u.plot fn).group.joining = some st →
    ∃ t : State, exec (.bellEpoch fn dh) s = .next t ∧ (t.plot fn).group.joined = true ∧ (t.plot fn).bell.bell = 0 ∧ (t.plot fn).step.lastBell = u.hub.time ∧
      (st.p.flags.getLsbD 2 = false → ∃ d : DevPacket, (t.plot st.p.fn).packets.completions = (u.plot st.p.fn).packets.completions ++ [d] ∧ d.type = 0x81 ∧ d.tag = st.p.tag) := by
  intro u hepoch hdue hjoining
  let v := u.setPlot fn { u.plot fn with step.epoch := none, step.lastBell := u.hub.time, step.everRung := true, bell.bell := 0, bell.attempt := 0, bell.rungs := (u.plot fn).bell.rungs + 1, group := { (u.plot fn).group with joined := true, joining := none, confirmed := false } }
  have hexec : exec (.bellEpoch fn dh) s = .next (v.complete st 0 0) := by
    show execBellEpoch fn dh s = _
    unfold execBellEpoch
    change (match (u.plot fn).step.epoch with | none => _ | some e => _) = _
    rw [hepoch]
    refine (if_neg (Nat.not_lt.2 hdue)).trans ?_
    rw [hjoining]
  have hbooks : Clerical 0 v (v.complete st 0 0) := State.complete_clerical v st 0 0
  have hplot : v.plot fn = { u.plot fn with step.epoch := none, step.lastBell := u.hub.time, step.everRung := true, bell.bell := 0, bell.attempt := 0, bell.rungs := (u.plot fn).bell.rungs + 1, group := { (u.plot fn).group with joined := true, joining := none, confirmed := false } } :=
    State.setPlot_plot_same _ _ _
  have hcompletions : (v.plot st.p.fn).packets.completions = (u.plot st.p.fn).packets.completions := by
    by_cases hfn : st.p.fn = fn
    · rw [hfn, hplot]
    · rw [State.setPlot_plot_ne _ _ hfn]
  have hpart := hbooks.plot fn
  refine ⟨_, hexec, ?_, ?_, ?_, fun hloud => ?_⟩
  · rw [Plot.bellPart_group hpart, hplot]
  · rw [Plot.bellPart_bell hpart, hplot]
  · rw [Plot.bellPart_step hpart, hplot]
  · obtain ⟨d, hd, htype, htag, -⟩ := (State.complete_completions (t := v) (st := st) 0).2 hloud
    exact ⟨d, by rw [hd, hcompletions], htype, htag⟩

/-- A join that is confirmed (R526). -/
def State.confirmJoin (s : State) (fn : Fn) : State := s.modPlot fn (fun p => { p with group.confirmed := true })

/-- The joins of a group confirmed (R526). -/
def State.confirmJoins (s : State) (l : List Fn) : State := l.foldl State.confirmJoin s

theorem State.confirmJoins_system (l : List Fn) : (s.confirmJoins l).system = s.system := by
  induction l generalizing s with
  | nil => rfl
  | cons a l ih => exact ih (s := s.confirmJoin a)

theorem State.confirmJoins_confirmed (l : List Fn) (h : fn ∈ l ∨ (s.plot fn).group.confirmed = true) : ((s.confirmJoins l).plot fn).group.confirmed = true := by
  induction l generalizing s with
  | nil => exact h.elim (fun h => absurd h List.not_mem_nil) id
  | cons a l ih =>
    refine ih ?_
    by_cases ha : fn = a
    · refine .inr ?_
      rw [ha, State.confirmJoin, State.modPlot_eq, State.setPlot_plot_same]
    · rw [State.confirmJoin, State.modPlot_eq, State.setPlot_plot_ne _ _ ha]
      exact h.imp_left fun hmem => (List.mem_cons.1 hmem).resolve_left ha

theorem execJoinConfirmed_member (hroot : s.system.root = false) :
    ∃ t : State, exec (.joinConfirmed g) s = .next t ∧ ∀ fn ∈ s.joiners g, (t.plot fn).group.confirmed = true := by
  have hgo : ¬ (s.system.root && ((s.system.joins.filter fun j => j.groupId == g).map (·.digest)).dedup.length != 1) = true := by
    rw [hroot]
    exact Bool.false_ne_true
  refine ⟨s.confirmJoins (s.joiners g), (if_neg hgo).trans (congrArg Host.Outcome.next (if_neg (ne_true_of_eq_false (congrArg System.root (State.confirmJoins_system _) |>.trans hroot)))), fun fn hfn => State.confirmJoins_confirmed _ (.inl hfn)⟩

theorem State.complete_host (b : BitVec 48) (code : Code) (f : Fn) : ((s.complete st b code).plot f).host = (s.plot f).host := by
  unfold State.complete
  split
  · rfl
  · rw [State.modPlot_eq]
    by_cases hf : f = st.p.fn
    · rw [hf, State.setPlot_plot_same]
      rfl
    · rw [State.setPlot_plot_ne _ _ hf]
      rfl

theorem Plot.vector2_host (p : Plot) : p.vector2.host = p.host := by
  unfold Plot.vector2
  split <;> rfl

theorem State.refuse_errCode (code : Code) : ((s.refuse st code).plot st.p.fn).host.errCode = code := by
  unfold State.refuse
  rw [State.complete_host, State.modPlot_eq, State.setPlot_plot_same, Plot.vector2_host]

theorem State.refuse_system (code : Code) : (s.refuse st code).system = s.system := by
  unfold State.refuse State.complete
  dsimp only
  split <;> rfl

theorem execJoinTimeout_refuses (hjoiners : s.joiners g = [fn]) (hjoining : (s.plot fn).group.joining = some st) (hconfirmed : (s.plot fn).group.confirmed = false) :
    ∃ t : State, exec (.joinTimeout g) s = .next t ∧ (t.plot fn).group = {} ∧ (t.plot st.p.fn).host.errCode = 0x100B ∧ ∀ j ∈ t.system.joins, j.groupId ≠ g := by
  let u : State := { s with system := { s.system with joins := s.system.joins.filter (fun j => j.groupId != g), branches := s.system.branches.filter (fun b => b.1 != g) } }
  let v := u.modPlot fn (fun p => { p with group := {} })
  have hexec : exec (.joinTimeout g) s = .next (v.refuse st 0x100B) := by
    show execJoinTimeout g s = _
    unfold execJoinTimeout
    change Host.Outcome.next (((s.joiners g).filter (fun fn => !(s.plot fn).group.confirmed)).foldl _ u) = _
    rw [hjoiners, List.filter_cons_of_pos (by rw [hconfirmed]; rfl), List.filter_nil, List.foldl_cons, List.foldl_nil]
    change Host.Outcome.next (match (s.plot fn).group.joining with | some st => v.refuse st 0x100B | none => u) = _
    rw [hjoining]
  refine ⟨_, hexec, ?_, State.refuse_errCode _, fun j hj => ?_⟩
  · rw [Plot.bellPart_group ((State.refuse_clerical v st 0x100B).plot fn)]
    exact congrArg Plot.group (State.setPlot_plot_same _ _ _)
  · rw [State.refuse_system] at hj
    exact bne_iff_ne.1 (List.mem_filter.1 hj).2

end Joins

/-! ### Gates -/

section Gates

variable {s : State} {gate : CoreId} {n periods : Nat}

theorem firstFree_spec (used : List Nat) (r : Nat) : r ≤ firstFree used r ∧ firstFree used r ∉ used ∧ ∀ q, r ≤ q → q < firstFree used r → q ∈ used := by
  have hfree : ∃ k ∈ List.range (used.length + 1), r + k ∉ used := by
    by_contra hall
    push Not at hall
    have hsub : (List.range (used.length + 1)).map (r + ·) ⊆ used := by
      intro x hx
      obtain ⟨k, hk, rfl⟩ := List.mem_map.1 hx
      exact hall k hk
    have hnodup : ((List.range (used.length + 1)).map (r + ·)).Nodup := List.nodup_range.map (fun a b h => Nat.add_left_cancel h)
    have hlen := (hnodup.subperm hsub).length_le
    rw [List.length_map, List.length_range] at hlen
    omega
  have hsome : ((List.range (used.length + 1)).find? (fun k => !used.contains (r + k))).isSome = true := by
    rw [List.find?_isSome]
    obtain ⟨k, hk, hnot⟩ := hfree
    exact ⟨k, hk, by simpa using hnot⟩
  obtain ⟨k, hk⟩ := Option.isSome_iff_exists.1 hsome
  have hfirst : firstFree used r = r + k := by
    unfold firstFree
    rw [List.find?_map]
    simp only [Function.comp_def]
    rw [hk]
    rfl
  obtain ⟨hp, -, hbefore⟩ := List.find?_range_eq_some.1 hk
  rw [hfirst]
  refine ⟨Nat.le_add_right r k, by simpa using hp, fun q hrq hq => ?_⟩
  have := hbefore (q - r) (by omega)
  rw [Nat.add_sub_cancel' hrq] at this
  simpa using this

theorem State.endGateStall_system {port : PortId} : (s.endGateStall gate port periods).system = s.system := by
  unfold State.endGateStall
  split
  · rfl
  · dsimp only
    split
    · rfl
    · rfl

/-- A flit that its gate releases in fc `t` (R529, R531). -/
def State.gateReleased (s : State) (gate : CoreId) (n periods t : Nat) (f : Flit) : State :=
  let u := s.endGateStall gate (gatePort gate) periods
  ({ u with system := { u.system with gateUse := u.system.gateUse ++ [(gate.toNat, t)] } } : State).setFlit n
    { f with stage := .router, inPort := if colOf gate = 0 then 3 else 1, ready := t, arrived := t }

theorem execGateRelease_released {sent : Nat} {f : Flit} :
    let r := earliestReceive sent + (s.plot f.fn).group.cross.toNat
    s.hasCore gate = true → AMap.find s.mesh.flits n = some f → f.stage = .gate sent → s.leaves f = false → f.router = gate →
    ∃ (t : State) (fc : Nat), exec (.gateRelease gate n periods) s = .next t ∧ r ≤ fc ∧ (gate.toNat, fc) ∉ s.system.gateUse ∧ (∀ q, r ≤ q → q < fc → (gate.toNat, q) ∈ s.system.gateUse) ∧
      AMap.find t.mesh.flits n = some { f with stage := .router, inPort := if colOf gate = 0 then 3 else 1, ready := fc, arrived := fc } ∧ (gate.toNat, fc) ∈ t.system.gateUse := by
  intro r hcore hf hstage hleaves hrouter
  have hgo : ¬ (!s.hasCore gate) = true := ne_true_of_eq_false (congrArg (!·) hcore)
  have hhere : ¬ (s.leaves f || f.router != gate) = true := by
    rw [hleaves, hrouter, bne_self_eq_false]
    exact Bool.false_ne_true
  have hmem : ∀ q, q ∈ (s.system.gateUse.filter (fun g => g.1 == gate.toNat)).map (·.2) ↔ (gate.toNat, q) ∈ s.system.gateUse := by
    intro q
    rw [List.mem_map]
    constructor
    · rintro ⟨⟨a, b⟩, hab, rfl⟩
      obtain ⟨hin, ha⟩ := List.mem_filter.1 hab
      rw [← beq_iff_eq.1 ha]
      exact hin
    · exact fun h => ⟨_, List.mem_filter.2 ⟨h, beq_self_eq_true _⟩, rfl⟩
  obtain ⟨hle, hfree, hused⟩ := firstFree_spec ((s.system.gateUse.filter (fun g => g.1 == gate.toNat)).map (·.2)) r
  let fc := firstFree ((s.system.gateUse.filter (fun g => g.1 == gate.toNat)).map (·.2)) r
  let w := s.gateReleased gate n periods fc f
  have hexec : exec (.gateRelease gate n periods) s =
      .next (if fc = r then w else w.modCore gate (fun c => ({ c with mesh.linkColl := satAdd c.mesh.linkColl (fc - r) } : CoreState).collision r (if colOf gate = 0 then 3 else 1) f.site)) := by
    show execGateRelease gate n periods s = _
    unfold execGateRelease
    rw [if_neg hgo, hf]
    dsimp only
    rw [hstage]
    exact if_neg hhere
  have hsystem : w.system.gateUse = s.system.gateUse ++ [(gate.toNat, fc)] := by
    show (s.endGateStall gate (gatePort gate) periods).system.gateUse ++ _ = _
    rw [State.endGateStall_system]
  have hflit : AMap.find w.mesh.flits n = some { f with stage := .router, inPort := if colOf gate = 0 then 3 else 1, ready := fc, arrived := fc } := AMap.find_set_same _ _ _
  clear_value w
  refine ⟨_, fc, hexec, hle, fun h => hfree ((hmem fc).2 h), fun q hq1 hq2 => (hmem q).1 (hused q hq1 hq2), ?_, ?_⟩
  · split
    · exact hflit
    · exact hflit
  · split
    · rw [hsystem]
      exact List.mem_append_right _ (List.mem_singleton_self _)
    · show _ ∈ w.system.gateUse
      rw [hsystem]
      exact List.mem_append_right _ (List.mem_singleton_self _)

theorem execCreditReturn_credits (hcore : s.hasCore gate = true) :
    ∃ t : State, exec (.creditReturn gate n periods) s = .next t ∧ AMap.get 512 t.system.credits gate.toNat = min 512 (AMap.get 512 s.system.credits gate.toNat + n) := by
  have hgo : ¬ (!s.hasCore gate) = true := ne_true_of_eq_false (congrArg (!·) hcore)
  refine ⟨_, (if_neg hgo), ?_⟩
  rw [State.endGateStall_system]
  exact AMap.get_put_same _ _ _ _

end Gates

end Sys2Proof.Machine

namespace Sys2Proof.Claims

open Sys2Proof.Machine

/-- Settles O51. -/
theorem bellWordsAndGatesAct : Obligations.BellWordsAndGatesAct := by
  unfold Obligations.BellWordsAndGatesAct
  refine ⟨?_, ?_, ?_, ?_, ?_, ?_, ?_, ?_⟩
  · intro s port w hlen
    exact congrArg Host.Outcome.next (if_pos (by rw [Bool.true_and]; exact decide_eq_true hlen))
  · intro s port w p u g kind hw
    refine ⟨fun correction hkind => ⟨fun hrole => ?_, fun hrole => execSync_child hkind hw hrole⟩, fun hkind => execArrive_registers hkind hw, fun hkind => ⟨fun hroot => ?_, fun hroot => ?_⟩, fun hkind => ⟨fun hg hzero => execRing_all hkind hw hg hzero, fun hg => ?_⟩, ?_, ?_, ?_⟩
    · have hskew : (u.port port).skew = p.skew := by rw [State.setPort_port_same]
      rw [← hskew]
      exact execSync_parent hkind hw hrole
    · exact (execEdge_eq hkind hw).trans (congrArg Host.Outcome.next (if_neg (ne_true_of_eq_false hroot)))
    · exact (execEdge_eq hkind hw).trans (congrArg Host.Outcome.next (if_pos hroot))
    · obtain ⟨t, hexec, hsystem, hepoch⟩ := execRing_group hkind hw hg
      refine ⟨t, hexec, hepoch, fun a ha hag hab => ?_⟩
      rw [hsystem] at ha
      obtain ⟨-, hkept⟩ := List.mem_filter.1 ha
      rw [hag, hab] at hkept
      exact absurd hkept (by simp [g, wordGroup, wordBell, fieldOf])
    · intro hkind hrole fn hplot hattempting hnodup
      have hsent : Sent (s.tookWord port w) ((s.tookWord port w).sendDown (wordGroup w) w) := State.sendDown_sent _ _
      have hexec := execHalt_halts hkind hw hrole hplot
      have hsame : ((s.tookWord port w).sendDown (wordGroup w) w).plot fn = s.plot fn := hsent.plot fn
      have hcore : ∀ c, ((s.tookWord port w).sendDown (wordGroup w) w).core c = s.core c := hsent.core
      generalize (s.tookWord port w).sendDown (wordGroup w) w = v at hexec hsame hcore
      have hhalt : v.haltPlot fn = v.abandonRetry fn (v.attemptReports fn) (v.attemptReports fn).length := if_pos (by rw [hsame]; exact hattempting)
      rw [hhalt] at hexec
      obtain ⟨hundone, hphase, -⟩ := State.abandonRetry_undone (s := v) (fn := fn) (v.attemptReports fn) (v.attemptReports fn).length (by rw [hsame]; exact hnodup)
      refine ⟨_, hexec, hphase, hundone.bell.trans (by rw [hsame]), fun c hc => ?_⟩
      rw [(hundone.core c (by rw [hsame]; exact hc)).1, hcore]
    · intro hkind hrole fn hplot hstate hlate hbell
      have hsent : Sent (s.tookWord port w) ((s.tookWord port w).sendDown (wordGroup w) w) := State.sendDown_sent _ _
      have hexec := execStop_stops hkind hw hrole hplot
      have hsame : ((s.tookWord port w).sendDown (wordGroup w) w).plot fn = s.plot fn := hsent.plot fn
      generalize (s.tookWord port w).sendDown (wordGroup w) w = v at hexec hsame
      rw [← hsame] at hstate hlate hbell ⊢
      obtain ⟨hstopped, hstands⟩ := State.stopMember_stops hstate hlate hbell
      exact ⟨_, hexec, hstopped, hstands⟩
    · intro hkind hrole
      have hsent : Sent (s.tookWord port w) ((s.tookWord port w).sendDown (wordGroup w) w) := State.sendDown_sent _ _
      have hexec := execControl_kept hkind hw hrole
      have hplot : ((s.tookWord port w).sendDown (wordGroup w) w).groupPlot (wordGroup w) = s.groupPlot (wordGroup w) := State.groupPlot_congr hsent.plots
      have hplots : ((s.tookWord port w).sendDown (wordGroup w) w).plots = s.plots := hsent.plots
      have hsystem : ((s.tookWord port w).sendDown (wordGroup w) w).system = s.system := hsent.system
      dsimp only at hexec
      generalize (s.tookWord port w).sendDown (wordGroup w) w = v at hexec hplot hplots hsystem
      rw [hplot] at hexec
      refine ⟨_, hexec, ?_, ?_⟩
      · split
        · exact hplots
        · exact hplots
      · by_cases hheld : (s.groupPlot (wordGroup w)).isSome = true
        · rw [if_pos hheld]
          exact (congrArg (fun y : System => y.control ++ [(wordGroup w, w.extractLsb' 24 40)]) hsystem).trans (if_pos hheld).symm
        · rw [if_neg hheld]
          exact (congrArg System.control hsystem).trans (if_neg hheld).symm
  · intro s fn dh e st u hepoch hdue hjoining
    exact execBellEpoch_joins hepoch hdue hjoining
  · intro s g hroot
    exact execJoinConfirmed_member hroot
  · intro s g fn st hjoiners hjoining hconfirmed
    exact execJoinTimeout_refuses hjoiners hjoining hconfirmed
  · intro s n f hf hstage hleaves
    show flitCommand s n _ = _
    unfold flitCommand
    rw [hf]
    exact congrArg Host.Outcome.next (if_pos (by rw [hstage, hleaves]; rfl))
  · intro s gate n periods sent f r hcore hf hstage hleaves hrouter
    exact execGateRelease_released hcore hf hstage hleaves hrouter
  · intro s gate n periods hcore
    exact execCreditReturn_credits hcore

end Sys2Proof.Claims
end

section
/-! Temperatures and power (R540, R545, R555 to R557): O54. -/

namespace Sys2Proof.Machine

section Fields

variable {s t : State} {f g : FieldId}

/-- Where each turn of a sweep changes the field of that turn alone, a field ends as its own turn leaves it. -/
theorem State.sweepFields {step : State → FieldId → State} (hne : ∀ s g f, f ≠ g → (step s g).field f = s.field f) (l : List FieldId) (hnodup : l.Nodup) (hf : f ∈ l) :
    ∃ u : State, u.field f = s.field f ∧ (l.foldl step s).field f = (step u f).field f := by
  have hout : ∀ (l : List FieldId) (s : State), f ∉ l → (l.foldl step s).field f = s.field f := by
    intro l
    induction l with
    | nil => exact fun _ _ => rfl
    | cons a l ih =>
      intro s hl
      obtain ⟨ha, hl⟩ := not_or.1 (mt List.mem_cons.2 hl)
      exact (ih (step s a) hl).trans (hne s a f ha)
  induction l generalizing s with
  | nil => exact absurd hf List.not_mem_nil
  | cons a l ih =>
    obtain ⟨hfresh, hrest⟩ := List.nodup_cons.1 hnodup
    by_cases ha : f = a
    · exact ⟨s, rfl, by rw [List.foldl_cons, ← ha]; exact hout l _ (by rw [ha]; exact hfresh)⟩
    · obtain ⟨u, hu, hlast⟩ := ih (s := step s a) hrest ((List.mem_cons.1 hf).resolve_left ha)
      exact ⟨u, hu.trans (hne s a f ha), hlast⟩

theorem State.setCeiling_field_ne (h : f ≠ g) : (s.setCeiling g).field f = s.field f := State.setField_field_ne _ _ h

/-- The turn of one field in a change of every field's power limit (R540). -/
def State.powerLimit (limit : Field → Nat) (s : State) (f : FieldId) : State := (s.setField f { s.field f with powerCeil := BitVec.ofNat 11 (limit (s.field f)) }).setCeiling f

theorem State.powerLimits_field (limit : Field → Nat) : ((s.powerLimits limit).field f).powerCeil = BitVec.ofNat 11 (limit (s.field f)) := by
  obtain ⟨u, hu, hlast⟩ := State.sweepFields (s := s) (f := f) (step := State.powerLimit limit)
    (fun s g f h => (State.setCeiling_field_ne h).trans (State.setField_field_ne _ _ h)) allFields allFields_nodup (mem_allFields f)
  have hfield : ((s.powerLimits limit).field f).powerCeil = ((u.powerLimit limit f).field f).powerCeil := congrArg Field.powerCeil hlast
  rw [hfield, State.powerLimit, State.setCeiling_field, State.setField_field_same, hu]

/-- A change of limits reaches the hub die in VSET and the rises that wait, no more (R42, R539). -/
theorem State.setCeiling_hub : ∃ v m n, (s.setCeiling f).hub = { s.hub with power := { s.hub.power with vset := v, pendingRise := m, settledRise := n } } := by
  unfold State.setCeiling State.driveVset
  dsimp only [State.modHub]
  generalize min (s.field f).ceiling.toNat _ = now
  split
  · exact ⟨_, _, _, rfl⟩
  · split
    · exact ⟨_, _, _, rfl⟩
    · exact ⟨_, _, _, rfl⟩

theorem State.setCeiling_ilimit : (s.setCeiling f).hub.power.ilimit = s.hub.power.ilimit := by
  obtain ⟨v, m, n, h⟩ := State.setCeiling_hub (s := s) (f := f)
  rw [h]

theorem State.powerLimits_ilimit (limit : Field → Nat) : (s.powerLimits limit).hub.power.ilimit = s.hub.power.ilimit := by
  unfold State.powerLimits
  induction allFields generalizing s with
  | nil => rfl
  | cons a l ih => exact (ih (s := s.powerLimit limit a)).trans State.setCeiling_ilimit

end Fields

/-! ### Samples of power -/

section Power

variable {s : State} {watts amps : Nat}

theorem powerCut_toNat (k : Field) : (BitVec.ofNat 11 (max 1100 (min k.powerCeil.toNat k.ceiling.toNat - 25))).toNat = max 1100 (min k.powerCeil.toNat k.ceiling.toNat - 25) :=
  ofNat_toNat_of_le (b := 2047) (by decide) (by have := k.powerCeil.isLt; omega)

theorem powerRise_toNat (k : Field) : (BitVec.ofNat 11 (min 1600 (k.powerCeil.toNat + 25))).toNat = min 1600 (k.powerCeil.toNat + 25) :=
  ofNat_toNat_of_le (b := 1600) (by decide) (by omega)

/-- A sample of power (R540). -/
theorem execPowerSample_samples :
    let env := s.grade.envelope
    let high := decide (env < watts) || decide (1250 < amps)
    let low := decide (100 * watts < 97 * env) && decide (100 * amps < 97 * 1250)
    ∃ u : State, u.hub.power.ilimit = high ∧ u.fields = s.fields ∧
      exec (.powerSample watts amps) s = .next (if high then u.powerLimits (fun k => max 1100 (min k.powerCeil.toNat k.ceiling.toNat - 25))
        else if (if low then s.hub.power.belowFor + 1 else 0) = 10 then u.powerLimits (fun k => min 1600 (k.powerCeil.toNat + 25)) else u) := by
  show ∃ u : State, _ ∧ _ ∧ execPowerSample watts amps s = _
  unfold execPowerSample
  extract_lets samples mean env high low below u
  refine ⟨u, rfl, rfl, ?_⟩
  clear_value u
  rfl

end Power

/-! ### Samples of temperature -/

section Thermal

variable {s t : State} {r : ThermalReading} {f : FieldId}

theorem Field.stackStep_tjMax (k : Field) (temps : List Nat) : (k.stackStep temps).tjMax = k.tjMax := by
  unfold Field.stackStep
  generalize (if temps.any (fun t => decide (85 < t) && decide (t ≤ 95)) = true then 1550 else 1600) = top
  dsimp only
  split
  · rfl
  · split
    · rfl
    · split
      · rfl
      · rfl

theorem State.sampleField_ne {g : FieldId} (h : f ≠ g) : (s.sampleField r g).field f = s.field f := (State.setCeiling_field_ne h).trans (State.setField_field_ne _ _ h)

theorem State.sampleField_field :
    let tj := r.junction.getD f.toNat 0
    ((s.sampleField r f).field f).tj = BitVec.ofNat 8 tj ∧ ((s.sampleField r f).field f).tjMax = BitVec.ofNat 8 (max (s.field f).tjMax.toNat tj) ∧
      ((s.sampleField r f).field f).thermCeil = BitVec.ofNat 11 (thermalCeiling tj) := by
  intro tj
  let k := (s.field f).stackStep ((r.stackTemps.drop (2 * f.toNat)).take 2)
  let v := s.setField f { k with tj := BitVec.ofNat 8 tj, tjMax := BitVec.ofNat 8 (max k.tjMax.toNat tj), thermCeil := BitVec.ofNat 11 (thermalCeiling tj) }
  let w : State := { v with fieldHold := AMap.put {} v.fieldHold f.toNat ((AMap.get {} v.fieldHold f.toNat).sample tj ((r.stackTemps.drop (2 * f.toNat)).take 2)) }
  have hw : w.field f = { k with tj := BitVec.ofNat 8 tj, tjMax := BitVec.ofNat 8 (max k.tjMax.toNat tj), thermCeil := BitVec.ofNat 11 (thermalCeiling tj) } := State.setField_field_same _ _ _
  have hs : s.sampleField r f = w.setCeiling f := rfl
  rw [hs, State.setCeiling_field, hw, ← Field.stackStep_tjMax (s.field f) ((r.stackTemps.drop (2 * f.toNat)).take 2)]
  exact ⟨rfl, rfl, rfl⟩

theorem thermalCeiling_le (tj : Nat) : thermalCeiling tj ≤ 1600 := by
  unfold thermalCeiling
  split
  · exact le_rfl
  · split <;> omega

/-- Optical engines below 90 °C change nothing (R557). -/
theorem State.sampleOptics_cool (l : List Nat) (hcool : ∀ x ∈ l, x < 90) : l.zipIdx.foldl State.sampleOptic s = s := by
  have hone : ∀ x ∈ l.zipIdx, s.sampleOptic x = s := by
    intro x hx
    have h90 : x.1 < 90 := hcool _ (List.fst_mem_of_mem_zipIdx hx)
    have hwarm : ¬ (decide (90 ≤ x.1) && !s.hub.power.optRaised.contains x.2) = true := by
      rw [decide_eq_false (Nat.not_le.2 h90), Bool.false_and]
      exact Bool.false_ne_true
    have hhot : ¬ (decide (100 ≤ x.1) && decide (x.2 < 16) && (s.port (BitVec.ofNat 4 x.2)).state != 3) = true := by
      rw [decide_eq_false (by omega : ¬ 100 ≤ x.1), Bool.false_and, Bool.false_and]
      exact Bool.false_ne_true
    unfold State.sampleOptic
    rw [if_neg hwarm]
    exact if_neg hhot
  generalize l.zipIdx = q at hone
  induction q with
  | nil => rfl
  | cons a q ih =>
    rw [List.foldl_cons, hone a (List.mem_cons_self ..)]
    exact ih fun x hx => hone x (List.mem_cons_of_mem a hx)

/-- The state in which a sample of temperatures has been kept by the hub die (R557, R559). -/
def State.withSample (s : State) (r : ThermalReading) : State :=
  s.modHub fun h => { h with power.stackTemps := r.stackTemps, power.hubTj := BitVec.ofNat 8 r.hub, power.optTmax := BitVec.ofNat 8 (hottest r.optical).1, power.optPort := BitVec.ofNat 4 (hottest r.optical).2 }

theorem execThermalSample_eq : exec (.thermalSample r) s = .next (r.optical.zipIdx.foldl State.sampleOptic ((allFields.foldl (fun (s : State) f => s.sampleField r f) s).withSample r)) := by
  show execThermalSample r s = _
  unfold execThermalSample
  generalize allFields = l
  rfl

theorem execThermalSample_cool (hcool : ∀ x ∈ r.optical, x < 90) : exec (.thermalSample r) s = .next ((allFields.foldl (fun (s : State) f => s.sampleField r f) s).withSample r) := by
  rw [execThermalSample_eq, State.sampleOptics_cool _ hcool]

theorem State.withSample_field : (s.withSample r).field f = s.field f := rfl

/-- A field as a sample leaves it (R555, R559). -/
theorem State.sampled_field (htj : r.junction.getD f.toNat 0 < 256) :
    let tj := r.junction.getD f.toNat 0
    let k := ((allFields.foldl (fun (s : State) f => s.sampleField r f) s).withSample r).field f
    k.tj.toNat = tj ∧ k.tjMax.toNat = max (s.field f).tjMax.toNat tj ∧ k.thermCeil.toNat = thermalCeiling tj := by
  intro tj k
  obtain ⟨v, hv, hlast⟩ := State.sweepFields (s := s) (f := f) (step := fun s g => s.sampleField r g) (fun _ _ _ h => State.sampleField_ne h) allFields allFields_nodup (mem_allFields f)
  obtain ⟨h1, h2, h3⟩ := State.sampleField_field (s := v) (r := r) (f := f)
  rw [hv] at h2
  have hk : k = (v.sampleField r f).field f := State.withSample_field.trans hlast
  have hmax : max (s.field f).tjMax.toNat tj < 256 := max_lt (s.field f).tjMax.isLt htj
  clear_value k
  rw [hk, h1, h2, h3]
  exact ⟨(BitVec.toNat_ofNat _ _).trans (Nat.mod_eq_of_lt htj), (BitVec.toNat_ofNat _ _).trans (Nat.mod_eq_of_lt hmax), ofNat_toNat_of_le (by decide) (thermalCeiling_le tj)⟩

theorem State.sampleFields_plots (l : List FieldId) : (l.foldl (fun (s : State) f => s.sampleField r f) s).plots = s.plots := by
  induction l generalizing s with
  | nil => rfl
  | cons a l ih => exact ih (s := s.sampleField r a)

theorem execThermalSample_readings (hcool : ∀ x ∈ r.optical, x < 90) :
    ∃ t : State, exec (.thermalSample r) s = .next t ∧ t.hub.power.hubTj = BitVec.ofNat 8 r.hub ∧ t.plots = s.plots ∧ ∀ f : FieldId, r.junction.getD f.toNat 0 < 256 →
      (t.field f).tj.toNat = r.junction.getD f.toNat 0 ∧ (t.field f).tjMax.toNat = max (s.field f).tjMax.toNat (r.junction.getD f.toNat 0) ∧ (t.field f).thermCeil.toNat = thermalCeiling (r.junction.getD f.toNat 0) := by
  have hexec := execThermalSample_cool (s := s) hcool
  have hfields := fun (f : FieldId) htj => State.sampled_field (s := s) (r := r) (f := f) htj
  have hplots : (allFields.foldl (fun (s : State) f => s.sampleField r f) s).plots = s.plots := State.sampleFields_plots allFields
  generalize allFields.foldl (fun (s : State) f => s.sampleField r f) s = u at hexec hfields hplots
  exact ⟨_, hexec, rfl, hplots, hfields⟩

/-! ### Thermal holds -/

/-- A state with a field's thermal hold begun or ended (R556). -/
def State.withHold (s : State) (f : FieldId) (held : Bool) : State := { s with fieldHold := AMap.put {} s.fieldHold f.toNat { AMap.get {} s.fieldHold f.toNat with held := held } }

/-- A plot is told that a field of it is held (R556). -/
def State.tellHot (s : State) (fn : Fn) : State := (s.modPlot fn (fun p => if p.step.phase == .held then { p with step.holds.thermal := true } else p)).plotReport fn 0x4003 false 0 0 0

theorem State.tellHots (l : List Fn) : (l.foldl State.tellHot s).cores = s.cores ∧ (l.foldl State.tellHot s).fieldHold = s.fieldHold := by
  induction l generalizing s with
  | nil => exact ⟨rfl, rfl⟩
  | cons a l ih => exact ih (s := s.tellHot a)

theorem State.withHold_same {held : Bool} : AMap.get {} (s.withHold f held).fieldHold f.toNat = { AMap.get {} s.fieldHold f.toNat with held := held } := AMap.get_put_same _ _ _ _

theorem State.withHold_ne {held : Bool} {g : Nat} (h : g ≠ f.toNat) : AMap.get {} (s.withHold f held).fieldHold g = AMap.get {} s.fieldHold g := AMap.get_put_ne _ _ _ h

/-- A plot whose thermal hold ends, and which goes on where no other hold keeps it (R556). -/
def State.endHot (s : State) (fn : Fn) : State :=
  let p := s.plot fn
  if p.step.phase == .held && p.step.holds.thermal && !p.fieldList.any (fun f => (AMap.get {} s.fieldHold f).held) then
    (s.setPlot fn { p with step.holds.thermal := false }).releaseHeld fn
  else s

variable {fn : Fn}

/-- A plot that is held for a thermal hold alone, which no field of it keeps. -/
def State.onlyHot (s : State) (fn : Fn) : Prop :=
  (s.plot fn).step.phase = .held ∧ (s.plot fn).step.holds = { thermal := true } ∧ ∀ g ∈ (s.plot fn).fieldList, (AMap.get {} s.fieldHold g).held = false

/-- A step that opens changes of the plots that one alone, which runs from then on. -/
theorem State.openStep_frame : (s.openStep fn).fieldHold = s.fieldHold ∧ ((s.openStep fn).plot fn).step.phase = .running ∧ ∀ g ≠ fn, (s.openStep fn).plot g = s.plot g := by
  obtain ⟨cs, hcs⟩ := s.mapCores_frame fn CoreState.beginStep
  unfold State.openStep
  rw [hcs]
  dsimp only
  rw [State.modPlot_eq, State.setPlot_plot_same]
  refine ⟨rfl, rfl, fun g hg => ?_⟩
  rw [State.setPlot_plot_ne _ _ hg]
  rfl

theorem State.releaseHeld_frame : (s.releaseHeld fn).fieldHold = s.fieldHold ∧ ∀ g ≠ fn, ((s.releaseHeld fn).plot g).bellPart = (s.plot g).bellPart := by
  unfold State.releaseHeld
  dsimp only
  split
  · have haside : Aside 0 s (s.reeveChanges fn) := s.reeveChanges_aside fn
    obtain ⟨hhold, -, hplot⟩ := State.openStep_frame (s := s.reeveChanges fn) (fn := fn)
    exact ⟨hhold.trans haside.fieldHold, fun g hg => by rw [hplot g hg]; exact haside.plot g⟩
  · exact ⟨rfl, fun _ _ => rfl⟩

theorem State.releaseHeld_runs (hphase : (s.plot fn).step.phase = .held) (hholds : (s.plot fn).step.holds = {}) : ((s.releaseHeld fn).plot fn).step.phase = .running := by
  have hgo : ((s.plot fn).step.phase == .held && !(s.plot fn).step.holds.any) = true := by
    rw [hphase, hholds]
    rfl
  have hs : s.releaseHeld fn = (s.reeveChanges fn).openStep fn := if_pos hgo
  rw [hs]
  exact State.openStep_frame.2.1

theorem State.endHot_frame : (s.endHot fn).fieldHold = s.fieldHold ∧ ∀ g ≠ fn, ((s.endHot fn).plot g).bellPart = (s.plot g).bellPart := by
  unfold State.endHot
  dsimp only
  split
  · obtain ⟨hhold, hplot⟩ := State.releaseHeld_frame (s := s.setPlot fn { s.plot fn with step.holds.thermal := false }) (fn := fn)
    exact ⟨hhold, fun g hg => (hplot g hg).trans (by rw [State.setPlot_plot_ne _ _ hg])⟩
  · exact ⟨rfl, fun _ _ => rfl⟩

theorem State.endHots_fieldHold (l : List Fn) : (l.foldl State.endHot s).fieldHold = s.fieldHold := by
  induction l generalizing s with
  | nil => rfl
  | cons a l ih => exact (ih (s := s.endHot a)).trans State.endHot_frame.1

theorem State.endHot_runs (h : s.onlyHot fn) : ((s.endHot fn).plot fn).step.phase = .running := by
  obtain ⟨hphase, hholds, hfields⟩ := h
  have hgo : ((s.plot fn).step.phase == .held && (s.plot fn).step.holds.thermal && !(s.plot fn).fieldList.any fun f => (AMap.get {} s.fieldHold f).held) = true := by
    rw [hphase, hholds, List.any_eq_false.2 fun g hg => ne_true_of_eq_false (hfields g hg)]
    rfl
  have hs : s.endHot fn = (s.setPlot fn { s.plot fn with step.holds.thermal := false }).releaseHeld fn := if_pos hgo
  rw [hs]
  refine State.releaseHeld_runs ?_ ?_
  · rw [State.setPlot_plot_same]
    exact hphase
  · rw [State.setPlot_plot_same]
    show { (s.plot fn).step.holds with thermal := false } = ({} : Holds)
    rw [hholds]

theorem State.onlyHot_congr (hplot : (t.plot fn).bellPart = (s.plot fn).bellPart) (hhold : t.fieldHold = s.fieldHold) (h : s.onlyHot fn) : t.onlyHot fn := by
  unfold State.onlyHot
  rw [Plot.bellPart_step hplot, hhold, Plot.fieldList_congr (Plot.bellPart_place hplot)]
  exact h

theorem State.endHots_run (l : List Fn) (h : (fn ∈ l ∧ s.onlyHot fn) ∨ (s.plot fn).step.phase = .running) : ((l.foldl State.endHot s).plot fn).step.phase = .running := by
  induction l generalizing s with
  | nil => exact h.elim (fun h => absurd h.1 List.not_mem_nil) id
  | cons a l ih =>
    refine ih ?_
    by_cases ha : fn = a
    · refine .inr ?_
      rw [← ha]
      obtain ⟨-, hhot⟩ | hrun := h
      · exact State.endHot_runs hhot
      · have hs : s.endHot fn = s := if_neg (by rw [hrun]; exact Bool.false_ne_true)
        rw [hs, hrun]
    · have hplot := (State.endHot_frame (s := s) (fn := a)).2 fn ha
      refine h.imp (fun h => ⟨(List.mem_cons.1 h.1).resolve_left ha, State.onlyHot_congr hplot State.endHot_frame.1 h.2⟩) (fun h => ?_)
      rw [Plot.bellPart_step hplot, h]

end Thermal

end Sys2Proof.Machine

namespace Sys2Proof.Claims

open Sys2Proof.Machine

/-- Settles O54. -/
theorem temperaturesAndPowerLimitTheFields : Obligations.TemperaturesAndPowerLimitTheFields := by
  unfold Obligations.TemperaturesAndPowerLimitTheFields
  refine ⟨?_, ?_, ?_⟩
  · intro s r hcool hjunction
    obtain ⟨t, hexec, hhub, hplots, hfields⟩ := execThermalSample_readings (s := s) hcool
    refine ⟨t, hexec, hhub, hplots, fun f => hfields f ?_⟩
    rw [List.getD_eq_getElem?_getD]
    cases h : r.junction[f.toNat]? with
    | none => decide
    | some x => exact hjunction x (List.mem_of_getElem? h)
  · intro s field h
    refine ⟨fun hfree hhot => ?_, fun hheld hcool => ?_⟩
    · have hgo : ¬ (h.held || !(decide (10 ≤ h.hot) || h.stackHot.any fun n => decide (10 ≤ n))) = true := by
        have hany : (decide (10 ≤ h.hot) || h.stackHot.any fun n => decide (10 ≤ n)) = true := by simpa using hhot
        rw [hfree, hany]
        exact Bool.false_ne_true
      have hexec : exec (.thermal field) s = .next (((s.withHold field true).plotsIn field).foldl State.tellHot (s.withHold field true)) := if_neg hgo
      obtain ⟨hcores, hhold⟩ := State.tellHots (s := s.withHold field true) ((s.withHold field true).plotsIn field)
      refine ⟨_, hexec, ?_, hcores⟩
      rw [hhold, State.withHold_same]
    · have hgo : ¬ (!h.held || decide (h.cool < 10)) = true := by
        rw [hheld, decide_eq_false (Nat.not_lt.2 hcool)]
        exact Bool.false_ne_true
      have hexec : exec (.thermalHoldEnd field) s = .next (((s.withHold field false).plotsIn field).foldl State.endHot (s.withHold field false)) := if_neg hgo
      refine ⟨_, hexec, ?_, fun fn hfn hphase hholds hothers => ?_⟩
      · rw [State.endHots_fieldHold]
        exact State.withHold_same
      · refine State.endHots_run _ (.inl ⟨hfn, hphase, hholds, fun g hg => ?_⟩)
        by_cases hgf : g = field.toNat
        · rw [hgf, State.withHold_same]
        · rw [State.withHold_ne hgf]
          exact hothers g hg hgf
  · intro s watts amps env
    have henv : s.grade.envelope = env := by
      show s.grade.envelope = if s.grade = .mt4096 then 1500 else 1350
      cases s.grade <;> rfl
    obtain ⟨u, hilimit, hfields, hexec⟩ := execPowerSample_samples (s := s) (watts := watts) (amps := amps)
    rw [henv] at hilimit hexec
    have hfield : ∀ f, u.field f = s.field f := fun f => State.field_congr hfields f
    refine ⟨fun hhigh => ?_, fun hlow => ?_⟩
    · have hb : (decide (env < watts) || decide (1250 < amps)) = true := by simpa using hhigh
      rw [hb] at hilimit hexec
      refine ⟨_, hexec.trans (congrArg Host.Outcome.next (if_pos rfl)), (State.powerLimits_ilimit _).trans hilimit, fun f => ?_⟩
      rw [State.powerLimits_field, hfield, powerCut_toNat]
    · have hb : (decide (env < watts) || decide (1250 < amps)) = false := by simpa using hlow
      rw [hb] at hilimit hexec
      have hrises : (if (decide (100 * watts < 97 * env) && decide (100 * amps < 97 * 1250)) = true then s.hub.power.belowFor + 1 else 0) = 10 ↔ (100 * watts < 97 * env ∧ 100 * amps < 97 * 1250) ∧ s.hub.power.belowFor = 9 := by
        have hboth : (decide (100 * watts < 97 * env) && decide (100 * amps < 97 * 1250)) = true ↔ 100 * watts < 97 * env ∧ 100 * amps < 97 * 1250 := by
          rw [Bool.and_eq_true_iff, decide_eq_true_iff, decide_eq_true_iff]
        rw [if_congr hboth rfl rfl]
        split
        · next hl => exact ⟨fun h => ⟨hl, Nat.succ.inj h⟩, fun h => congrArg (· + 1) h.2⟩
        · next hl => exact ⟨fun h => by omega, fun h => absurd h.1 hl⟩
      rw [if_neg Bool.false_ne_true, if_congr hrises rfl rfl] at hexec
      by_cases hrise : (100 * watts < 97 * env ∧ 100 * amps < 97 * 1250) ∧ s.hub.power.belowFor = 9
      · rw [if_pos hrise] at hexec
        refine ⟨_, hexec, (State.powerLimits_ilimit _).trans hilimit, fun f => ?_⟩
        rw [State.powerLimits_field, hfield, powerRise_toNat, if_pos hrise]
      · rw [if_neg hrise] at hexec
        refine ⟨u, hexec, hilimit, fun f => ?_⟩
        rw [hfield, if_neg hrise]

end Sys2Proof.Claims
end

section
/-! The debug port and the management bus (R498 to R500, R552, R553): O55. -/

namespace Sys2Proof.Machine

section Bus

variable {s : State}

theorem State.logReport_jtag (code : Code) (d0 d1 d2 : Word) : (s.logReport code d0 d1 d2).hub.jtag = s.hub.jtag := by
  obtain ⟨f, l, h⟩ := s.logReport_hub code d0 d1 d2
  rw [h]

/-- Whether an unlock response is good (R499). -/
def Debug.unlocks (d : Debug) (g : Grade) (level : BitVec 8) (key signature : Nat) : Bool :=
  d.fails != 3 && (level == 1 || level == 2) && keyDigest (bytesOfNat 96 key) == Config.debugDigest && Config.ecdsaVerify key signature (unlockDigest g (Config.debugNonce d.attempts) level)

theorem Debug.unlocks_iff {d : Debug} {g : Grade} {level : BitVec 8} {key signature : Nat} : d.unlocks g level key signature = true ↔
    d.fails ≠ 3 ∧ (level = 1 ∨ level = 2) ∧ keyDigest (bytesOfNat 96 key) = Config.debugDigest ∧ Config.ecdsaVerify key signature (unlockDigest g (Config.debugNonce d.attempts) level) = true := by
  unfold Debug.unlocks
  rw [Bool.and_eq_true_iff, Bool.and_eq_true_iff, Bool.and_eq_true_iff, bne_iff_ne, Bool.or_eq_true_iff, beq_iff_eq, beq_iff_eq, beq_iff_eq, and_assoc, and_assoc]

/-- The state of the hub die after an unlock attempt (R499, R500). -/
theorem execDebugUnlock_eq (level : BitVec 8) (key signature : Nat) :
    let h : Hub := { s.hub with jtag.attempts := s.hub.jtag.attempts + 1 }
    exec (.debugUnlock level key signature) s =
      .next { s with hub :=
        if s.hub.jtag.unlocks s.grade level key signature then
          if level == 2 then ({ h with jtag.level := BitVec.ofNat 2 (max s.hub.jtag.level.toNat level.toNat), keys.batteryKey := none, keys.withheld := true } : Hub).reverify
          else { h with jtag.level := BitVec.ofNat 2 (max s.hub.jtag.level.toNat level.toNat) }
        else { h with jtag.fails := satAdd s.hub.jtag.fails 1 } } := by
  intro h
  show execDebugUnlock level key signature s = _
  unfold execDebugUnlock
  change (if (!s.hub.jtag.unlocks s.grade level key signature) = true then _ else _) = _
  cases s.hub.jtag.unlocks s.grade level key signature
  · rfl
  · cases level == 2
    · rfl
    · rfl

theorem State.busUp_of (h : s.hub.boot.phase ≠ 0) : s.busUp = true := bne_iff_ne.2 h

/-- The words of HUB.LOGPORT where the bus has a report to read (R553). -/
theorem State.busReg_logport {r : Report} (hr : s.hub.faults.log[s.hub.faults.logRead]? = some r) {k : Nat} (hk : k < 8) : s.busReg (0x280 + 8 * k) = BitVec.ofNat 64 (fieldBytes r.bytes (8 * k) 8) := by
  have hin : (decide (0x280 ≤ 0x280 + 8 * k) && decide (0x280 + 8 * k < 0x2C0)) = true := by
    rw [decide_eq_true (by omega : 0x280 ≤ 0x280 + 8 * k), decide_eq_true (by omega : 0x280 + 8 * k < 0x2C0)]
    rfl
  have hindex : (0x280 + 8 * k - 0x280) / 8 = k := by omega
  have hwords : s.logWords = (List.range 8).map fun k => BitVec.ofNat 64 (fieldBytes r.bytes (8 * k) 8) := by
    unfold State.logWords
    rw [hr]
  have hbus : s.busReg (0x280 + 8 * k) = s.logWords.getD ((0x280 + 8 * k - 0x280) / 8) 0 := if_pos hin
  rw [hbus, hindex, hwords, List.getD_eq_getElem?_getD, List.getElem?_map, List.getElem?_range hk]
  rfl

/-- A read at HUB.LOGPORT clears no register. -/
theorem State.clearModule_logport {k : Nat} (hk : k < 8) : s.clearModule (0x280 + 8 * k) = s := by
  have h1 : ¬ (decide (0x1000 ≤ 0x280 + 8 * k) && decide (0x280 + 8 * k < 0x5000) && (0x280 + 8 * k) % 0x400 == 0x10) = true := by
    rw [decide_eq_false (by omega : ¬ 0x1000 ≤ 0x280 + 8 * k)]
    exact Bool.false_ne_true
  have h2 : ¬ (decide (0x100000 ≤ 0x280 + 8 * k) && decide (0x280 + 8 * k < 0x900000) && decide (0x1400 ≤ (0x280 + 8 * k) % 0x100000) && decide ((0x280 + 8 * k) % 0x100000 < 0x1600)) = true := by
    rw [decide_eq_false (by omega : ¬ 0x100000 ≤ 0x280 + 8 * k)]
    exact Bool.false_ne_true
  have h3 : windowCopy (0x280 + 8 * k) = none := if_neg (by
    rw [decide_eq_false (by omega : ¬ 0x2000000 ≤ 0x280 + 8 * k)]
    exact Bool.false_ne_true)
  unfold State.clearModule
  rw [if_neg h1, if_neg h2, h3]

theorem State.clearModule_logports (l : List Nat) (hl : ∀ k ∈ l, k < 8) : l.foldl (fun (s : State) k => s.clearModule (0x280 + 8 * k)) s = s := by
  induction l with
  | nil => rfl
  | cons a l ih =>
    rw [List.foldl_cons, State.clearModule_logport (hl a (List.mem_cons_self ..))]
    exact ih fun k hk => hl k (List.mem_cons_of_mem a hk)

/-- A 64-byte read at HUB.LOGPORT (R553). -/
theorem State.busRead_logport (hoff : s.hub.i3c.offset = 0x280) :
    (s.busRead 64).hub.i3c.readData = (List.range 8).map (fun k => s.busReg (0x280 + 8 * k)) ∧ (s.busRead 64).hub.faults = ({ s.hub with i3c.readData := [] } : Hub).logTaken.faults := by
  have hwords : ceilDiv 64 8 = 8 := rfl
  unfold State.busRead
  rw [hoff, hwords]
  dsimp only [State.modHub]
  rw [show BitVec.toNat (0x280 : BitVec 32) = 0x280 from rfl, State.clearModule_logports (List.range 8) fun k hk => List.mem_range.1 hk]
  exact ⟨rfl, rfl⟩

theorem State.busRead_i3c {len : Nat} : (s.busRead len).hub.i3c.readData = (List.range ((len + 7) / 8)).map (fun k => s.busReg (s.hub.i3c.offset.toNat + 8 * k)) ∧
    (s.busRead len).hub.i3c.offset = BitVec.ofNat 32 (s.hub.i3c.offset.toNat + len / 8 * 8) := by
  unfold State.busRead
  dsimp only [State.modHub]
  split
  · exact ⟨rfl, rfl⟩
  · exact ⟨rfl, rfl⟩

end Bus

end Sys2Proof.Machine

namespace Sys2Proof.Claims

open Sys2Proof.Machine

/-- Settles O55. -/
theorem debugPortAndBusAnswer : Obligations.DebugPortAndBusAnswer := by
  unfold Obligations.DebugPortAndBusAnswer
  refine ⟨fun s ins => ⟨fun hallowed => congrArg Host.Outcome.next (if_pos hallowed), fun hbarred => ?_⟩, ?_, fun s hphase => ?_⟩
  · exact ⟨_, congrArg Host.Outcome.next (if_neg (ne_true_of_eq_false hbarred)), State.logReport_jtag _ _ _ _, rfl, rfl⟩
  · intro s level key signature d good
    have hgood : d.unlocks s.grade level key signature = true ↔ good := Debug.unlocks_iff
    refine ⟨_, execDebugUnlock_eq level key signature, ?_, fun h => ?_, fun h => ?_⟩
    · split
      · split
        · rfl
        · rfl
      · rfl
    · rw [if_pos (hgood.2 h)]
      have hlevel : level = 1 ∨ level = 2 := h.2.1
      have hmax : (BitVec.ofNat 2 (max d.level.toNat level.toNat)).toNat = max d.level.toNat level.toNat := by
        rw [BitVec.toNat_ofNat]
        refine Nat.mod_eq_of_lt (max_lt d.level.isLt ?_)
        obtain rfl | rfl := hlevel <;> decide
      obtain rfl | rfl := hlevel
      · exact ⟨rfl, hmax, fun h2 => absurd h2 (by decide), fun _ => rfl⟩
      · exact ⟨rfl, hmax, fun _ => ⟨rfl, rfl⟩, fun h1 => absurd h1 (by decide)⟩
    · rw [if_neg fun hu => h (hgood.1 hu)]
      exact ⟨rfl, rfl, rfl⟩
  · have hup := State.busUp_of hphase
    refine ⟨fun a => congrArg Host.Outcome.next (if_pos hup), fun o => congrArg Host.Outcome.next (if_pos hup), fun len => ?_, fun v => ?_, fun o v ho => ?_, fun r hr => ?_⟩
    · refine ⟨_, congrArg Host.Outcome.next (if_pos hup), State.busRead_i3c⟩
    · exact (if_neg (ne_true_of_eq_false (congrArg (!·) hup))).trans rfl
    · have hoff : ¬ o.toNat + 8 * 0 = 0x10 := fun h => ho (BitVec.eq_of_toNat_eq h)
      exact (if_neg (ne_true_of_eq_false (congrArg (!·) hup))).trans (congrArg Host.Outcome.next (if_neg hoff))
    · let v := s.modHub fun h => { h with i3c.offset := 0x280 }
      obtain ⟨hdata, hfaults⟩ := State.busRead_logport (s := v) rfl
      have hlen : s.hub.faults.logRead < s.hub.faults.log.length := (List.getElem?_eq_some_iff.1 hr).1
      refine ⟨v.busRead 64, congrArg Host.Outcome.next (if_pos hup), hdata.trans (List.map_congr_left fun k hk => State.busReg_logport (s := v) hr (List.mem_range.1 hk)), ?_, ?_⟩
      · rw [hfaults]
        exact Nat.min_eq_left hlen
      · rw [hfaults]
        rfl

end Sys2Proof.Claims
end

section
/-! Ring control, the host link and its resets (R414 to R416, R437, R438, R473, R479): O58. -/

namespace Sys2Proof.Machine

open Claims (withRing ignoredAt ringOf)

theorem bne_eq_decide_ne {α : Type} [DecidableEq α] (a b : α) : (a != b) = decide (a ≠ b) := Bool.eq_iff_iff.2 (by rw [bne_iff_ne, decide_eq_true_iff])

section Rings

variable {s : State} {fn : Fn} {completion : Bool} {v : Word}

theorem bitOf_or_one : bitOf (v ||| 1) 0 = true := by
  unfold bitOf
  rw [BitVec.getLsbD_or, show (1 : Word).getLsbD 0 = true by decide, Bool.or_true]

theorem bitOf_clear_one : bitOf (v &&& ~~~1) 0 = false := by
  unfold bitOf
  rw [BitVec.getLsbD_and, show (~~~1 : Word).getLsbD 0 = false by decide, Bool.and_false]

theorem extract_or_one : (v ||| 1).extractLsb' 1 5 = v.extractLsb' 1 5 := by
  rw [BitVec.extractLsb'_or, show (1 : Word).extractLsb' 1 5 = 0#5 by decide, BitVec.or_zero]

theorem extract_clear_one : (v &&& ~~~1).extractLsb' 1 5 = v.extractLsb' 1 5 := by
  rw [BitVec.extractLsb'_and, show (~~~1 : Word).extractLsb' 1 5 = BitVec.allOnes 5 by decide, BitVec.and_allOnes]

/-- A LOGSIZE that R414 admits. -/
def legalSize (size : BitVec 5) : Prop := 10 ≤ size.toNat ∧ size.toNat ≤ 24

theorem badSize_iff {size : BitVec 5} : (decide (size.toNat < 10) || decide (24 < size.toNat)) = true ↔ ¬ legalSize size := by
  unfold legalSize
  rw [Bool.or_eq_true_iff, decide_eq_true_iff, decide_eq_true_iff]
  omega

theorem Ring.writeCtl_ignored {r : Ring} (h : v.extractLsb' 1 5 ≠ r.logsize) (hbad : r.enable = true ∨ ¬ legalSize (v.extractLsb' 1 5)) : r.writeCtl v = none := by
  refine if_pos ?_
  rw [Bool.and_eq_true_iff, bne_iff_ne, Bool.or_assoc, Bool.or_eq_true_iff, badSize_iff]
  exact ⟨h, hbad⟩

theorem Ring.writeCtl_judged {r : Ring} (h : v.extractLsb' 1 5 = r.logsize ∨ (r.enable = false ∧ legalSize (v.extractLsb' 1 5))) :
    ¬ (v.extractLsb' 1 5 != r.logsize && (r.enable || decide ((v.extractLsb' 1 5).toNat < 10) || decide (24 < (v.extractLsb' 1 5).toNat))) = true := by
  rw [Bool.and_eq_true_iff, bne_iff_ne, Bool.or_assoc, Bool.or_eq_true_iff, badSize_iff]
  rintro ⟨hne, hon | hbad⟩
  · exact h.elim hne fun hoff => nomatch hon.symm.trans hoff.1
  · exact h.elim hne fun hoff => hbad hoff.2

/-- A stopped ring that is enabled with a LOGSIZE that R414 admits (R415). -/
theorem Ring.writeCtl_starts {r : Ring} (hoff : r.enable = false) (hon : bitOf v 0 = true) (hlegal : legalSize (v.extractLsb' 1 5)) :
    r.writeCtl v = some { r with enable := true, logsize := v.extractLsb' 1 5, tail := 0, head := 0, halted := false, cause := 0 } := by
  refine (if_neg (Ring.writeCtl_judged (.inr ⟨hoff, hlegal⟩))).trans ((if_pos ?_).trans (if_neg ?_))
  · rw [hon, hoff]
    rfl
  · rw [badSize_iff]
    exact not_not.2 hlegal

theorem Ring.writeCtl_refused {r : Ring} (hoff : r.enable = false) (hon : bitOf v 0 = true) (hbad : ¬ legalSize (v.extractLsb' 1 5)) : r.writeCtl v = none := by
  by_cases hsize : v.extractLsb' 1 5 = r.logsize
  · refine (if_neg (Ring.writeCtl_judged (.inl hsize))).trans ((if_pos ?_).trans (if_pos (badSize_iff.2 hbad)))
    rw [hon, hoff]
    rfl
  · exact Ring.writeCtl_ignored hsize (.inr hbad)

/-- A write that starts nothing sets ENABLE and LOGSIZE (R414, R415). -/
theorem Ring.writeCtl_sets {r : Ring} (hno : (bitOf v 0 && !r.enable) = false) (h : v.extractLsb' 1 5 = r.logsize ∨ (r.enable = false ∧ legalSize (v.extractLsb' 1 5))) :
    r.writeCtl v = some { r with enable := bitOf v 0, logsize := v.extractLsb' 1 5 } :=
  (if_neg (Ring.writeCtl_judged h)).trans (if_neg (ne_true_of_eq_false hno))

/-- The window offset of a ring's control register (R410). -/
def ctlOffset (completion : Bool) : BitVec 16 := if completion then 0x28 else 0x08

theorem State.ringCtl_takes {r : Ring} (h : (ringOf s fn completion).writeCtl v = some r) : s.ringCtl fn completion v = withRing s fn completion r := by
  cases completion
  · exact State.writeRing_submission h
  · exact State.writeRing_completion h

theorem State.ringCtl_ignores (h : (ringOf s fn completion).writeCtl v = none) : s.ringCtl fn completion v = ignoredAt s fn (ctlOffset completion) := by
  cases completion
  · exact State.writeRing_none (completion := false) h
  · exact State.writeRing_none (completion := true) h

end Rings

/-! ### Resets of the host link -/

section Resets

variable {s t : State} {fn : Fn}

/-- What an FLR leaves of a plot (R437). -/
def Plot.hostReset (p : Plot) (fn : Fn) (time : Nat) : Plot :=
  let atIdle := p.place.state == 5 || p.place.state == 6 || p.moving.saving
  { p with
    sq := {}, cq := {}, host := {}
    counts.readPaused := false
    packets := { p.packets with staged := if p.place.state == 0 || atIdle then [] else [resetPacket fn time], results := [], completions := [] }
    faults.queue := []
    moving.flr := p.place.state != 0 }

theorem State.flrOne_plot : (s.flrOne fn).plot fn = (s.plot fn).hostReset fn s.hub.time := State.setPlot_plot_same _ _ _

theorem State.flrOne_frame : (∀ g ≠ fn, (s.flrOne fn).plot g = s.plot g) ∧ (s.flrOne fn).hub.time = s.hub.time ∧ (s.flrOne fn).hub.pins = s.hub.pins ∧ ({ s.flrOne fn with plots := s.plots, hub := s.hub } : State) = s :=
  ⟨fun _ hg => State.setPlot_plot_ne _ _ hg, rfl, rfl, rfl⟩

/-- An FLR of several functions resets each of them once (R437). -/
theorem State.flrList (l : List Fn) (hnodup : l.Nodup) :
    (∀ g, (l.foldl State.flrOne s).plot g = if g ∈ l then (s.plot g).hostReset g s.hub.time else s.plot g) ∧ (l.foldl State.flrOne s).hub.time = s.hub.time ∧
      (l.foldl State.flrOne s).hub.pins = s.hub.pins ∧ ({ l.foldl State.flrOne s with plots := s.plots, hub := s.hub } : State) = s := by
  induction l generalizing s with
  | nil => exact ⟨fun g => (if_neg List.not_mem_nil).symm, rfl, rfl, rfl⟩
  | cons a l ih =>
    obtain ⟨hfresh, hrest⟩ := List.nodup_cons.1 hnodup
    obtain ⟨hplot, htime, hpins, hframe⟩ := ih (s := s.flrOne a) hrest
    obtain ⟨hother, htime1, hpins1, hframe1⟩ := State.flrOne_frame (s := s) (fn := a)
    refine ⟨fun g => ?_, htime.trans htime1, hpins.trans hpins1, ?_⟩
    · rw [List.foldl_cons, hplot]
      by_cases hg : g = a
      · rw [hg, if_neg hfresh, if_pos (List.mem_cons_self ..), State.flrOne_plot]
      · rw [hother g hg, htime1, if_congr (List.mem_cons.trans (or_iff_right hg)) rfl rfl]
    · rw [List.foldl_cons]
      generalize l.foldl State.flrOne (s.flrOne a) = t at hframe ⊢
      rw [← hframe1, ← hframe]

/-- Every function, once. -/
theorem allFunctions : ((List.range 256).map (BitVec.ofNat 8)).Nodup ∧ ∀ fn : Fn, fn ∈ (List.range 256).map (BitVec.ofNat 8) := by
  refine ⟨List.nodup_range.map_on fun a ha b hb h => ?_, fun fn => List.mem_map.2 ⟨fn.toNat, List.mem_range.2 fn.isLt, BitVec.ofNat_toNat _ _ |>.trans (BitVec.setWidth_eq _)⟩⟩
  have h2 := congrArg BitVec.toNat h
  rwa [BitVec.toNat_ofNat, BitVec.toNat_ofNat, Nat.mod_eq_of_lt (List.mem_range.1 ha), Nat.mod_eq_of_lt (List.mem_range.1 hb)] at h2

theorem State.flrAll_resets : (∀ g, s.flrAll.plot g = (s.plot g).hostReset g s.hub.time) ∧ s.flrAll.hub.pins = s.hub.pins ∧ ({ s.flrAll with plots := s.plots, hub := s.hub } : State) = s := by
  obtain ⟨hplot, -, hpins, hframe⟩ := State.flrList (s := s) _ allFunctions.1
  exact ⟨fun g => (hplot g).trans (if_pos (allFunctions.2 g)), hpins, hframe⟩

/-- What R437 asks of the plot of a function that is reset. -/
theorem Plot.hostReset_cleared {p : Plot} {time : Nat} : let q := p.hostReset fn time
    q.sq = {} ∧ q.cq = {} ∧ q.host = {} ∧ q.packets.results = [] ∧ q.packets.completions = [] ∧ q.faults.queue = [] ∧ q.place = p.place ∧ q.moving.flr = decide (p.place.state ≠ 0) ∧
      (p.place.state = 0 → q.packets.staged = []) ∧ (p.place.state ∈ [1, 2, 3, 4] → p.moving.saving = false → q.packets.staged = [resetPacket fn time]) := by
  intro q
  refine ⟨rfl, rfl, rfl, rfl, rfl, rfl, rfl, ?_, fun h0 => ?_, fun hplaced hsaving => ?_⟩
  · exact bne_eq_decide_ne _ _
  · exact if_pos (by rw [h0]; rfl)
  · refine if_neg ?_
    rw [hsaving]
    simp only [List.mem_cons, List.not_mem_nil, or_false] at hplaced
    obtain h | h | h | h := hplaced <;> rw [h] <;> decide

/-- What an FLR of every function leaves (R437). -/
structure AllReset (s t : State) : Prop where
  plot : ∀ g, t.plot g = (s.plot g).hostReset g s.hub.time
  frame : ({ t with plots := s.plots, hub := s.hub } : State) = s

theorem State.flrAll_allReset : AllReset s s.flrAll := ⟨State.flrAll_resets.1, State.flrAll_resets.2.2⟩

theorem execFlr_all : exec (.flr 0) s = .next s.flrAll := by
  show execFlr 0 s = _
  unfold execFlr
  generalize s.flrAll = v
  rfl

/-- The host link in reset (R473). -/
def State.linkReset (s : State) : State := s.modHub fun h => { h with pins.perstN := false, pins.pcieUp := false }

/-- The start-up plots come back at an idle bell (R479). -/
def State.toReload (s : State) : State := s.modHub fun h => { h with boot.reload := true }

theorem execPerstN_eq : exec .perstN s = .next (if s.linkReset.hub.boot.bellZero then s.linkReset.flrAll.toReload else s.linkReset) := by
  show execPerstN s = _
  unfold execPerstN
  rfl

theorem AllReset.toReload (h : AllReset s.linkReset t) : AllReset s t.toReload := by
  refine ⟨h.plot, ?_⟩
  exact congrArg (fun x : State => ({ x with hub := s.hub } : State)) h.frame

/-- What stands once the host link is in reset and every function is reset (R479). -/
theorem AllReset.perst (hpins : t.hub.pins = s.linkReset.hub.pins) (h : AllReset s.linkReset t) :
    AllReset s t.toReload ∧ t.toReload.hub.boot.reload = true ∧ t.toReload.hub.pins.perstN = false ∧ t.toReload.hub.pins.pcieUp = false :=
  ⟨h.toReload, rfl, congrArg Pins.perstN hpins, congrArg Pins.pcieUp hpins⟩

/-- PERST_N after bell zero (R479). -/
theorem execPerstN_reloads (hzero : s.hub.boot.bellZero = true) : exec .perstN s = .next s.linkReset.flrAll.toReload :=
  execPerstN_eq.trans (congrArg Host.Outcome.next (if_pos hzero))

theorem execPerstN_resets (hzero : s.hub.boot.bellZero = true) :
    ∃ t, exec .perstN s = .next t ∧ AllReset s t ∧ t.hub.boot.reload = true ∧ t.hub.pins.perstN = false ∧ t.hub.pins.pcieUp = false :=
  ⟨_, execPerstN_reloads hzero, AllReset.perst State.flrAll_resets.2.1 State.flrAll_allReset⟩

end Resets

end Sys2Proof.Machine

namespace Sys2Proof.Claims

open Sys2Proof.Machine

/-- Settles O58. -/
theorem ringsAndTheHostLinkStartAndStop : Obligations.RingsAndTheHostLinkStartAndStop := by
  unfold Obligations.RingsAndTheHostLinkStartAndStop
  refine ⟨?_, ?_, ?_, ?_⟩
  · intro s fn completion v r size legal off
    have hsize : (v ||| 1).extractLsb' 1 5 = size := extract_or_one
    have hclear : (v &&& ~~~1).extractLsb' 1 5 = size := extract_clear_one
    refine ⟨fun hoff hlegal => ?_, fun hoff hbad => ?_, fun hon hsame => ?_, fun hon hne => ?_, fun hgood => ?_, fun hne hbad => ?_, rfl⟩
    · have hstarts := Ring.writeCtl_starts (r := r) (v := v ||| 1) hoff bitOf_or_one (by rw [hsize]; exact hlegal)
      rw [hsize] at hstarts
      exact congrArg Host.Outcome.next (State.ringCtl_takes hstarts)
    · exact congrArg Host.Outcome.next (State.ringCtl_ignores (Ring.writeCtl_refused hoff bitOf_or_one (by rw [hsize]; exact hbad)))
    · have hsets := Ring.writeCtl_sets (r := r) (v := v ||| 1) (by rw [hon, Bool.not_true, Bool.and_false]) (.inl (hsize.trans hsame))
      rw [hsize, hsame, bitOf_or_one, ← hon] at hsets
      exact congrArg Host.Outcome.next (State.ringCtl_takes hsets)
    · exact congrArg Host.Outcome.next (State.ringCtl_ignores (Ring.writeCtl_ignored (by rw [hsize]; exact hne) (.inl hon)))
    · have hsets := Ring.writeCtl_sets (r := r) (v := v &&& ~~~1) (by rw [bitOf_clear_one, Bool.false_and]) (by rw [hclear]; exact hgood)
      rw [hclear, bitOf_clear_one] at hsets
      exact congrArg Host.Outcome.next (State.ringCtl_takes hsets)
    · exact congrArg Host.Outcome.next (State.ringCtl_ignores (Ring.writeCtl_ignored (by rw [hclear]; exact hne) (by rw [hclear]; exact hbad)))
  · intro s fn p
    refine ⟨rfl, fun hon hsome => ?_, fun hnone => ?_⟩
    · have hb : (p.host.cqEn && decide (0 < p.host.unsignalled)) = true := by rw [hon, decide_eq_true hsome]; rfl
      exact congrArg (fun q => Host.Outcome.next (s.setPlot fn q)) (if_pos hb)
    · have hb : ¬ (p.host.cqEn && decide (0 < p.host.unsignalled)) = true := by
        rw [Bool.and_eq_true_iff, decide_eq_true_iff]
        rintro ⟨hon, hsome⟩
        exact hnone.elim (fun h => nomatch hon.symm.trans h) (fun h => Nat.ne_of_gt hsome h)
      exact congrArg (fun q => Host.Outcome.next (s.setPlot fn q)) (if_neg hb)
  · intro s
    refine ⟨rfl, rfl, ?_, fun hzero => congrArg Host.Outcome.next (if_neg (ne_true_of_eq_false hzero))⟩
    rw [← bne_eq_decide_ne]
    rfl
  · intro s cleared
    refine ⟨fun fn hfn => ?_, ?_, fun hzero => ?_⟩
    · obtain ⟨hother, -, -, hframe⟩ := State.flrOne_frame (s := s) (fn := fn)
      refine ⟨_, congrArg Host.Outcome.next (if_neg fun h => hfn (beq_iff_eq.1 h)), ?_, hother, hframe⟩
      show (_ = _ ∧ _)
      rw [State.flrOne_plot]
      exact Plot.hostReset_cleared
    · refine ⟨_, execFlr_all, fun fn => ?_, State.flrAll_allReset.frame⟩
      have hplot := State.flrAll_allReset.plot fn (s := s)
      generalize s.flrAll = v at hplot
      show (_ = _ ∧ _)
      rw [hplot]
      exact Plot.hostReset_cleared
    · obtain ⟨t, hexec, hreset, hreload, hperst, hup⟩ := execPerstN_resets hzero
      refine ⟨t, hexec, fun fn => ?_, hreload, hperst, hup, hreset.frame⟩
      show (_ = _ ∧ _)
      rw [hreset.plot]
      exact Plot.hostReset_cleared

end Sys2Proof.Claims
end

section
/-! Ends of saves, restores, clearing and flash operations (R445, R450, R451, R494, R495, R497): O59. -/

namespace Sys2Proof.Machine

section Moves

variable {s t : State} {fn : Fn}

theorem State.modCore_self (c : CoreId) (f : CoreState → CoreState) : (s.modCore c f).core c = f (s.core c) := State.setCore_core_same _ _ _

theorem State.modCore_other {c d : CoreId} (f : CoreState → CoreState) (h : d ≠ c) : (s.modCore c f).core d = s.core d := State.setCore_core_ne _ _ h

theorem CoreState.leave_leave (c : CoreState) : c.leave.leave = c.leave := rfl

/-- Cores that leave a plot are being cleared, and nothing else changes (R445). -/
theorem State.leaveCores_core (l : List CoreId) (c : CoreId) : (s.leaveCores l).core c = if c ∈ l then (s.core c).leave else s.core c := by
  induction l generalizing s with
  | nil => exact (if_neg List.not_mem_nil).symm
  | cons a l ih =>
    have hstep : (s.leaveCores (a :: l)).core c = ((s.modCore a CoreState.leave).leaveCores l).core c := rfl
    rw [hstep, ih]
    by_cases hc : c = a
    · rw [hc, State.modCore_self, if_pos (List.mem_cons_self ..), CoreState.leave_leave, ite_self]
    · rw [State.modCore_other _ hc, if_congr (List.mem_cons.trans (or_iff_right hc)) rfl rfl]

theorem State.leaveCores_rest (l : List CoreId) : ∃ cs : AMap CoreState, s.leaveCores l = { s with cores := cs } := by
  induction l generalizing s with
  | nil => exact ⟨_, rfl⟩
  | cons a l ih =>
    obtain ⟨cs, h⟩ := ih (s := s.modCore a CoreState.leave)
    exact ⟨cs, h⟩

/-- One save block written back (R451). -/
def State.restoreBlock (cs : List CoreId) (s : State) (k : SavedCore) : State :=
  match cs[k.rel]? with
  | some c => s.modCore c (fun c => { c with work := k.work, image := k.work })
  | none => s

theorem State.restoreBlock_other {cs : List CoreId} {k : SavedCore} {c : CoreId} (h : cs[k.rel]? ≠ some c) : (s.restoreBlock cs k).core c = s.core c := by
  unfold State.restoreBlock
  cases hk : cs[k.rel]? with
  | none => rfl
  | some d => exact State.modCore_other _ fun hcd => h (hcd ▸ hk)

theorem State.restoreBlocks_other {cs : List CoreId} {c : CoreId} (l : List SavedCore) (h : ∀ k ∈ l, cs[k.rel]? ≠ some c) : (l.foldl (State.restoreBlock cs) s).core c = s.core c := by
  induction l generalizing s with
  | nil => rfl
  | cons a l ih => exact (ih fun k hk => h k (List.mem_cons_of_mem a hk)).trans (State.restoreBlock_other (h a (List.mem_cons_self ..)))

theorem getElem?_inj_of_nodup {cs : List CoreId} (hnodup : cs.Nodup) {i j : Nat} {c : CoreId} (hi : cs[i]? = some c) (hj : cs[j]? = some c) : i = j :=
  (List.getElem?_inj (List.getElem?_eq_some_iff.1 hi).1 hnodup).1 (hi.trans hj.symm)

/-- Each core of a save block has that block (R451). -/
theorem State.restoreBlocks_core {cs : List CoreId} (hnodup : cs.Nodup) {c : CoreId} {k : SavedCore} (l : List SavedCore) (hrel : l.Pairwise fun a b => a.rel ≠ b.rel) (hk : k ∈ l) (hc : cs[k.rel]? = some c) :
    (l.foldl (State.restoreBlock cs) s).core c = { s.core c with work := k.work, image := k.work } := by
  induction l generalizing s with
  | nil => exact absurd hk List.not_mem_nil
  | cons a l ih =>
    obtain ⟨hfirst, hrest⟩ := List.pairwise_cons.1 hrel
    obtain rfl | hk := List.mem_cons.1 hk
    · have hone : (s.restoreBlock cs k).core c = { s.core c with work := k.work, image := k.work } := by
        unfold State.restoreBlock
        rw [hc]
        exact State.modCore_self _ _
      rw [List.foldl_cons, State.restoreBlocks_other l fun b hb hbc => hfirst b hb (getElem?_inj_of_nodup hnodup hc hbc), hone]
    · have hother : cs[a.rel]? ≠ some c := fun ha => hfirst k hk (getElem?_inj_of_nodup hnodup ha hc)
      rw [List.foldl_cons, ih hrest hk, State.restoreBlock_other hother]

theorem State.restoreBlocks_plots {cs : List CoreId} (l : List SavedCore) : (l.foldl (State.restoreBlock cs) s).plots = s.plots := by
  induction l generalizing s with
  | nil => rfl
  | cons a l ih =>
    refine ih.trans ?_
    unfold State.restoreBlock
    split <;> rfl

theorem State.restoreBlocks_plot {cs : List CoreId} (l : List SavedCore) : (l.foldl (State.restoreBlock cs) s).plot fn = s.plot fn :=
  congrArg (fun m => AMap.get ({} : Plot) m fn.toNat) (State.restoreBlocks_plots l)

/-- Taking commons objects back leaves the place, the moves and the cores of a plot (R466). -/
theorem State.reclaim_frame : ((s.reclaim fn).plot fn).place = (s.plot fn).place ∧ ((s.reclaim fn).plot fn).moving = (s.plot fn).moving ∧ ∀ c, (s.reclaim fn).core c = s.core c := by
  unfold State.reclaim
  dsimp only
  generalize ((s.assignMail fn).plot fn).commons.cown = l
  have hmail : ((s.assignMail fn).plot fn).place = (s.plot fn).place ∧ ((s.assignMail fn).plot fn).moving = (s.plot fn).moving ∧ ∀ c, (s.assignMail fn).core c = s.core c := ⟨rfl, rfl, fun _ => rfl⟩
  generalize s.assignMail fn = u at hmail
  rw [← hmail.1, ← hmail.2.1]
  simp only [← hmail.2.2]
  clear hmail
  induction l generalizing u with
  | nil => exact ⟨rfl, rfl, fun _ => rfl⟩
  | cons w l ih =>
    rw [List.foldl_cons]
    split
    · exact ih _
    · obtain ⟨hplace, hmoving, hcore⟩ := ih (u.modPlot fn (fun p => { p with commons.cown := AMap.erase p.commons.cown w.1 }))
      rw [State.modPlot_eq, State.setPlot_plot_same] at hplace hmoving
      exact ⟨hplace, hmoving, hcore⟩

theorem execPreemptSaveDone_ends (h : (s.plot fn).moving.saving = true) :
    exec (.preemptSaveDone fn) s = .next ((s.leaveCores (s.plot fn).cores).modPlot fn (fun p => { p with moving.saving := false, place.state := 6, place.rows := 0, place.cols := 0 })) :=
  if_neg (by rw [h]; exact Bool.false_ne_true)

theorem execResumeRestoreDone_ends (h : (s.plot fn).moving.restoring = true) :
    exec (.resumeRestoreDone fn) s =
      .next ((((s.plot fn).moving.saved.foldl (State.restoreBlock (s.plot fn).cores) s).modPlot fn (fun p => { p with moving := {}, place.state := if p.place.hadImage then 2 else 1 })).reclaim fn) :=
  if_neg (by rw [h]; exact Bool.false_ne_true)

end Moves

/-! ### Flash operations -/

section Flash

variable {s t : State} {o : FlashOp} {rest : List FlashOp}

/-- The packet that stands for a queued flash operation (R495). -/
def FlashOp.staged (o : FlashOp) : Staged := { type := 0x2A, p := o.p, unit := o.unit, acceptedAt := 0, target := 0, epoch := 0 }

/-- The state with its oldest flash operation taken. -/
def State.withOps (s : State) (rest : List FlashOp) : State := { s with hub.flash.ops := rest }

/-- FLASH_OP_DONE with an operation queued (R495). -/
theorem execFlashOpDone_eq (h : s.hub.flash.ops = o :: rest) :
    exec .flashOpDone s =
      match (s.withOps rest).flashRefusal o.p with
      | some c => .next ((s.withOps rest).refuse o.staged c)
      | none =>
        match (s.withOps rest).flashRun o.p with
        | .ok t => .next (t.complete o.staged o.bell 0)
        | .error c => .next ((s.withOps rest).refuse o.staged c) := by
  show execFlashOpDone s = _
  unfold execFlashOpDone
  rw [h]
  rfl

theorem State.complete_hub (st : Staged) (b : BitVec 48) (code : Code) : ∃ n, (s.complete st b code).hub = { s.hub with seq := n } := by
  unfold State.complete
  split
  · exact ⟨s.hub.seq, rfl⟩
  · exact ⟨s.hub.seq + 1, rfl⟩

/-- An operation that its checks let through ends with its effect (R495). -/
theorem execFlashOpDone_ends (h : s.hub.flash.ops = o :: rest) (hchecks : (s.withOps rest).flashRefusal o.p = none) (hrun : (s.withOps rest).flashRun o.p = .ok t) (hops : t.hub.flash.ops = rest) :
    ∃ v : State, exec .flashOpDone s = .next v ∧ v.hub.flash = t.hub.flash ∧ v.hub.keys = t.hub.keys ∧ v.hub.boot = t.hub.boot ∧ v.hub.flash.ops = rest := by
  obtain ⟨n, hhub⟩ := t.complete_hub o.staged o.bell 0
  refine ⟨t.complete o.staged o.bell 0, ?_, ?_⟩
  · rw [execFlashOpDone_eq h, hchecks, hrun]
  · rw [hhub]
    exact ⟨rfl, rfl, rfl, hops⟩

/-- A flash that is put in the place of the hub die's. -/
def State.withFlash (s : State) (f : Flash) : State := s.modHub fun h => { h with flash := f }

section Operations

variable {p : PacketIn}

theorem State.flashRun_write (h : flashOpOf p.param = 1) :
    s.flashRun p = .ok (s.withFlash (s.hub.flash.program ((AMap.get {} s.hub.flash.catalogue (fieldOf p.param 0 4)).offset.toNat + fieldOf p.param 8 32) p.payload)) := by
  unfold State.flashRun
  rw [h]
  rfl

theorem State.flashRun_commit (h : flashOpOf p.param = 2) (hverdict : ((AMap.get {} s.hub.flash.catalogue (fieldOf p.param 0 4)).verify s.hub.keys s.hub.flash).verdict = 0) :
    s.flashRun p = .ok (s.modHub fun h => { h with
      boot.headerB := !h.boot.headerB
      flash := s.hub.flash.writeCatalogue h.boot.headerB (AMap.set s.hub.flash.catalogue (fieldOf p.param 0 4) { (AMap.get {} s.hub.flash.catalogue (fieldOf p.param 0 4)).verify s.hub.keys s.hub.flash with state := 1 }) }) := by
  unfold State.flashRun
  rw [h]
  exact if_neg (by rw [hverdict]; decide)

theorem State.flashRun_delete (h : flashOpOf p.param = 3) :
    s.flashRun p = .ok (s.modHub fun h => { h with boot.headerB := !h.boot.headerB, flash := s.hub.flash.writeCatalogue h.boot.headerB (AMap.erase s.hub.flash.catalogue (fieldOf p.param 0 4)) }) := by
  unfold State.flashRun
  rw [h]
  rfl

theorem State.flashRun_config (h : flashOpOf p.param = 4) :
    s.flashRun p = .ok (s.withFlash { s.hub.flash.program (configOffset (!s.hub.flash.configB)) (p.payload.take 4 ++ bytesOfNat 4 (s.hub.flash.configGen.toNat + 1) ++ p.payload.drop 8) with
      configGen := BitVec.ofNat 32 (s.hub.flash.configGen.toNat + 1), configB := !s.hub.flash.configB }) := by
  unfold State.flashRun
  rw [h]
  rfl

theorem State.flashRun_raise (h : flashOpOf p.param = 5) : s.flashRun p = .ok (s.modHub fun h => ({ h with keys.minSecurity := BitVec.ofNat 7 (fieldOf p.param 8 32) } : Hub).reverify) := by
  unfold State.flashRun
  rw [h]
  rfl

theorem State.flashRun_keyload (h : flashOpOf p.param = 6) :
    s.flashRun p = .ok (s.modHub fun h => ({ h with keys.batteryKey := (h.keys.source 0).bind (fun k => Config.kwUnwrap k p.payload) } : Hub).reverify) := by
  unfold State.flashRun
  rw [h]
  rfl

theorem State.flashRun_begin {n : Nat} (h : flashOpOf p.param = 0) (hfree : s.hub.flash.freeRange (fieldOf p.param 8 32) = some n) :
    s.flashRun p = .ok (s.withFlash { s.hub.flash.eraseRange n (ceilDiv (fieldOf p.param 8 32) 65536 * 65536) with
      catalogue := AMap.set s.hub.flash.catalogue (fieldOf p.param 0 4) { state := 2, offset := BitVec.ofNat 32 n, length := BitVec.ofNat 32 (fieldOf p.param 8 32) } }) := by
  unfold State.flashRun
  rw [h]
  dsimp only
  rw [hfree]
  rfl

theorem bitVec32_ofNat_succ (x : BitVec 32) : BitVec.ofNat 32 (x.toNat + 1) = x + 1 := by
  rw [BitVec.ofNat_add, BitVec.ofNat_toNat, BitVec.setWidth_eq]
  rfl

/-- A BEGIN that its checks let through has a LENGTH of R495 and a free range. -/
theorem State.flashRefusal_begin (h : flashOpOf p.param = 0) (hchecks : s.flashRefusal p = none) :
    fieldOf p.param 8 32 ≤ 536871424 ∧ ∃ n, s.hub.flash.freeRange (fieldOf p.param 8 32) = some n := by
  have hrule : s.flashRefusal p = if s.slotLoaded (fieldOf p.param 0 4) then some 0x1008
      else if decide (fieldOf p.param 8 32 < 1536) || decide (536871424 < fieldOf p.param 8 32) || (s.hub.flash.freeRange (fieldOf p.param 8 32)).isNone then some 0x100B else none := by
    unfold State.flashRefusal
    rw [h]
    rfl
  rw [hrule] at hchecks
  split at hchecks
  · cases hchecks
  · split at hchecks
    · cases hchecks
    · next hok =>
      simp only [Bool.or_eq_true, decide_eq_true_eq, not_or, not_lt, Option.isNone_iff_eq_none] at hok
      obtain ⟨⟨-, hle⟩, hfree⟩ := hok
      exact ⟨hle, Option.ne_none_iff_exists'.1 hfree⟩

/-- The minimum security version of a RAISE that its checks let through (R495). -/
theorem State.flashRefusal_raise (h : flashOpOf p.param = 5) (hchecks : s.flashRefusal p = none) : (BitVec.ofNat 7 (fieldOf p.param 8 32)).toNat = fieldOf p.param 8 32 := by
  have hrule : s.flashRefusal p = if decide (fieldOf p.param 8 32 ≤ s.hub.keys.minSecurity.toNat) || decide (64 < fieldOf p.param 8 32) then some 0x5004
      else if s.plots.any (fun q => q.2.place.image.isSome && decide ((AMap.get {} s.hub.flash.catalogue (q.2.place.image.getD 0).toNat).secVersion.toNat < fieldOf p.param 8 32)) then some 0x1008 else none := by
    unfold State.flashRefusal
    rw [h]
    rfl
  rw [hrule] at hchecks
  split at hchecks
  · cases hchecks
  · next hok =>
    simp only [Bool.or_eq_true, decide_eq_true_eq, not_or, not_lt] at hok
    exact (BitVec.toNat_ofNat _ _).trans (Nat.mod_eq_of_lt (lt_of_le_of_lt hok.2 (by decide)))

end Operations

end Flash

end Sys2Proof.Machine

namespace Sys2Proof.Claims

open Sys2Proof.Machine

/-- Settles O59. -/
theorem movesAndFlashOperationsEnd : Obligations.MovesAndFlashOperationsEnd := by
  unfold Obligations.MovesAndFlashOperationsEnd
  refine ⟨?_, ?_, ?_, ?_, ?_, ?_⟩
  · intro s fn p
    refine ⟨fun hno => if_pos (by rw [show (s.plot fn).moving.saving = false from hno]; rfl), fun hsaving => ?_⟩
    refine ⟨_, execPreemptSaveDone_ends hsaving, ?_⟩
    obtain ⟨cs, hcs⟩ := State.leaveCores_rest (s := s) (s.plot fn).cores
    have hcore := State.leaveCores_core (s := s) (s.plot fn).cores
    rw [hcs] at hcore ⊢
    refine ⟨State.setPlot_plot_same _ _ _, fun g hg => State.setPlot_plot_ne _ _ hg, fun c hc => (hcore c).trans (if_pos hc), fun c hc => (hcore c).trans (if_neg hc), rfl⟩
  · intro s fn p
    refine ⟨fun hno => if_pos (by rw [show (s.plot fn).moving.restoring = false from hno]; rfl), fun hrestoring hnodup hrel => ?_⟩
    refine ⟨_, execResumeRestoreDone_ends hrestoring, ?_⟩
    have hblocks := fun {c k} => State.restoreBlocks_core (s := s) hnodup (c := c) (k := k) p.moving.saved hrel
    have hothers := fun {c} => State.restoreBlocks_other (s := s) (cs := p.cores) (c := c) p.moving.saved
    have hplot : (p.moving.saved.foldl (State.restoreBlock p.cores) s).plot fn = p := State.restoreBlocks_plot _
    change ((State.reclaim (State.modPlot (p.moving.saved.foldl (State.restoreBlock p.cores) s) fn _) fn).plot fn).place = _ ∧ _
    generalize p.moving.saved.foldl (State.restoreBlock p.cores) s = v at hblocks hothers hplot ⊢
    obtain ⟨hplace, hmoving, hcore⟩ := State.reclaim_frame (s := v.modPlot fn (fun p => { p with moving := {}, place.state := if p.place.hadImage then 2 else 1 })) (fn := fn)
    have hmoved : (v.modPlot fn (fun p => { p with moving := {}, place.state := if p.place.hadImage then 2 else 1 })).plot fn = { p with moving := {}, place.state := if p.place.hadImage then 2 else 1 } := by
      rw [State.modPlot_eq, State.setPlot_plot_same, hplot]
    exact ⟨hplace.trans (by rw [hmoved]), hmoving.trans (by rw [hmoved]), fun k hk c hc => (hcore c).trans (hblocks hk hc), fun c hc => (hcore c).trans (hothers hc)⟩
  · exact fun s c hc => if_neg (by rw [hc]; exact Bool.false_ne_true)
  · exact fun s c hc => if_pos (by rw [hc]; rfl)
  · intro s hops
    show execFlashOpDone s = _
    unfold execFlashOpDone
    rw [hops]
  · intro s o rest hops u st slot arg
    have hexec := execFlashOpDone_eq hops
    refine ⟨fun code hcode => ?_, fun hchecks => ⟨fun code hcode => ?_, fun t ht => ?_, fun hop => ?_, fun hop => ?_, fun hop => ?_, fun hop hverdict => ?_, fun hop => ?_, fun hop => ?_, fun hop => ?_⟩⟩
    · rw [hexec, show (s.withOps rest).flashRefusal o.p = some code from hcode]
      rfl
    · rw [hexec, show (s.withOps rest).flashRefusal o.p = none from hchecks, show (s.withOps rest).flashRun o.p = .error code from hcode]
      rfl
    · rw [hexec, show (s.withOps rest).flashRefusal o.p = none from hchecks, show (s.withOps rest).flashRun o.p = .ok t from ht]
      rfl
    · obtain ⟨v, hv, hflash, -, -, hvops⟩ := execFlashOpDone_ends hops hchecks (State.flashRun_delete hop) rfl
      refine ⟨v, hv, ?_, hvops⟩
      rw [hflash]
      exact AMap.get_erase_same _ _ _
    · obtain ⟨v, hv, -, hkeys, -, hvops⟩ := execFlashOpDone_ends hops hchecks (State.flashRun_raise hop) rfl
      refine ⟨v, hv, ?_, hvops⟩
      rw [hkeys]
      exact State.flashRefusal_raise (s := s.withOps rest) hop hchecks
    · obtain ⟨v, hv, hflash, -, -, hvops⟩ := execFlashOpDone_ends hops hchecks (State.flashRun_write hop) rfl
      exact ⟨v, hv, by rw [hflash]; rfl, hvops⟩
    · obtain ⟨v, hv, hflash, -, hboot, hvops⟩ := execFlashOpDone_ends hops hchecks (State.flashRun_commit hop hverdict) rfl
      refine ⟨v, hv, ?_, by rw [hboot]; rfl, hvops⟩
      rw [hflash]
      exact congrArg CatEntry.state (AMap.get_set_same _ _ _ _)
    · obtain ⟨v, hv, hflash, -, -, hvops⟩ := execFlashOpDone_ends hops hchecks (State.flashRun_config hop) rfl
      refine ⟨v, hv, ?_, by rw [hflash]; rfl, hvops⟩
      rw [hflash]
      exact bitVec32_ofNat_succ s.hub.flash.configGen
    · obtain ⟨v, hv, -, hkeys, -, hvops⟩ := execFlashOpDone_ends hops hchecks (State.flashRun_keyload hop) rfl
      exact ⟨v, hv, by rw [hkeys]; rfl, hvops⟩
    · obtain ⟨harg, f, hfree⟩ := State.flashRefusal_begin (s := s.withOps rest) hop hchecks
      obtain ⟨v, hv, hflash, -, -, hvops⟩ := execFlashOpDone_ends hops hchecks (State.flashRun_begin hop hfree) rfl
      refine ⟨v, hv, ?_, ?_, hvops⟩
      · rw [hflash]
        exact congrArg CatEntry.state (AMap.get_set_same _ _ _ _)
      · rw [hflash]
        refine (congrArg (fun e : CatEntry => e.length.toNat) (AMap.get_set_same _ _ _ _)).trans ?_
        exact (BitVec.toNat_ofNat _ _).trans (Nat.mod_eq_of_lt (lt_of_le_of_lt harg (by decide)))

end Sys2Proof.Claims
end

section
/-! Mailboxes, registers and diagnostics (R20, R21, R62, R382, R409, R435, R436, R455): O60. -/

namespace Sys2Proof.Machine

/-! ### Mailboxes (R435, R436) -/

section Mailboxes

variable {s : State} {fn : Fn} {w : Word}

/-- A command that comes before the last one is taken is ignored. -/
theorem State.mailCommand_full (h : (s.plot fn).host.toFull = true) : s.mailCommand fn w = s.ignoreWrite fn 0x50 := if_pos h

theorem State.mailCommand_ping (h : (s.plot fn).host.toFull = false) (hw : fieldOf w 0 8 = 1) :
    s.mailCommand fn w = s.setPlot fn (({ s.plot fn with host.mboxTo := w } : Plot).answer (answerWord 0 1 (fieldOf w 8 40))) := by
  unfold State.mailCommand
  rw [if_neg (ne_true_of_eq_false h), hw]
  rfl

theorem State.mailCommand_status (h : (s.plot fn).host.toFull = false) (hw : fieldOf w 0 8 = 2) :
    s.mailCommand fn w = s.setPlot fn (({ s.plot fn with host.mboxTo := w } : Plot).answer (answerWord 0 2 ((s.plot fn).stateNow + 8 * fieldOf (s.plot fn).bell.bell 0 37))) := by
  unfold State.mailCommand
  rw [if_neg (ne_true_of_eq_false h), hw]
  rfl

theorem State.mailCommand_drain (h : (s.plot fn).host.toFull = false) (hw : fieldOf w 0 8 = 3) :
    s.mailCommand fn w = (s.setPlot fn { s.plot fn with host.mboxTo := w, host.draining := true }).drainNow fn := by
  unfold State.mailCommand
  rw [if_neg (ne_true_of_eq_false h), hw]
  rfl

/-- A command word of a mailbox: its command code, and 40 bits of its argument. -/
theorem mailWord_code (arg : BitVec 56) (cmd : BitVec 8) : fieldOf (arg ++ cmd) 0 8 = cmd.toNat := congrArg BitVec.toNat BitVec.extractLsb'_append_eq_right

theorem mailWord_arg (arg : BitVec 56) (cmd : BitVec 8) : fieldOf (arg ++ cmd) 8 40 = arg.toNat % 2 ^ 40 :=
  congrArg BitVec.toNat (BitVec.extractLsb'_append_eq_of_le (xhi := arg) (xlo := cmd) (start := 8) (len := 40) le_rfl)

theorem Plot.answer_now {p : Plot} (h : p.host.fromFull = false) (w : Word) :
    p.answer w = { p with host.mboxFrom := w, host.fromFull := true, counts.vector1 := if p.host.mboxEn then p.counts.vector1 + 1 else p.counts.vector1 } :=
  if_neg (ne_true_of_eq_false h)

theorem Plot.answer_later {p : Plot} (h : p.host.fromFull = true) (w : Word) : p.answer w = { p with host.answers := p.host.answers ++ [w] } := if_pos h

theorem State.drainNow_done (hdraining : (s.plot fn).host.draining = true) (hidle : (s.plot fn).sq.tail = (s.plot fn).sq.head) (hempty : s.backlogEmpty fn = true) :
    s.drainNow fn = s.setPlot fn (({ s.plot fn with sq.enable := false, host.draining := false } : Plot).answer (answerWord 0 3 0)) := by
  have hready : ((s.plot fn).host.draining && (s.plot fn).sqIdle && s.backlogEmpty fn) = true := by
    rw [hdraining, hempty, Plot.sqIdle, hidle, beq_self_eq_true]
    rfl
  exact if_pos hready

theorem State.drainNow_waits (h : (s.plot fn).host.draining = false ∨ (s.plot fn).sq.tail ≠ (s.plot fn).sq.head ∨ s.backlogEmpty fn = false) : s.drainNow fn = s := by
  refine if_neg fun hready => ?_
  simp only [Bool.and_eq_true, Plot.sqIdle, beq_iff_eq] at hready
  obtain ⟨⟨hdraining, hidle⟩, hempty⟩ := hready
  rcases h with h | h | h
  · exact absurd (hdraining.symm.trans h) (by decide)
  · exact h hidle
  · exact absurd (hempty.symm.trans h) (by decide)

/-- A read of PLT.MBOXFROM: the word goes to the host, and the next answer takes its place (R435). -/
theorem State.readMbox_last (h : (s.plot fn).host.answers = []) : (s.readMbox fn).plot fn = { s.plot fn with host.mboxFrom := 0, host.fromFull := false } := by
  unfold State.readMbox
  dsimp only
  rw [h]
  exact State.setPlot_plot_same _ _ _

theorem State.readMbox_next {l : List Word} (h : (s.plot fn).host.answers = w :: l) :
    (s.readMbox fn).plot fn = ({ s.plot fn with host.mboxFrom := 0, host.fromFull := false, host.answers := l } : Plot).answer w := by
  unfold State.readMbox
  dsimp only
  rw [h]
  exact State.setPlot_plot_same _ _ _

end Mailboxes

/-! ### Reads (R20, R409) -/

section Reads

variable {s : State} {fn : Fn}

theorem execReadClear_eq (addr : RegAddr) : exec (.readClear fn addr) s = .next ((s.clearRead fn addr).modHub (fun h => { h with hostRead := s.readReg fn addr })) := rfl

/-- A read of a register of a function window without RC fields clears nothing. -/
theorem State.clearFunction_other {off : BitVec 16} (h : off ∉ ([0x48, 0x58, 0x110, 0x138, 0x148, 0x1020] : List (BitVec 16))) : s.clearFunction fn off.toNat = s := by
  simp only [List.mem_cons, List.not_mem_nil, or_false, not_or] at h
  obtain ⟨h0, h1, h2, h3, h4, h5⟩ := h
  unfold State.clearFunction
  split
  · next he => exact absurd (BitVec.eq_of_toNat_eq he) h0
  · next he => exact absurd (BitVec.eq_of_toNat_eq he) h1
  · next he => exact absurd (BitVec.eq_of_toNat_eq he) h2
  · next he => exact absurd (BitVec.eq_of_toNat_eq he) h3
  · next he => exact absurd (BitVec.eq_of_toNat_eq he) h4
  · next he => exact absurd (BitVec.eq_of_toNat_eq he) h5
  · rfl

theorem CoreState.clearReg_other {c : CoreState} {off : Nat} (h : off ∉ [0x28, 0x30, 0x38, 0x40, 0x48, 0x50, 0x60]) : c.clearReg off = c := by
  simp only [List.mem_cons, List.not_mem_nil, or_false, not_or] at h
  obtain ⟨h0, h1, h2, h3, h4, h5, h6⟩ := h
  unfold CoreState.clearReg
  split
  · exact absurd rfl h0
  · exact absurd rfl h1
  · exact absurd rfl h2
  · exact absurd rfl h3
  · exact absurd rfl h4
  · exact absurd rfl h5
  · exact absurd rfl h6
  · rfl

/-- A read through a core window without RC fields changes no core. -/
theorem State.clearRead_core {y x : BitVec 6} {off : BitVec 16} (h : off.toNat ∉ [0x28, 0x30, 0x38, 0x40, 0x48, 0x50, 0x60]) (c : CoreId) : (s.clearRead fn (.core y x off)).core c = s.core c := by
  show (match s.windowCore fn y x with | some c => s.modCore c (fun k => k.clearReg off.toNat) | none => s).core c = s.core c
  split
  · next d hd =>
    by_cases hc : c = d
    · rw [hc, State.modCore_self, CoreState.clearReg_other h]
    · exact State.modCore_other _ hc
  · rfl

theorem State.clearRead_window {y x : BitVec 6} {off : BitVec 16} {c : CoreId} (h : s.windowCore fn y x = some c) : s.clearRead fn (.core y x off) = s.modCore c (fun k => k.clearReg off.toNat) := by
  unfold State.clearRead
  dsimp only
  rw [h]

/-- A read of CORE.SYNC clears its counts. -/
theorem State.clearRead_sync {y x : BitVec 6} {c : CoreId} (h : s.windowCore fn y x = some c) : (s.clearRead fn (.core y x 0x48)).core c = { s.core c with work.sync := {} } := by
  rw [State.clearRead_window h, State.modCore_self]
  rfl

end Reads

/-! ### Writes (R21, R62, R382, R409) -/

section Writes

variable {s : State} {fn : Fn}

/-- Whether a write puts a field of PLT.BELLCTL out of its range (R62). -/
def ctlBreaks (old v : Word) (lo len top : Nat) : Prop := top < fieldOf v lo len ∧ fieldOf v lo len ≠ fieldOf old lo len

theorem State.writeBellctl_ignored {v : Word} (h : ctlBreaks (s.plot fn).bell.ctl v 0 2 1 ∨ ctlBreaks (s.plot fn).bell.ctl v 16 12 4000 ∨ ctlBreaks (s.plot fn).bell.ctl v 32 12 4000) :
    s.writeBellctl fn v = s.ignoreWrite fn 0x108 := by
  refine if_pos ?_
  simp only [Bool.or_eq_true, Bool.and_eq_true, bne_iff_ne, decide_eq_true_eq]
  rcases h with ⟨h, hne⟩ | ⟨h, hne⟩ | ⟨h, hne⟩
  · exact .inl (.inl ⟨hne, h⟩)
  · exact .inl (.inr ⟨hne, h⟩)
  · exact .inr ⟨hne, h⟩

theorem State.writeBellctl_taken {v : Word} (h0 : ¬ ctlBreaks (s.plot fn).bell.ctl v 0 2 1) (h1 : ¬ ctlBreaks (s.plot fn).bell.ctl v 16 12 4000) (h2 : ¬ ctlBreaks (s.plot fn).bell.ctl v 32 12 4000) :
    s.writeBellctl fn v = s.modPlot fn (fun p => { p with bell.ctl := v &&& 0x00000FFF0FFF0007 }) := by
  refine if_neg fun hbad => ?_
  simp only [Bool.or_eq_true, Bool.and_eq_true, bne_iff_ne, decide_eq_true_eq] at hbad
  rcases hbad with (⟨hne, h⟩ | ⟨hne, h⟩) | ⟨hne, h⟩
  · exact h0 ⟨h, hne⟩
  · exact h1 ⟨h, hne⟩
  · exact h2 ⟨h, hne⟩

theorem rwlIn_iff {f : RwlField} {n : Nat} : rwlIn f n = true ↔ (rwlRange f).1 ≤ n ∧ n ≤ (rwlRange f).2 := by
  unfold rwlIn
  rw [Bool.and_eq_true, decide_eq_true_eq, decide_eq_true_eq]

/-- Whether a field takes a value: one in its range, or the one it holds, of STEPS excepted (R349, R409). -/
theorem PlotRegs.rwlOk_iff {r : PlotRegs} {f : RwlField} {n : Nat} : r.rwlOk f n = true ↔ ((rwlRange f).1 ≤ n ∧ n ≤ (rwlRange f).2) ∨ (f ≠ .steps ∧ n = r.rwl f) := by
  unfold PlotRegs.rwlOk
  rw [Bool.or_eq_true, rwlIn_iff, Bool.and_eq_true, bne_iff_ne, beq_iff_eq]

/-- A value in its range stands in its field as it was written. -/
theorem PlotRegs.setRwl_rwl {r : PlotRegs} {f : RwlField} {n : Nat} (h : (rwlRange f).1 ≤ n ∧ n ≤ (rwlRange f).2) : (r.setRwl f n).rwl f = n := by
  obtain ⟨hlo, hhi⟩ := h
  have bit : ∀ n ≤ 1, b2n (n == 1) = n := by decide
  cases f with
  | bruiseNan => exact bit n hhi
  | requireSigned => exact bit n hhi
  | rampDown => exact Nat.mod_eq_of_lt (Nat.lt_of_le_of_lt hhi (by decide))
  | rampUp => exact Nat.mod_eq_of_lt (Nat.lt_of_le_of_lt hhi (by decide))
  | floor => exact Nat.mod_eq_of_lt (Nat.lt_of_le_of_lt hhi (by decide))
  | steps => exact Nat.mod_eq_of_lt (Nat.lt_of_le_of_lt hhi (by decide))

theorem PlotRegs.setRwl_other {r : PlotRegs} {f g : RwlField} {n : Nat} (h : g ≠ f) : (r.setRwl f n).rwl g = r.rwl g := by
  cases f <;> cases g <;> simp_all [PlotRegs.setRwl, PlotRegs.rwl]

/-- A write of one field: taken before the load where the field takes the value, otherwise ignored. -/
theorem State.writeRwl_one {f : RwlField} {off n : Nat} (hload : (s.plot fn).place.image = none) (hok : (s.plot fn).regs.rwlOk f n = true) :
    s.writeRwl fn off [(f, n)] = s.setPlot fn { s.plot fn with regs := if rwlIn f n then (s.plot fn).regs.setRwl f n else (s.plot fn).regs } := by
  refine if_neg ?_
  rw [hload, List.any_cons, List.any_nil, hok]
  decide

theorem State.writeRwl_ignored {f : RwlField} {off n : Nat} (h : (s.plot fn).place.image ≠ none ∨ (s.plot fn).regs.rwlOk f n = false) : s.writeRwl fn off [(f, n)] = s.ignoreWrite fn off := by
  refine if_pos ?_
  rw [List.any_cons, List.any_nil]
  rcases h with h | h
  · rw [Option.isSome_iff_ne_none.2 h]
    rfl
  · rw [h]
    exact Bool.or_true _

/-- A register that takes no write is left as it is. -/
theorem State.writeFunction_readOnly {off : BitVec 16} {z : AccessSize} {v : Word}
    (h : off ∉ ([0x00, 0x08, 0x10, 0x20, 0x28, 0x30, 0x40, 0x50, 0x108, 0x120, 0x128, 0x140, 0x1028] : List (BitVec 16))) : s.writeFunction fn off.toNat z v = s := by
  have hne : ∀ n : BitVec 16, n ∈ ([0x00, 0x08, 0x10, 0x20, 0x28, 0x30, 0x40, 0x50, 0x108, 0x120, 0x128, 0x140, 0x1028] : List (BitVec 16)) → off.toNat ≠ n.toNat :=
    fun n hn he => h (BitVec.eq_of_toNat_eq he ▸ hn)
  unfold State.writeFunction
  dsimp only
  split
  · rfl
  · split
    · next he => exact absurd he (hne 0x00 (by decide))
    · next he => exact absurd he (hne 0x08 (by decide))
    · next he => exact absurd he (hne 0x10 (by decide))
    · next he => exact absurd he (hne 0x20 (by decide))
    · next he => exact absurd he (hne 0x28 (by decide))
    · next he => exact absurd he (hne 0x30 (by decide))
    · next he => exact absurd he (hne 0x40 (by decide))
    · next he => exact absurd he (hne 0x50 (by decide))
    · next he => exact absurd he (hne 0x108 (by decide))
    · next he => exact absurd he (hne 0x120 (by decide))
    · next he => exact absurd he (hne 0x128 (by decide))
    · next he => exact absurd he (hne 0x140 (by decide))
    · next he => exact absurd he (hne 0x1028 (by decide))
    · rfl

/-- An access of another size of the module window writes nothing (R409). -/
theorem execRegisterWrite_module_other {off : BitVec 26} {v : Word} : exec (.registerWrite fn (.module off) .other v) s = .next s := by
  show execRegisterWrite fn (.module off) .other v s = .next s
  unfold execRegisterWrite
  dsimp only
  split <;> rfl

end Writes

/-! ### Diagnostics (R455) -/

section Diagnostics

variable {s t u : State} {fn : Fn}

/-- Of a plot, its bells, its place, its step, and its run where none is open: what undoing a diagnostic step leaves. -/
def Plot.restPart (p : Plot) : BellState × Place × StepState × Bool × Option Run := (p.bell, p.place, p.step, p.run.isOpen, if p.run.isOpen then none else some p.run)

theorem Plot.restPart_run {p q : Plot} (h : q.restPart = p.restPart) (hclosed : p.run.isOpen = false) : q.run = p.run := by
  have hopen : q.run.isOpen = p.run.isOpen := congrArg (fun x => x.2.2.2.1) h
  have hrun : (if q.run.isOpen then none else some q.run) = (if p.run.isOpen then none else some p.run) := congrArg (fun x => x.2.2.2.2) h
  rw [hopen, if_neg (ne_true_of_eq_false hclosed), if_neg (ne_true_of_eq_false hclosed)] at hrun
  exact Option.some.inj hrun

theorem Plot.restPart_of_run {p : Plot} {r : Run} (hopen : r.isOpen = p.run.isOpen) (hclosed : p.run.isOpen = false → r = p.run) : ({ p with run := r } : Plot).restPart = p.restPart := by
  unfold Plot.restPart
  dsimp only
  rw [hopen]
  split
  · rfl
  · next h => rw [hclosed (eq_false_of_ne_true h)]

/-- Work that leaves the rest of a plot as it was. -/
def Rests (fn : Fn) (s t : State) : Prop := (t.plot fn).restPart = (s.plot fn).restPart

theorem Rests.refl : Rests fn s s := rfl

theorem Rests.trans (h : Rests fn s t) (k : Rests fn t u) : Rests fn s u := Eq.trans k h

theorem Rests.foldl {α : Type} (f : State → α → State) (hf : ∀ s a, Rests fn s (f s a)) (l : List α) (s : State) : Rests fn s (l.foldl f s) := by
  induction l generalizing s with
  | nil => exact .refl
  | cons a l ih => exact (hf s a).trans (ih _)

theorem Rests.modPlot {f : Plot → Plot} (h : (f (s.plot fn)).restPart = (s.plot fn).restPart) : Rests fn s (s.modPlot fn f) := by
  unfold Rests
  rw [State.modPlot_eq, State.setPlot_plot_same]
  exact h

theorem State.queueReport_rests (r : Report) : Rests fn s (s.queueReport fn r) :=
  Rests.trans (t := s.modPlot fn (fun p => { p with faults := p.faults.enqueue { r with seq := s.hub.seq } })) (Rests.modPlot rfl) rfl

theorem State.logReport_rests (code : Code) (d0 d1 d2 : Word) : Rests fn s (s.logReport code d0 d1 d2) := rfl

theorem State.coreReport_rests (c : CoreId) (code : Code) (d0 d1 d2 : Word) : Rests fn s (s.coreReport fn c code d0 d1 d2) := by
  unfold State.coreReport
  refine Rests.trans (Rests.modPlot ?_) (State.queueReport_rests _)
  exact Plot.restPart_of_run rfl fun hclosed => by rw [if_neg (ne_true_of_eq_false hclosed)]

theorem State.readImage_rests (c : CoreId) : Rests fn s (s.readImage fn c) := by
  unfold State.readImage
  split
  · exact .refl
  · exact Rests.trans (t := s.modCore c _) rfl (State.coreReport_rests _ _ _ _ _)

theorem State.noteJournals_rests : Rests fn s (s.noteJournals fn) := by
  unfold State.noteJournals
  exact .foldl _ (fun s c => .foldl _ (fun s u => s.logReport_rests _ _ _ _) _ s) _ s

/-- An undone step leaves the plot's bells, place and step, and its run where none is open (R455). -/
theorem State.restorePlot_rests : Rests fn s (s.restorePlot fn) := by
  have hnotes : Rests fn s ((s.clearMesh fn).noteJournals fn) := Rests.trans (t := s.clearMesh fn) rfl State.noteJournals_rests
  have hread : Rests fn ((s.clearMesh fn).noteJournals fn) (((s.clearMesh fn).noteJournals fn).readImages fn) := .foldl _ (fun s c => State.readImage_rests c) _ _
  have hs : s.restorePlot fn = (((((s.clearMesh fn).noteJournals fn).readImages fn).mapCores fn CoreState.restoreStep).mapChannels fn Channel.restoreStep).modPlot fn
      (fun p => { p with rounds := [], commons.requests := [], sbase := p.sbaseImage, faults.attemptReports := [] }) := rfl
  refine (hnotes.trans hread).trans ?_
  rw [hs]
  generalize ((s.clearMesh fn).noteJournals fn).readImages fn = v
  obtain ⟨cs, hcs⟩ := v.mapCores_frame fn CoreState.restoreStep
  rw [hcs]
  exact Rests.modPlot rfl

/-- A core that starts a diagnostic step at an entry, its fill stream idle. -/
def CoreState.beginDiag (e : Nat) (c : CoreState) : CoreState := { c.beginStep with step.main.next := e, step.fill.stopped := true }

theorem CoreState.beginDiag_beginDiag (e : Nat) (c : CoreState) : (c.beginDiag e).beginDiag e = c.beginDiag e := rfl

/-- A change that is made twice as once changes every core of a plot once. -/
theorem State.mapCores_idem {f : CoreState → CoreState} (hf : ∀ c, f (f c) = f c) (c : CoreId) :
    (s.mapCores fn f).core c = if c ∈ (s.plot fn).cores then f (s.core c) else s.core c := by
  unfold State.mapCores
  generalize (s.plot fn).cores = l
  induction l generalizing s with
  | nil => exact (if_neg List.not_mem_nil).symm
  | cons a l ih =>
    rw [List.foldl_cons, ih]
    by_cases hc : c = a
    · rw [hc, State.modCore_self, if_pos (List.mem_cons_self ..), hf, ite_self]
    · rw [State.modCore_other _ hc, if_congr (List.mem_cons.trans (or_iff_right hc)) rfl rfl]

/-- A plot that starts a diagnostic step. -/
def Plot.diagStep (p : Plot) : Plot := { p with step := { p.step with phase := .diagnostic, released := p.fieldMask } }

theorem State.beginDiag_plot : (s.beginDiag fn).plot fn = (s.plot fn).diagStep := by
  unfold State.beginDiag
  obtain ⟨cs, hcs⟩ := s.mapCores_frame fn (CoreState.beginDiag (s.plot fn).counts.diagEntry.toNat)
  exact (congrArg (fun v : State => (v.modPlot fn Plot.diagStep).plot fn) hcs).trans (State.setPlot_plot_same _ _ _)

theorem State.beginDiag_core {c : CoreId} (h : c ∈ (s.plot fn).cores) : (s.beginDiag fn).core c = (s.core c).beginDiag (s.plot fn).counts.diagEntry.toNat :=
  (State.mapCores_idem (s := s) (fn := fn) (CoreState.beginDiag_beginDiag (s.plot fn).counts.diagEntry.toNat) c).trans (if_pos h)

/-- A write of PLT.DIAG with GO: whether it is ignored. -/
theorem State.writeDiag_ignored {v : Word} (hgo : bitOf v 24 = true) (h : (s.plot fn).place.state ≠ 5 ∨ (s.plot fn).counts.diagBusy = true ∨ fieldOf v 16 8 = 0) :
    s.writeDiag fn v = s.ignoreWrite fn 0x1028 := by
  refine if_pos ?_
  simp only [hgo, Bool.true_and, Bool.or_eq_true, Bool.and_eq_true, decide_eq_true_eq, bne_iff_ne]
  exact .inr (or_assoc.2 h)

/-- The plot as PLT.DIAG is written with GO. -/
def Plot.diagGo (p : Plot) (v : Word) : Plot :=
  { p with counts.diagEntry := v.extractLsb' 0 13, counts.diagSteps := BitVec.ofNat 8 (fieldOf v 16 8), counts.diagBusy := true, counts.diagLeft := fieldOf v 16 8 }

/-- A write of PLT.DIAG with GO on a stopped plot: the plot's cores start the first diagnostic step. -/
theorem State.writeDiag_starts {v : Word} (hgo : bitOf v 24 = true) (hstate : (s.plot fn).place.state = 5) (hfree : (s.plot fn).counts.diagBusy = false) (hsteps : fieldOf v 16 8 ≠ 0) :
    ∃ t : State, s.writeDiag fn v = t.beginDiag fn ∧ t.plot fn = (s.plot fn).diagGo v ∧ ∀ c, t.core c = s.core c := by
  unfold State.writeDiag
  rw [if_neg (by rw [hgo, hstate, hfree, decide_eq_false hsteps, Bool.and_false]; decide), if_pos hgo]
  refine ⟨_, rfl, ?_, fun _ => rfl⟩
  rw [State.modPlot_eq, State.setPlot_plot_same, State.setPlot_plot_same]
  rfl

/-! GO leaves the other fields of PLT.DIAG as they are written. -/

theorem bitOf_go (v : Word) : bitOf (v ||| 0x1000000) 24 = true := by
  simp [bitOf]

theorem fieldOf_go (v : Word) : fieldOf (v ||| 0x1000000) 16 8 = fieldOf v 16 8 := by
  refine congrArg BitVec.toNat (BitVec.eq_of_getLsbD_eq fun i hi => ?_)
  interval_cases i <;> simp

theorem fieldOf_goEntry (v : Word) : fieldOf (v ||| 0x1000000) 0 13 = fieldOf v 0 13 := by
  refine congrArg BitVec.toNat (BitVec.eq_of_getLsbD_eq fun i hi => ?_)
  interval_cases i <;> simp

/-- The report of a fault that ends a diagnostic step. -/
def State.diagReport (s : State) (fn : Fn) (f : DiagFault) : Report :=
  { code := f.code, core := coreDest f.core, attempt := (s.plot fn).bell.attempt, bell := (s.plot fn).bell.bell, offset := f.offset.setWidth 32, site := f.site, function := fn
    hostTag := (s.plot fn).run.hostTag, time := s.stamp }

/-- The reports of a diagnostic step: those of its attempt, and of the fault that ends it. -/
def State.diagReports (s : State) (fn : Fn) (fault : Option DiagFault) : List Report := s.attemptReports fn ++ (fault.map (State.diagReport s fn)).toList

/-- Whether a report cancels the rest of a plot's diagnostic steps. -/
def Report.cancels (r : Report) : Bool := r.cls == .program || r.cls == .system

/-- The plot after a diagnostic step that leaves `left` more. -/
def Plot.diagAfter (left : Nat) (p : Plot) : Plot := { p with counts.diagLeft := left, counts.diagBusy := left != 0, step := p.step.fresh }

/-- The plot after a diagnostic step, the next one begun where one is left. -/
def Plot.diagNext (left : Nat) (p : Plot) : Plot := if left = 0 then p.diagAfter left else (p.diagAfter left).diagStep

/-- The steps that are left change no bell, no place and no run. -/
theorem Plot.diagNext_rest (left : Nat) (p : Plot) : (p.diagNext left).bell = p.bell ∧ (p.diagNext left).place = p.place ∧ (p.diagNext left).run = p.run := by
  unfold Plot.diagNext
  split <;> exact ⟨rfl, rfl, rfl⟩

/-- A plot's diagnostic step undone, with `left` more to come, the next of them started (R455). -/
def State.undoDiag (s : State) (fn : Fn) (rs : List Report) (left : Nat) : State :=
  let t := ((s.queueReports fn rs).restorePlot fn).modPlot fn (Plot.diagAfter left)
  if left = 0 then t else t.beginDiag fn

variable {fault : Option DiagFault}

theorem execDiagStep_eq (hbusy : (s.plot fn).counts.diagBusy = true) : exec (.diagStep fn fault) s =
    if !(s.diagReports fn fault).any Report.cancels && !(s.plot fn).cores.all (fun c => (s.core c).totals.arrived) then .next s
    else .next (s.undoDiag fn (s.diagReports fn fault) (if (s.diagReports fn fault).any Report.cancels then 0 else (s.plot fn).counts.diagLeft - 1)) := by
  refine (if_neg (by rw [hbusy]; decide)).trans ?_
  cases fault <;> rfl

/-- A diagnostic step is cut short by a report of its attempt, or by the fault that ends it, of class P or S. -/
theorem diagReports_any : (s.diagReports fn fault).any Report.cancels = true ↔
    (∃ r ∈ s.attemptReports fn, r.cls = .program ∨ r.cls = .system) ∨ ∃ f, fault = some f ∧ (codeClass f.code 0 = .program ∨ codeClass f.code 0 = .system) := by
  have hcancels : ∀ r : Report, r.cancels = true ↔ r.cls = .program ∨ r.cls = .system := fun r => by
    unfold Report.cancels
    rw [Bool.or_eq_true, beq_iff_eq, beq_iff_eq]
  unfold State.diagReports
  rw [List.any_append, Bool.or_eq_true]
  refine or_congr ?_ ?_
  · rw [List.any_eq_true]
    exact exists_congr fun r => and_congr_right fun _ => hcancels r
  · cases fault with
    | none => simp
    | some f =>
      refine (hcancels (s.diagReport fn f) |> Iff.trans (by simp)).trans ?_
      exact ⟨fun h => ⟨f, rfl, h⟩, fun ⟨g, hg, h⟩ => Option.some.inj hg ▸ h⟩

theorem State.queueReports_rests (rs : List Report) : Rests fn s (s.queueReports fn rs) := .foldl _ (fun s r => s.queueReport_rests r) rs s

/-- An undone diagnostic step: the plot rests as before but for its steps and what is left of them (R455). -/
theorem State.undoDiag_plot (rs : List Report) (left : Nat) : ∃ p : Plot, p.restPart = (s.plot fn).restPart ∧
    (s.undoDiag fn rs left).plot fn = p.diagNext left := by
  refine ⟨((s.queueReports fn rs).restorePlot fn).plot fn, (State.queueReports_rests rs).trans State.restorePlot_rests, ?_⟩
  unfold State.undoDiag Plot.diagNext
  have hplot : (((s.queueReports fn rs).restorePlot fn).modPlot fn (Plot.diagAfter left)).plot fn = (((s.queueReports fn rs).restorePlot fn).plot fn).diagAfter left := State.setPlot_plot_same _ _ _
  dsimp only
  split
  · exact hplot
  · rw [State.beginDiag_plot, hplot]

end Diagnostics

end Sys2Proof.Machine

namespace Sys2Proof.Claims

open Sys2Proof.Machine

/-- Settles O60. -/
theorem registersAndMailboxesAnswer : Obligations.RegistersAndMailboxesAnswer := by
  unfold Obligations.RegistersAndMailboxesAnswer
  refine ⟨?_, ?_, ?_, ?_, ?_, ?_, ?_, ?_⟩
  · intro s fn arg p kept
    refine ⟨fun hfull => ?_, fun hfull => ⟨?_, ?_, ?_⟩, fun hdraining hidle hempty => ?_, fun h => ?_, fun w => ⟨fun hfrom => ?_, fun hfrom => ?_⟩, ?_⟩
    · exact ⟨congrArg _ (State.mailCommand_full hfull), congrArg _ (State.mailCommand_full hfull), congrArg _ (State.mailCommand_full hfull)⟩
    · refine congrArg _ ((State.mailCommand_ping hfull (mailWord_code arg 1)).trans ?_)
      rw [mailWord_arg]
    · refine congrArg _ ((State.mailCommand_status hfull (mailWord_code arg 2)).trans ?_)
      rfl
    · exact congrArg _ (State.mailCommand_drain hfull (mailWord_code arg 3))
    · exact congrArg _ (State.drainNow_done hdraining hidle hempty)
    · exact congrArg _ (State.drainNow_waits h)
    · rw [Plot.answer_now hfrom]
      refine ⟨rfl, rfl, ?_⟩
      cases p.host.mboxEn <;> rfl
    · exact Plot.answer_later hfrom w
    · refine ⟨s.readMbox fn, rfl, rfl, fun hnone => ?_, fun w l hsome => ?_⟩
      · exact State.readMbox_last hnone
      · rw [State.readMbox_next hsome, Plot.answer_now rfl]
        exact ⟨rfl, rfl, rfl⟩
  · intro s fn addr p
    refine ⟨_, execReadClear_eq addr, rfl, ?_, ?_, ?_, ?_, ?_, ?_, ?_, ?_⟩
    · rintro rfl
      rw [State.modHub_plot]
      exact State.setPlot_plot_same _ _ _
    · rintro rfl
      rw [State.modHub_plot]
      exact State.setPlot_plot_same _ _ _
    · rintro rfl
      rw [State.modHub_plot]
      exact State.setPlot_plot_same _ _ _
    · rintro rfl
      rw [State.modHub_plot]
      exact State.setPlot_plot_same _ _ _
    · rintro rfl
      rw [State.modHub_plot]
      exact State.setPlot_plot_same _ _ _
    · rintro off rfl hoff
      exact congrArg (fun v : State => v.modHub (fun h => { h with hostRead := s.readReg fn (.function off) })) (State.clearFunction_other hoff)
    · rintro y x off rfl hoff c
      exact State.clearRead_core hoff c
    · rintro y x c rfl hc
      exact State.clearRead_sync hc
  · intro s fn v old bad
    refine ⟨fun h0 h1 h2 => ?_, fun h => ?_⟩
    · refine ⟨_, congrArg Host.Outcome.next (State.writeBellctl_taken h0 h1 h2), ?_, rfl⟩
      exact congrArg (fun p : Plot => p.bell.ctl) (State.setPlot_plot_same _ _ _)
    · exact congrArg _ (State.writeBellctl_ignored h)
  · intro s fn f v p within ok
    refine ⟨fun hload hok => ?_, fun h => ?_⟩
    · have hwrite := State.writeRwl_one (off := (rwlBits f).1) hload (PlotRegs.rwlOk_iff.2 hok)
      refine ⟨_, congrArg Host.Outcome.next hwrite, ?_, fun g hg => ?_, ?_⟩
      · rw [State.setPlot_plot_same]
        dsimp only
        split
        · next hin => exact PlotRegs.setRwl_rwl (rwlIn_iff.1 hin)
        · next hout => exact (hok.resolve_left fun hin => hout (rwlIn_iff.2 hin)).2.symm
      · rw [State.setPlot_plot_same]
        dsimp only
        split
        · exact PlotRegs.setRwl_other hg
        · rfl
      · rw [if_congr rwlIn_iff rfl rfl]
    · exact congrArg _ (State.writeRwl_ignored (h.imp_right fun hno => eq_false_of_ne_true fun hok => hno (PlotRegs.rwlOk_iff.1 hok)))
  · intro s v
    refine ⟨_, rfl, rfl, rfl, rfl, fun k hk => ?_⟩
    show (s.hub.faults.sum &&& ~~~(v.extractLsb' 0 5)).getLsbD k = _
    simp [hk]
  · intro s fn v size
    refine ⟨rfl, rfl, rfl, rfl, rfl, rfl, fun addr => ?_, fun y x off => rfl, fun off hoff => congrArg _ (State.writeFunction_readOnly hoff)⟩
    cases addr with
    | function off => rfl
    | core y x off => rfl
    | module off => exact execRegisterWrite_module_other
  · intro s fn v p steps
    refine ⟨fun hstate hfree hsteps => ?_, fun h => congrArg _ (State.writeDiag_ignored (bitOf_go v) ?_)⟩
    · obtain ⟨t, ht, hplot, hcore⟩ := State.writeDiag_starts (bitOf_go v) hstate hfree (fieldOf_go v ▸ hsteps)
      have hbegun : (t.beginDiag fn).plot fn = (p.diagGo (v ||| 0x1000000)).diagStep := by rw [State.beginDiag_plot, hplot]
      refine ⟨_, congrArg Host.Outcome.next ht, ?_⟩
      rw [hbegun]
      refine ⟨rfl, fieldOf_go v, fieldOf_goEntry v, rfl, fun c hc => ?_, rfl, rfl⟩
      rw [State.beginDiag_core (by rw [hplot]; exact hc), hcore, hplot]
      exact ⟨fieldOf_goEntry v, rfl, rfl⟩
    · rw [fieldOf_go]
      exact h
  · intro s fn fault p
    refine ⟨fun hidle => if_pos (by rw [show (s.plot fn).counts.diagBusy = false from hidle]; rfl), fun hbusy hgood hrunning => ?_, fun hbusy hends => ?_⟩
    · rw [execDiagStep_eq hbusy, if_pos]
      have hnone : (s.diagReports fn fault).any Report.cancels = false := eq_false_of_ne_true fun h => hgood (diagReports_any.1 h)
      have hrest : p.cores.all (fun c => (s.core c).totals.arrived) = false := eq_false_of_ne_true fun h => hrunning (List.all_eq_true.1 h)
      rw [hnone, show (s.plot fn).cores.all (fun c => (s.core c).totals.arrived) = false from hrest]
      rfl
    · have hend : ¬ (!(s.diagReports fn fault).any Report.cancels && !p.cores.all (fun c => (s.core c).totals.arrived)) = true := by
        rcases hends with hbad | hall
        · rw [diagReports_any.2 hbad]
          exact Bool.false_ne_true
        · rw [List.all_eq_true.2 hall, Bool.not_true, Bool.and_false]
          exact Bool.false_ne_true
      obtain ⟨q, hq, hplot⟩ := s.undoDiag_plot (fn := fn) (s.diagReports fn fault) (if (s.diagReports fn fault).any Report.cancels then 0 else p.counts.diagLeft - 1)
      have hstep : q.step = p.step := congrArg (fun x => x.2.2.1) hq
      have hbell : q.bell = p.bell := congrArg (fun x => x.1) hq
      have hplace : q.place = p.place := congrArg (fun x => x.2.1) hq
      refine ⟨_, (execDiagStep_eq hbusy).trans (if_neg hend), ?_⟩
      rw [hplot]
      obtain ⟨hbell', hplace', hrun'⟩ := Plot.diagNext_rest (if (s.diagReports fn fault).any Report.cancels then 0 else p.counts.diagLeft - 1) q
      refine ⟨hbell'.trans hbell, hplace'.trans hplace, fun hclosed => hrun'.trans (Plot.restPart_run hq hclosed), fun hlast => ?_, fun hgood hmore => ?_⟩
      · have hleft : (if (s.diagReports fn fault).any Report.cancels then 0 else p.counts.diagLeft - 1) = 0 := by
          split
          · rfl
          · next hno => exact Nat.sub_eq_zero_of_le (hlast.resolve_left fun hbad => hno (diagReports_any.2 hbad))
        rw [Plot.diagNext, if_pos hleft, hleft]
        exact ⟨rfl, congrArg StepState.fresh hstep⟩
      · have hno : ¬ (s.diagReports fn fault).any Report.cancels = true := fun h => hgood (diagReports_any.1 h)
        rw [if_neg hno, Plot.diagNext, if_neg (Nat.sub_ne_zero_of_lt hmore)]
        exact ⟨bne_iff_ne.2 (Nat.sub_ne_zero_of_lt hmore), rfl, rfl⟩

end Sys2Proof.Claims
end

section
/-! Packets of a plot whose bell has rung and waits for its lock-step partner (R400, R426, R442): the refutation of O56. -/

namespace Sys2Proof.Claims

open Sys2Proof.Machine

/-- The module with one plot, which stands at a bell that has rung and waits for the plot's lock-step partner: PLT.PLACE reads state 4, held, though no hold keeps the plot. -/
def rungState : State := { State.reset with plots := [(1, { place := { state := 3, rows := 2, cols := 2, image := some 0 }, step := { phase := .running, rung := true } })] }

/-- A BUDGET packet for that plot. -/
def rungBudget : Staged := { type := 0x26, p := { fn := 0, flags := 1, plot := 1, byte3 := 0, length := 0, tag := 0, bell := 0, param := 0xFFFF, digest := 0, payload := [] }, unit := 0, acceptedAt := 0, target := 0, epoch := 0 }

/-- The packet joins the plot's staged packets, for the bell that has rung. -/
theorem rungBudget_staged : (((rungState.carryPacket rungBudget).acceptPacket rungBudget).plot 1).packets.staged.length = 1 := by decide +kernel

/-- The packet taken at once would not be staged. -/
theorem rungBudget_taken : (((rungState.takeMgmt rungBudget).1.settle rungBudget (rungState.plot 1).bell.bell (rungState.takeMgmt rungBudget).2).plot 1).packets.staged.length = 0 := by decide +kernel

/-- Refutes O56: a management packet of a plot whose bell has rung and waits for the lock-step partner is staged for that bell, although the plot reads state 4 (R400, R440); only one of a plot that a hold keeps takes effect at once. -/
theorem not_packetsAreReadFromTheirRing : ¬ Obligations.PacketsAreReadFromTheirRing := by
  unfold Obligations.PacketsAreReadFromTheirRing
  rintro ⟨-, -, haccept⟩
  obtain ⟨-, -, hheld, -⟩ := haccept rungState rungBudget (.inr (by decide))
  have htaken := hheld (by decide) (by decide) (by decide +kernel) (by decide +kernel)
  have hstaged := rungBudget_staged
  rw [htaken] at hstaged
  exact absurd (hstaged.symm.trans rungBudget_taken) (by decide)

end Sys2Proof.Claims
end

section
/-! Reset values of the registers (R414, R434, R446, R455, R458, R462, R6, R79, R382, R398, R412, R528): O7. -/

namespace Sys2Proof.Machine

section Reset

/-- No packet waits at reset. -/
theorem reset_waiting (fn : Fn) : State.reset.waiting fn = [] := by
  unfold State.waiting
  exact congrArg (List.append []) (ite_self _)

theorem reset_backlogEmpty (fn : Fn) : State.reset.backlogEmpty fn = true := by
  unfold State.backlogEmpty
  rw [reset_waiting]
  rfl

theorem reset_memOk : State.reset.MemOk := ⟨fun _ h => absurd h List.not_mem_nil, fun _ h => absurd h List.not_mem_nil, rfl, fun _ h => absurd h List.not_mem_nil⟩

/-- At reset every function window reads as that of function 0. -/
theorem reset_readFunction (fn : Fn) (off : BitVec 16) : State.reset.readReg fn (.function off) = State.reset.readReg 0 (.function off) := by
  have hlow : State.reset.lowWord fn off.toNat = State.reset.lowWord 0 off.toNat := by
    unfold State.lowWord
    rw [reset_backlogEmpty, reset_backlogEmpty]
    rfl
  have hhigh : State.reset.highWord fn off.toNat = State.reset.highWord 0 off.toNat := rfl
  show State.reset.functionReg fn off.toNat = State.reset.functionReg 0 off.toNat
  unfold State.functionReg
  rw [hlow, hhigh]

/-- The registers of a function window whose tables give reset value 0. -/
theorem reset_zeroWords : ([0x00, 0x10, 0x18, 0x20, 0x30, 0x38, 0x48, 0x58, 0x60, 0x100, 0x108, 0x110, 0x130, 0x138, 0x148, 0x1000, 0x1008, 0x1010, 0x1020, 0x1028] : List (BitVec 16)).all
    (fun off => State.reset.readReg 0 (.function off) == 0) = true := by decide +kernel

/-- HUB.GROUP of each function. -/
theorem reset_group (fn : Fn) : State.reset.readReg 0 (.module (BitVec.ofNat 26 (0x800 + 8 * fn.toNat))) = 0 := by
  have hoff : (BitVec.ofNat 26 (0x800 + 8 * fn.toNat)).toNat = 0x800 + 8 * fn.toNat := BitVec.toNat_ofNat _ _ |>.trans (Nat.mod_eq_of_lt (by omega))
  show State.reset.moduleReg (BitVec.ofNat 26 (0x800 + 8 * fn.toNat)).toNat = 0
  rw [hoff]
  unfold State.moduleReg
  rw [if_neg, if_neg (by omega), if_neg (by omega), if_pos]
  · rfl
  · simp only [Bool.and_eq_true, decide_eq_true_eq]
    omega
  · simp only [bne_iff_ne, not_not]
    omega

end Reset

end Sys2Proof.Machine

namespace Sys2Proof.Claims

open Sys2Proof.Machine

/-- Settles O7. -/
theorem resetLeavesTheStatedValues : Obligations.ResetLeavesTheStatedValues := by
  unfold Obligations.ResetLeavesTheStatedValues
  refine ⟨rfl, reset_memOk, fun fn => ?_, ?_, ?_, ?_, reset_group, ?_⟩
  · simp only [reset_readFunction fn]
    refine ⟨fun off hoff => beq_iff_eq.1 (List.all_eq_true.1 reset_zeroWords off hoff), ?_⟩
    decide +kernel
  · decide +kernel
  · decide +kernel
  · decide +kernel
  · decide +kernel

end Sys2Proof.Claims
end

section
/-! What every command keeps of the module's memories: the canonical form of each, and, of the commands that do not move the start-up on, the start-up's state and the idle bell number. Cores and slot rows. -/

namespace Sys2Proof.Machine

open Claims (SlotRow)

/-- The memory of a channel is in canonical form. -/
def Channel.memOk (k : Channel) : Prop := Memory.wf k.mem = true

/-- With `ok` the memories of the module are in canonical form, and its start-up state is `b` and its idle bell number `i`. -/
def State.Kept (s : State) (ok : Prop) (b : Boot) (i : BitVec 48) : Prop := (ok → s.MemOk) ∧ s.hub.boot = b ∧ s.hub.idleBell = i

/-- What a command answers has a property, where it answers a next state. -/
def HoldsAfter (P : State → Prop) : Host.Outcome State Fault Refusal → Prop
  | .next t => P t
  | _ => True

theorem State.MemOk.kept {s : State} (h : s.MemOk) : s.Kept True s.hub.boot s.hub.idleBell := ⟨fun _ => h, rfl, rfl⟩

/-- What is kept of a module of which nothing is known. -/
theorem State.keptFrom (s : State) : s.Kept False s.hub.boot s.hub.idleBell := ⟨False.elim, rfl, rfl⟩

namespace State.Kept

variable {s t : State} {ok : Prop} {b : Boot} {i : BitVec 48}

/-- What lies in the mesh is no memory. -/
theorem withMesh {m : Mesh} (h : s.Kept ok b i) : State.Kept { s with mesh := m } ok b i := h

theorem memOk (h : s.Kept True b i) : s.MemOk := h.1 trivial

theorem boot (h : s.Kept ok b i) : s.hub.boot = b := h.2.1

theorem idle (h : s.Kept ok b i) : s.hub.idleBell = i := h.2.2

theorem core_memOk {c : CoreId} (h : s.Kept ok b i) (ho : ok) : (s.core c).memOk := (h.1 ho).core c

theorem channel_memOk {ch : ChanId} (h : s.Kept ok b i) (ho : ok) : (s.channel ch).memOk := (h.1 ho).channel ch

theorem saved_memOk {fn : Fn} (h : s.Kept ok b i) (ho : ok) : ∀ k ∈ (s.plot fn).moving.saved, k.work.memOk := (h.1 ho).saved fn

theorem setCore {c : CoreId} {v : CoreState} (h : s.Kept ok b i) (hv : ok → v.memOk) : (s.setCore c v).Kept ok b i := ⟨fun ho => (h.1 ho).setCore c (hv ho), h.2⟩

theorem modCore {c : CoreId} {f : CoreState → CoreState} (h : s.Kept ok b i) (hf : ∀ k : CoreState, k.memOk → (f k).memOk) : (s.modCore c f).Kept ok b i := h.setCore fun ho => hf _ (h.core_memOk ho)

theorem setChannel {ch : ChanId} {v : Channel} (h : s.Kept ok b i) (hv : ok → v.memOk) : (s.setChannel ch v).Kept ok b i := ⟨fun ho => (h.1 ho).setChannel ch (hv ho), h.2⟩

theorem setPlot {fn : Fn} {v : Plot} (h : s.Kept ok b i) (hv : ok → ∀ k ∈ v.moving.saved, k.work.memOk) : (s.setPlot fn v).Kept ok b i :=
  ⟨fun ho => (h.1 ho).setPlot fn (hv ho), h.2⟩

/-- A change of a plot that leaves the save blocks of the plot alone. -/
theorem modPlot {fn : Fn} {f : Plot → Plot} (h : s.Kept ok b i) (hf : ∀ p : Plot, (f p).moving.saved = p.moving.saved) : (s.modPlot fn f).Kept ok b i :=
  h.setPlot fun ho => by rw [hf]; exact h.saved_memOk ho

/-- A plot that is replaced by one with the same save blocks. -/
theorem setPlotOf {fn : Fn} {v : Plot} (h : s.Kept ok b i) (hv : v.moving.saved = (s.plot fn).moving.saved) : (s.setPlot fn v).Kept ok b i := h.setPlot fun ho => by rw [hv]; exact h.saved_memOk ho

theorem setPort {p : PortId} {v : Port} (h : s.Kept ok b i) : (s.setPort p v).Kept ok b i := h

theorem setField {f : FieldId} {v : Field} (h : s.Kept ok b i) : (s.setField f v).Kept ok b i := h

theorem ite {p : Prop} [Decidable p] (h : s.Kept ok b i) (k : t.Kept ok b i) : (if p then s else t).Kept ok b i := by
  split
  · exact h
  · exact k

theorem foldl {α : Type} {f : State → α → State} (hf : ∀ (s : State) (a : α), s.Kept ok b i → (f s a).Kept ok b i) (l : List α) (h : s.Kept ok b i) : (l.foldl f s).Kept ok b i := by
  induction l generalizing s with
  | nil => exact h
  | cons a l ih => exact ih (hf s a h)

/-- A fold that carries the module beside other data. -/
theorem foldl_fst {α β : Type} {f : State × β → α → State × β} (hf : ∀ (p : State × β) (a : α), p.1.Kept ok b i → (f p a).1.Kept ok b i) (l : List α) {p : State × β} (h : p.1.Kept ok b i) :
    (l.foldl f p).1.Kept ok b i := by
  induction l generalizing p with
  | nil => exact h
  | cons a l ih => exact ih (hf p a h)

end State.Kept

/-! ### Cores -/

section Cores

variable {s t : State} {ok : Prop} {b : Boot} {i : BitVec 48} {c d : CoreState} {cid : CoreId}

theorem Keeps.memOk (k : Keeps c d) (h : c.memOk) : d.memOk := by
  obtain ⟨hwork, himage⟩ := h
  exact ⟨k.mem hwork, by unfold CoreWork.memOk; rw [k.imageMem]; exact himage⟩

theorem CoreState.contents_memOk (k : d.contents = c.contents) (h : c.memOk) : d.memOk :=
  CoreState.memOk_of_mem (congrArg (fun x => x.2.2.1) k) (congrArg (fun x => x.2.1) k) h

theorem CoreState.runTo_memOk (env : Env) (f : Nat) (h : c.memOk) : (c.runTo env f).memOk := (c.runTo_keeps env f).memOk h

theorem CoreState.runThrough_memOk (env : Env) (p : CoreEv → Bool) (h : c.memOk) : (c.runThrough env p).memOk := by
  unfold CoreState.runThrough
  split
  · exact CoreState.runTo_memOk _ _ h
  · exact h

theorem CoreState.presented_memOk (env : Env) (k : Issue) (h : c.memOk) : (c.presented env k).memOk := (c.presented_keeps env k).memOk h

theorem CoreState.openBundle_memOk (env : Env) (fill : Bool) (k : BundleHead) (ready : CoreState → Bool) (h : c.memOk) : (c.openBundle env fill k ready).memOk := by
  unfold CoreState.openBundle
  dsimp only
  split
  · exact (CoreState.setStreamState_keeps _ _ _).memOk (CoreState.runTo_memOk _ _ h)
  · exact (CoreState.issueBundle_keeps _ _ _).memOk (CoreState.runTo_memOk _ _ h)

theorem CoreState.inBundle_memOk {env : Env} {k : Issue} {slot : Nat} {word : Word} {act : Origin → CoreState → CoreState} (hact : ∀ o c, (act o c).contents = c.contents) (h : c.memOk) :
    (c.inBundle env k slot word act).memOk := CoreState.contents_memOk (CoreState.inBundle_contents hact) (CoreState.presented_memOk env k h)

namespace State.Kept

/-- What a core sends enters the mesh and the queues of writes. -/
theorem drainOutbox (h : s.Kept ok b i) : (s.drainOutbox cid).Kept ok b i := by
  unfold State.drainOutbox
  have hqueued := State.Kept.foldl (f := fun (s : State) (w : WriteUnit) => s.setChannel w.chan ((s.channel w.chan).addWrite { w with core := cid })) (fun s w h => h.setChannel h.channel_memOk) (s.core cid).traffic.unitsOut h
  exact hqueued.withMesh.setCore fun ho => h.core_memOk (c := cid) ho

theorem onCore {f : Env → CoreState → CoreState} (h : s.Kept ok b i) (hf : ∀ env (c : CoreState), c.memOk → (f env c).memOk) : (s.onCore cid f).Kept ok b i :=
  (h.setCore fun ho => hf _ _ (h.core_memOk ho)).drainOutbox

/-- A command of a core whose change of the core keeps its memories. -/
theorem coreCommand {f : Env → CoreState → CoreState} (h : s.Kept ok b i) (hf : ∀ env (c : CoreState), c.memOk → (f env c).memOk) : HoldsAfter (State.Kept · ok b i) (coreCommand s cid f) := by
  unfold Machine.coreCommand
  split
  · exact trivial
  · split
    · exact h.onCore hf
    · exact h

end State.Kept

/-! ### Slot rows, loop ends and stop bundles -/

section Slots

variable {k : Issue} {opc : BitVec 5} {w : BitVec 27}

theorem State.Kept.waitCommand {exempt : SyncOp → CoreState → Bool} {object : SyncOp → Option (BitVec 16)} {act : Env → SyncOp → Origin → CoreState → CoreState} (h : s.Kept ok b i)
    (hact : ∀ env op o c, (act env op o c).contents = c.contents) : HoldsAfter (State.Kept · ok b i) (waitCommand s k opc w exempt object act) := by
  have hrun (env : Env) : ∀ o c, (match decodeSync (opc ++ w) with | some op => if c.syncReady op || exempt op c then act env op o c else c | none => c.issueFault 0x2007 o : CoreState).contents = c.contents := fun o c => by
    split
    · exact contents_ite (hact _ _ _ _) rfl
    · rfl
  refine h.coreCommand fun env c hc => ?_
  dsimp only
  split
  · exact CoreState.inBundle_memOk (hrun _) hc
  · split
    · exact CoreState.runTo_memOk _ _ hc
    · exact CoreState.inBundle_memOk (hrun _) (CoreState.openBundle_memOk _ _ _ _ (CoreState.runTo_memOk _ _ hc))

theorem State.Kept.outerCommand {act : State → SyncOp → Origin → State} (h : s.Kept ok b i) (hact : ∀ (u : State) op o, u.Kept ok b i → (act u op o).Kept ok b i) :
    HoldsAfter (State.Kept · ok b i) (outerCommand s k opc w act) := by
  have hopens : ∀ o c, (if (decodeSync (opc ++ w)).isSome then c else c.issueFault 0x2007 o : CoreState).contents = c.contents := fun o c => contents_ite rfl rfl
  have hopened : (openSync s k opc w).1.Kept ok b i := by
    unfold openSync
    dsimp only
    have hbundle : (s.onCore k.core (fun env c => c.inBundle env k 6 (syncWord opc w) (fun o c => if (decodeSync (opc ++ w)).isSome then c else c.issueFault 0x2007 o))).Kept ok b i :=
      h.onCore fun env c hc => CoreState.inBundle_memOk hopens hc
    generalize s.onCore k.core (fun env c => c.inBundle env k 6 (syncWord opc w) (fun o c => if (decodeSync (opc ++ w)).isSome then c else c.issueFault 0x2007 o)) = u at hbundle ⊢
    split <;> exact hbundle
  unfold Machine.outerCommand
  split
  · exact trivial
  · split
    · exact h
    · split
      · next u o op hu =>
        rw [hu] at hopened
        exact hact u op o hopened
      · next u hu =>
        rw [hu] at hopened
        exact hopened

theorem State.Kept.coreFault {code : Code} {o : Origin} (h : s.Kept ok b i) : (s.coreFault cid code o).Kept ok b i := h.modCore fun _ hk => hk

theorem State.Kept.orphanFault {object : BitVec 16} {mailbox : Fn} {o : Origin} (h : s.Kept ok b i) : (s.orphanFault cid object mailbox o).Kept ok b i := h.modCore fun _ hk => hk

theorem State.Kept.commonsRequest {o : Origin} {allowed orphan : Bool} {object : BitVec 16} {r : CommonsReq} (h : s.Kept ok b i) : (s.commonsRequest cid o allowed orphan object r).Kept ok b i := by
  unfold State.commonsRequest
  dsimp only
  exact State.Kept.ite h.coreFault (State.Kept.ite h.orphanFault (State.Kept.ite h.coreFault (h.setPlotOf rfl)))

theorem State.Kept.bar (h : s.Kept ok b i) : HoldsAfter (State.Kept · ok b i) (execBar k w s) := by
  refine h.outerCommand fun u op o hu => ?_
  split
  · dsimp only
    split
    · exact hu.coreFault
    · exact State.Kept.modCore (hu.setPlotOf rfl) fun _ hk => hk
  · exact hu

theorem State.Kept.cadd (h : s.Kept ok b i) : HoldsAfter (State.Kept · ok b i) (execCadd k w s) := by
  refine h.outerCommand fun u op o hu => ?_
  split
  · exact hu.commonsRequest
  · exact hu

theorem State.Kept.cput (h : s.Kept ok b i) : HoldsAfter (State.Kept · ok b i) (execCput k w s) := by
  refine h.outerCommand fun u op o hu => ?_
  split
  · exact State.Kept.ite hu.coreFault hu.commonsRequest
  · exact hu

/-- Every slot row keeps the memories. -/
theorem State.Kept.slotRow {row : Instr} (h : s.Kept ok b i) (hrow : SlotRow k row) : HoldsAfter (State.Kept · ok b i) (exec row s) := by
  have hshape := exec_quietShape (s := s) hrow
  generalize exec row s = answer at hshape
  cases hshape with
  | slot slot word act hact => exact h.coreCommand fun env c hc => CoreState.inBundle_memOk (hact _) hc
  | wait opc w exempt object act hact => exact h.waitCommand hact
  | bar w => exact h.bar
  | cadd w => exact h.cadd
  | cput w => exact h.cput

theorem State.Kept.loopEnd (h : s.Kept ok b i) : HoldsAfter (State.Kept · ok b i) (execLoopEnd k s) := by
  refine h.coreCommand fun env c hc => ?_
  dsimp only
  split
  · exact CoreState.contents_memOk (CoreState.closeLoops_contents _ _) (CoreState.presented_memOk env k hc)
  · exact CoreState.presented_memOk env k hc

theorem State.Kept.stopBundle (h : s.Kept ok b i) : HoldsAfter (State.Kept · ok b i) (execStopBundle k s) := by
  unfold execStopBundle
  split
  · exact trivial
  · split
    · exact h
    · refine (h.onCore fun env c hc => CoreState.presented_memOk env k hc).onCore fun env c hc => ?_
      split
      · exact CoreState.contents_memOk (CoreState.stopStream_contents _ _ _ _) hc
      · exact hc

end Slots

end Cores

end Sys2Proof.Machine
end

section
/-! Commands of cores, flits, trains, landings and barriers keep the module's memories. -/

namespace Sys2Proof.Machine

/-- The core as an attempt to land a line leaves it. -/
def Landing.core : Landing → CoreState
  | .held d => d
  | .failed d => d
  | .done d => d

namespace State.Kept

variable {s t : State} {ok : Prop} {b : Boot} {i : BitVec 48} {cid : CoreId} {slot : BitVec 10} {n : Nat} {f : Flit} {fn : Fn}

/-! ### Commands of one core -/

/-- A command that runs a core through its next event of a kind. -/
theorem runThrough {p : CoreEv → Bool} (h : s.Kept ok b i) : HoldsAfter (State.Kept · ok b i) (Machine.coreCommand s cid (fun env c => c.runThrough env p)) :=
  h.coreCommand fun env _ hc => CoreState.runThrough_memOk env p hc

theorem mtilePass (h : s.Kept ok b i) : HoldsAfter (State.Kept · ok b i) (execMtilePass cid s) := h.runThrough

theorem mstreamColumn (h : s.Kept ok b i) : HoldsAfter (State.Kept · ok b i) (execMstreamColumn cid s) := h.runThrough

theorem contributionLands (h : s.Kept ok b i) : HoldsAfter (State.Kept · ok b i) (execContributionLands cid s) := h.runThrough

theorem resultWriteLands (h : s.Kept ok b i) : HoldsAfter (State.Kept · ok b i) (execResultWriteLands cid s) := h.runThrough

theorem storeWriteLands (h : s.Kept ok b i) : HoldsAfter (State.Kept · ok b i) (execStoreWriteLands cid s) := h.runThrough

theorem fillOpResumes (h : s.Kept ok b i) : HoldsAfter (State.Kept · ok b i) (execFillOpResumes cid s) := h.runThrough

theorem partialMergeLands (h : s.Kept ok b i) : HoldsAfter (State.Kept · ok b i) (execPartialMergeLands cid s) := h.runThrough

theorem patrolScrubRead {dt : Nat} (h : s.Kept ok b i) : HoldsAfter (State.Kept · ok b i) (execPatrolScrubRead cid dt s) := by
  refine h.coreCommand fun env c hc => ?_
  have hrun := CoreState.runTo_memOk env (c.step.offset + dt) hc
  dsimp only
  split
  · exact hrun
  · split <;> exact hrun

theorem patrolScrubWriteback {dt : Nat} (h : s.Kept ok b i) : HoldsAfter (State.Kept · ok b i) (execPatrolScrubWriteback cid dt s) := by
  refine h.coreCommand fun env c hc => ?_
  have hrun := CoreState.runTo_memOk env (c.step.offset + dt) hc
  dsimp only
  split <;> exact hrun

theorem residueCheckEvent {chaff : Bool} (h : s.Kept ok b i) : HoldsAfter (State.Kept · ok b i) (execResidueCheckEvent cid chaff s) := by
  unfold execResidueCheckEvent
  split
  · exact trivial
  · exact h.modCore fun _ hk => hk

theorem writeS_foldl_memOk {c : CoreState} (v : Nat → Word) (l : List Nat) (h : c.memOk) : (l.foldl (fun (c : CoreState) j => c.writeS (BitVec.ofNat 5 (2 + j)) (v j)) c).memOk :=
  (Keeps.foldl _ (fun d _ => d.writeS_keeps _ _) l c).memOk h

theorem handlerStart {dt : Nat} (h : s.Kept ok b i) : HoldsAfter (State.Kept · ok b i) (execHandlerStart cid dt s) := by
  refine h.coreCommand fun env c hc => ?_
  have hrun := CoreState.runTo_memOk env (c.step.offset + dt) hc
  dsimp only
  split
  · exact hrun
  · split
    · exact hrun
    · exact writeS_foldl_memOk _ _ ((CoreState.writeS_keeps _ _ _).memOk hrun)

theorem orphanWait (h : s.Kept ok b i) : HoldsAfter (State.Kept · ok b i) (execOrphanWait cid s) := by
  unfold execOrphanWait
  split
  · exact trivial
  · dsimp only
    split
    · next obj _ _ =>
      cases hasOrphan : if obj.getLsbD 15 then s.commons.mailOrphan ((s.core cid).owner.getD 0) else s.commons.tallyOrphan (fieldOf obj 0 12)
      · exact h
      · exact h.orphanFault.modCore fun _ hk => hk
    · exact h

theorem dozeEntry {dt : Nat} (h : s.Kept ok b i) : HoldsAfter (State.Kept · ok b i) (execDozeEntry cid dt s) := by
  refine h.coreCommand fun env c hc => ?_
  have hrun := CoreState.runTo_memOk env (c.step.offset + dt) hc
  dsimp only
  split <;> exact hrun

theorem commonsViewUpdate (h : s.Kept ok b i) : HoldsAfter (State.Kept · ok b i) (execCommonsViewUpdate cid s) := by
  unfold execCommonsViewUpdate
  split
  · exact trivial
  · exact h.modCore fun _ hk => hk

theorem commonsRequestAccepted (h : s.Kept ok b i) : HoldsAfter (State.Kept · ok b i) (execCommonsRequestAccepted cid s) := by
  unfold execCommonsRequestAccepted
  split
  · exact trivial
  · exact h.modPlot fun _ => rfl

theorem spill_memOk {c : CoreState} {ring : BitVec 3} {e : RingEntry} {sender : CoreId} {site : BitVec 10} (h : c.memOk) : (c.spill ring e sender site).memOk := by
  unfold CoreState.spill
  dsimp only
  split <;> exact h

theorem granarySpill {ring : BitVec 3} (h : s.Kept ok b i) : HoldsAfter (State.Kept · ok b i) (execGranarySpill cid ring s) := by
  unfold execGranarySpill
  dsimp only
  split
  · exact h.coreCommand fun _ _ hc => hc
  · next x fl e _ =>
    split
    · exact trivial
    · split
      · exact h
      · have hrun : (s.onCore cid (fun env c => c.runTo env (x.2 + 256))).Kept ok b i := h.onCore fun env c hc => CoreState.runTo_memOk env _ hc
        generalize s.onCore cid (fun env c => c.runTo env (x.2 + 256)) = u at hrun ⊢
        split
        · exact hrun
        · refine hrun.withMesh.setCore fun ho => spill_memOk ?_
          exact hrun.core_memOk (c := cid) ho

theorem granaryDrainLands {ring : BitVec 3} (h : s.Kept ok b i) : HoldsAfter (State.Kept · ok b i) (execGranaryDrainLands cid ring s) := by
  refine h.coreCommand fun env c hc => ?_
  dsimp only
  split
  · exact hc
  · next d _ =>
    have hrun := CoreState.runTo_memOk env d.land hc
    split
    · exact hrun
    · exact hrun

/-! ### Flits -/

theorem flitCommand {act : Flit → State} (h : s.Kept ok b i) (hact : ∀ f, (act f).Kept ok b i) : HoldsAfter (State.Kept · ok b i) (Machine.flitCommand s n act) := by
  unfold Machine.flitCommand
  split
  · exact h
  · exact hact _

theorem setFlit (h : s.Kept ok b i) : (s.setFlit n f).Kept ok b i := h

theorem dropFlit (h : s.Kept ok b i) : (s.dropFlit n).Kept ok b i := h

theorem passInput (h : s.Kept ok b i) : (s.passInput f).Kept ok b i := by
  unfold State.passInput
  split <;> exact h

theorem useGate {g fc : Nat} (h : s.Kept ok b i) : (s.useGate g fc).Kept ok b i := h

theorem collision_memOk {c : CoreState} {fc : Nat} {port : BitVec 3} {site : BitVec 10} (h : c.memOk) : (c.collision fc port site).memOk := by
  unfold CoreState.collision
  split <;> exact h

theorem holdFlit (h : s.Kept ok b i) : (s.holdFlit n f).Kept ok b i := h.setFlit.modCore fun c hc => collision_memOk (c := { c with mesh.linkColl := _ }) hc

theorem moveFlit {port : BitVec 3} (h : s.Kept ok b i) : (s.moveFlit n f port).Kept ok b i := by
  unfold State.moveFlit
  dsimp only
  exact State.Kept.setFlit (s := { s.passInput f with mesh := _ }) h.passInput

theorem stallGate {q : FieldId} (h : s.Kept ok b i) : (s.stallGate fn q).Kept ok b i := h.modPlot fun _ => rfl

theorem flitAdvance (h : s.Kept ok b i) : HoldsAfter (State.Kept · ok b i) (execFlitAdvance n s) := by
  refine h.flitCommand fun f => ?_
  split
  · exact h
  · split
    · exact State.Kept.ite h.holdFlit h.moveFlit
    · exact State.Kept.ite h (State.Kept.ite h.holdFlit (State.Kept.ite h.stallGate h.passInput.useGate.dropFlit))

theorem postedFlitAdvance (h : s.Kept ok b i) : HoldsAfter (State.Kept · ok b i) (execPostedFlitAdvance n s) := by
  refine h.flitCommand fun f => ?_
  have hwait : ((s.setFlit n { f with ready := f.ready + 1 }).modCore f.router (fun c => { c with mesh.postedWait := satAdd c.mesh.postedWait 1 })).Kept ok b i := h.setFlit.modCore fun _ hc => hc
  dsimp only
  split
  · exact h
  · split
    · exact State.Kept.ite hwait h.moveFlit
    · exact State.Kept.ite h (State.Kept.ite hwait h.useGate.dropFlit)

theorem bellOverrun {fc : Nat} {sender : FieldId} (h : s.Kept ok b i) : (s.bellOverrun fn cid fc sender).Kept ok b i := by
  unfold State.bellOverrun
  dsimp only
  refine State.Kept.modPlot (h.modCore fun _ hc => hc) fun p => ?_
  split <;> rfl

theorem bridgeFlitArrives {offset : Nat} (h : s.Kept ok b i) : HoldsAfter (State.Kept · ok b i) (execBridgeFlitArrives n offset s) := by
  refine h.flitCommand fun f => ?_
  split
  · exact State.Kept.ite h (State.Kept.ite (State.Kept.ite h.setFlit h) (State.Kept.ite h.dropFlit.bellOverrun h.setFlit))
  · exact h

/-! ### Trains -/

theorem releaseOne {port : BitVec 3} {link1 : Bool} {fc : Nat} (h : s.Kept ok b i) : (s.releaseOne cid fn port link1 fc).Kept ok b i := by
  unfold State.releaseOne
  dsimp only
  split
  · exact h.setFlit
  · exact h.bellOverrun

theorem recvFiring (h : s.Kept ok b i) : HoldsAfter (State.Kept · ok b i) (execRecvFiring cid slot s) := by
  unfold execRecvFiring
  split
  · exact trivial
  · split
    · exact h
    · split
      · exact h
      · exact State.Kept.foldl (fun s _ hs => hs.releaseOne) _ (h.modCore fun _ hc => hc)

theorem landFiring (h : s.Kept ok b i) : HoldsAfter (State.Kept · ok b i) (execLandFiring cid slot s) := by
  refine h.coreCommand fun env c hc => ?_
  split
  · exact hc
  · exact CoreState.runTo_memOk env _ hc

theorem failFiring_memOk {c : CoreState} {e : Bad} {o : Origin} (h : c.memOk) : (c.failFiring e o).memOk := h

theorem lineFiring (h : s.Kept ok b i) : HoldsAfter (State.Kept · ok b i) (execLineFiring cid slot s) := by
  refine h.coreCommand fun env c hc => ?_
  split
  · exact hc
  · next tr _ fc _ =>
    have hrun := CoreState.runTo_memOk env fc hc
    dsimp only
    split
    · exact hc
    · have hcount : (((c.runTo env fc).countFiring slot).countChannel tr.chan).memOk := hrun
      generalize ((c.runTo env fc).countFiring slot).countChannel tr.chan = d at hcount ⊢
      split
      · exact failFiring_memOk hcount
      · exact failFiring_memOk hcount
      · exact (Keeps.foldl _ (fun d j => d.push_keeps _ _) _ _).memOk hcount

theorem partialFiring (h : s.Kept ok b i) : HoldsAfter (State.Kept · ok b i) (execPartialFiring cid slot s) := by
  refine h.coreCommand fun env c hc => ?_
  split
  · exact hc
  · next tr _ fc _ =>
    have hrun := CoreState.runTo_memOk env fc hc
    dsimp only
    split
    · exact hc
    · have hcount : (((c.runTo env fc).countFiring slot).countChannel tr.chan).memOk := hrun
      generalize ((c.runTo env fc).countFiring slot).countChannel tr.chan = d at hcount ⊢
      split
      · exact hcount
      · split
        · exact hcount
        · exact hcount

/-! ### Landings -/

theorem signalLands (h : s.Kept ok b i) : HoldsAfter (State.Kept · ok b i) (execSignalLands n s) := by
  refine h.flitCommand fun f => ?_
  split
  · exact State.Kept.ite h (State.Kept.ite h.holdFlit (h.passInput.dropFlit.onCore fun env c hc => CoreState.runTo_memOk env _ hc))
  · exact h

theorem landPort_memOk {c k : CoreState} {env : Env} (h : c.memOk) (hk : c.landPort env = some k) : k.memOk := by
  unfold CoreState.landPort at hk
  dsimp only at hk
  split at hk
  · cases hk; exact h
  · split at hk
    · cases hk; exact h
    · cases hk

theorem settleDelay_memOk {c : CoreState} (h : c.memOk) : (c.settleDelay f).memOk := by
  unfold CoreState.settleDelay
  split
  · exact collision_memOk (c := { c with traffic.collided := false }) h
  · exact h

theorem holdLanding {fc : Nat} (h : s.Kept ok b i) : (s.holdLanding n f fc).Kept ok b i := h.setFlit.setCore fun ho => h.core_memOk (c := f.dest) ho

theorem breakFiring (h : s.Kept ok b i) : (s.breakFiring f).Kept ok b i := h

theorem tryLand_memOk {c : CoreState} {port : Option CoreState} {later : Bool} {hd : BitVec 6} {pos j : Nat} {data : BitVec 512} {bruise : BitVec 8} {o : Origin} (h : c.memOk)
    (hport : ∀ k, port = some k → k.memOk) : (c.tryLand port later hd pos j data bruise o).core.memOk := by
  unfold CoreState.tryLand
  split
  · exact h
  · cases port with
    | none => exact h
    | some k =>
      dsimp only
      split
      · exact h
      · exact hport k rfl

theorem landLine {hd : BitVec 6} {pos j last : Nat} {ten : Bool} {tl : BitVec 6} {amount : Nat} {data : BitVec 512} {bruise : BitVec 8} (h : s.Kept ok b i) :
    (s.landLine n f hd pos j last ten tl amount data bruise).Kept ok b i := by
  unfold State.landLine
  have hrun : (s.onCore f.dest (fun env c => c.runTo env f.ready)).Kept ok b i := h.onCore fun env c hc => CoreState.runTo_memOk env _ hc
  generalize s.onCore f.dest (fun env c => c.runTo env f.ready) = u at hrun ⊢
  dsimp only
  have hland (ho : ok) := tryLand_memOk (port := (u.core f.dest).landPort (u.env f.dest)) (later := u.landsFirst f.dest (u.core f.dest).step.offset f.landRank ((u.core f.dest).lineWords hd pos j)) (hd := hd) (pos := pos) (j := j) (data := data) (bruise := bruise)
    (o := { site := f.site, num := f.order, port := f.inPort.toNat }) (hrun.core_memOk (c := f.dest) ho) (fun k hk => landPort_memOk (hrun.core_memOk (c := f.dest) ho) hk)
  generalize (u.core f.dest).tryLand _ _ hd pos j data bruise _ = r at hland ⊢
  cases r with
  | held d => exact (hrun.setCore hland).holdLanding
  | failed d => exact (hrun.setCore fun ho => settleDelay_memOk (hland ho)).dropFlit.breakFiring
  | done d =>
    refine State.Kept.dropFlit (hrun.setCore fun ho => ?_)
    split
    · exact settleDelay_memOk (hland ho)
    · exact settleDelay_memOk (hland ho)

theorem receivePart_memOk {c : CoreState} {j last : Nat} {p : PartialBlock} (h : c.memOk) : (c.receivePart f j last p).memOk := by
  unfold CoreState.receivePart
  dsimp only
  split <;> split <;> exact h

theorem scheduledFlitLands (h : s.Kept ok b i) : HoldsAfter (State.Kept · ok b i) (execScheduledFlitLands n s) := by
  refine h.flitCommand fun f => ?_
  split
  · exact h
  · split
    · exact h.holdFlit
    · have hpass : (if f.delayed then s else s.passInput f).Kept ok b i := State.Kept.ite h h.passInput
      generalize (if f.delayed then s else s.passInput f) = u at hpass ⊢
      dsimp only
      split
      · exact hpass.landLine
      · exact hpass.dropFlit.onCore fun env c hc => receivePart_memOk (CoreState.runTo_memOk env _ hc)
      · exact hpass

theorem deliver {ring : BitVec 3} {e : RingEntry} (h : s.Kept ok b i) : (s.deliver n f ring e).Kept ok b i := by
  unfold State.deliver
  have hrun : (s.onCore f.dest (fun env c => c.runTo env f.ready)).Kept ok b i := h.onCore fun env c hc => CoreState.runTo_memOk env _ hc
  generalize s.onCore f.dest (fun env c => c.runTo env f.ready) = u at hrun ⊢
  have hfree : ((u.dropFlit n).modCore f.dest (fun c => { c with traffic.held := c.traffic.held.filter (fun x => x.1 != n) })).Kept ok b i := hrun.dropFlit.modCore fun _ hc => hc
  have hhold (m : BitVec 8) : (u.modCore f.dest (fun c => { c with traffic.held := c.traffic.held ++ [(n, (u.core f.dest).step.offset)], work.sync.held := m })).Kept ok b i := hrun.modCore fun _ hc => hc
  dsimp only
  split
  · exact hfree.modCore fun _ hc => hc
  · split
    · split
      · exact hfree.modCore fun _ hc => spill_memOk hc
      · exact State.Kept.ite hrun (hhold _)
    · split
      · exact hfree.onCore fun _ _ hc => hc
      · exact State.Kept.ite hrun (hhold _)

theorem postedMessageLands (h : s.Kept ok b i) : HoldsAfter (State.Kept · ok b i) (execPostedMessageLands n s) := by
  refine h.flitCommand fun f => ?_
  split
  · exact State.Kept.ite h (State.Kept.ite (h.setFlit.modCore fun _ hc => hc) h.deliver)
  · exact h

theorem activeMessageArrives (h : s.Kept ok b i) : HoldsAfter (State.Kept · ok b i) (execActiveMessageArrives n s) := by
  refine h.flitCommand fun f => ?_
  split
  · dsimp only
    refine State.Kept.ite h (State.Kept.ite ?_ (State.Kept.ite h ?_))
    · exact h.dropFlit.onCore fun env c hc => CoreState.runTo_memOk env f.ready hc
    · exact h.dropFlit.onCore fun env c hc => CoreState.runTo_memOk env f.ready hc
  · exact h

theorem push_memOk {c : CoreState} {fc : Nat} {e : CoreEv} (h : c.memOk) : (c.push fc e).memOk := (c.push_keeps fc e).memOk h

theorem barrierCompletionLands {group : BitVec 6} {field : FieldId} (h : s.Kept ok b i) : HoldsAfter (State.Kept · ok b i) (execBarrierCompletionLands fn group field s) := by
  unfold execBarrierCompletionLands
  dsimp only
  split
  · next key r l _ _ =>
    have hset : (s.setPlot fn { s.plot fn with rounds := AMap.set (s.plot fn).rounds key { r with landed := r.landed ||| BitVec.ofNat 8 (2 ^ field.toNat) } }).Kept ok b i := h.setPlotOf rfl
    split
    · exact hset.bellOverrun
    · exact State.Kept.foldl (fun _ _ hs => hs.onCore fun env _ hk => push_memOk (CoreState.runTo_memOk env _ hk)) _ hset
  · exact h

end State.Kept

end Sys2Proof.Machine
end

section
/-! Commands of channels keep the module's memories. -/

namespace Sys2Proof.Machine

section Channels

variable {k : Channel}

theorem Channel.readOrdered_memOk (u req : Nat) (entry : BitVec 6) (h : k.memOk) : (k.readOrdered u req entry).1.memOk := by
  unfold Channel.readOrdered
  split
  · exact h
  · exact Channel.readUnit_mem u h

theorem Channel.takeRead_memOk (u : ReadUnit) (h : k.memOk) : (k.takeRead u).1.memOk := by
  unfold Channel.takeRead
  split
  · exact h
  · exact Channel.readOrdered_memOk _ _ _ h

theorem Channel.takeReads_memOk (sel : ReadUnit → Bool) (h : k.memOk) : (k.takeReads sel).memOk := by
  unfold Channel.takeReads
  generalize k.reads = l
  induction l generalizing k with
  | nil => exact h
  | cons u l ih =>
    refine ih ?_
    dsimp only
    split
    · exact Channel.takeRead_memOk u h
    · exact h

end Channels

namespace State.Kept

variable {s t : State} {ok : Prop} {b : Boot} {i : BitVec 48} {cid : CoreId} {ch : ChanId} {fn : Fn} {entry : BitVec 6}

theorem channelCommand {act : Channel → State} (hact : (act (s.channel ch)).Kept ok b i) : HoldsAfter (State.Kept · ok b i) (Machine.channelCommand s ch act) := by
  unfold Machine.channelCommand
  split
  · exact trivial
  · exact hact

theorem firingCommand {kind : Nat} {act : State → Channel → DsEntry → Nat → CoreId → Nat → State} (h : s.Kept ok b i)
    (hact : ∀ (s : State) (e : DsEntry) (m : Nat) (c : CoreId) (a : Nat), s.Kept ok b i → (act s (s.channel ch) e m c a).Kept ok b i) :
    HoldsAfter (State.Kept · ok b i) (Machine.firingCommand s ch entry kind act) := by
  refine channelCommand ?_
  split
  · exact h
  · next e m f _ =>
    dsimp only
    split
    · exact h
    · have hrun : (s.onCore (s.entryCore (s.channel ch) e) (fun env c => c.runTo env f)).Kept ok b i := h.onCore fun env c hc => CoreState.runTo_memOk env _ hc
      generalize s.onCore (s.entryCore (s.channel ch) e) (fun env c => c.runTo env f) = u at hrun ⊢
      have hcount : (u.setChannel ch ((u.channel ch).countFiring entry)).Kept ok b i := hrun.setChannel hrun.channel_memOk
      split
      · exact hcount.modCore fun _ hc => hc
      · exact hact _ _ _ _ _ hcount

theorem requestRead {e : DsEntry} {m a f j : Nat} (h : s.Kept ok b i) : (s.requestRead ch entry e m cid a f j).Kept ok b i := h.setChannel h.channel_memOk

theorem dsReadFiring (h : s.Kept ok b i) : HoldsAfter (State.Kept · ok b i) (execDsReadFiring ch entry s) := by
  refine h.firingCommand fun u e m c a hu => ?_
  dsimp only
  split
  · exact hu.modCore fun _ hc => hc
  · exact State.Kept.foldl (fun _ _ hs => hs.requestRead) _ hu

theorem dsWriteFiring (h : s.Kept ok b i) : HoldsAfter (State.Kept · ok b i) (execDsWriteFiring ch entry s) :=
  h.firingCommand fun _ _ _ _ _ hu => hu.modCore fun c hc => (Keeps.foldl _ (fun d _ => d.push_keeps _ _) _ c).memOk hc

theorem dsGranaryFiring (h : s.Kept ok b i) : HoldsAfter (State.Kept · ok b i) (execDsGranaryFiring ch entry s) := by
  refine h.firingCommand fun u e m c a hu => ?_
  have hcore (ho : ok) := hu.core_memOk (c := c) ho
  dsimp only
  split
  · split
    · exact hu
    · exact (hu.setChannel fun ho => Channel.readOrdered_memOk _ _ _ (hu.channel_memOk ho)).setCore hcore
  · split
    · exact hu
    · refine State.Kept.setCore (hu.setChannel ?_) ?_
      · exact hu.channel_memOk
      · exact hcore

theorem settleUnit_memOk {c : CoreState} {u : ReadUnit} (h : c.memOk) : (c.settleUnit u).memOk := by
  unfold CoreState.settleUnit
  split
  · exact collision_memOk (c := { c with traffic.collided := false }) h
  · exact h

theorem tryUnit_memOk {c : CoreState} {env : Env} {later : Bool} {u : ReadUnit} (h : c.memOk) : (c.tryUnit env later u).core.memOk := by
  refine tryLand_memOk h fun k hk => ?_
  split at hk
  · exact landPort_memOk h hk
  · cases hk
    exact h

theorem landUnit {u : ReadUnit} (h : s.Kept ok b i) : (s.landUnit ch u).Kept ok b i := by
  have hread (ho : ok) : ((s.channel ch).takeRead u).1.memOk := Channel.takeRead_memOk u (h.channel_memOk ho)
  have hcore (ho : ok) := h.core_memOk (c := u.core) ho
  unfold State.landUnit
  dsimp only
  generalize (s.channel ch).takeRead u = r at hread ⊢
  have hland (ho : ok) := tryUnit_memOk (env := s.env r.2.core) (later := s.unitFirst ch r.2 (s.core u.core).step.offset) (u := r.2) (hcore ho)
  generalize (s.core u.core).tryUnit _ _ r.2 = x at hland ⊢
  have hmark : ∀ c : CoreState, c.memOk → ∀ ordinal unit o, (if r.2.bad then c.noteUe ordinal unit o else c).memOk := fun c hc _ _ _ => by split <;> exact hc
  cases x with
  | held d => exact State.Kept.setChannel (State.Kept.setCore h hland) hread
  | failed d => exact State.Kept.setChannel (State.Kept.setCore h fun ho => hmark _ (settleUnit_memOk (hland ho)) _ _ _) hread
  | done d =>
    refine State.Kept.setChannel (State.Kept.setCore h fun ho => ?_) hread
    split
    · exact hmark _ (settleUnit_memOk (hland ho)) _ _ _
    · exact hmark _ (settleUnit_memOk (hland ho)) _ _ _

theorem dsReadUnitLands (h : s.Kept ok b i) : HoldsAfter (State.Kept · ok b i) (execDsReadUnitLands ch s) := by
  refine channelCommand ?_
  split
  · exact h
  · next u _ =>
    have hrun : (s.onCore u.core (fun env c => c.runTo env u.land)).Kept ok b i := h.onCore fun env c hc => CoreState.runTo_memOk env _ hc
    exact State.Kept.ite h (State.Kept.ite hrun hrun.landUnit)

theorem dsWritePerformed (h : s.Kept ok b i) : HoldsAfter (State.Kept · ok b i) (execDsWritePerformed ch s) := by
  refine channelCommand ?_
  split
  · exact h
  · next w rest _ =>
    have hreads (ho : ok) : ((s.channel ch).readsBefore w).memOk := Channel.takeReads_memOk _ (h.channel_memOk ho)
    dsimp only
    generalize (s.channel ch).readsBefore w = k at hreads ⊢
    have hunit (ho : ok) : (({ k with writes := rest } : Channel).readUnit (w.unit % shareUnits)).1.memOk := Channel.readUnit_mem _ (hreads ho)
    refine State.Kept.ite h (State.Kept.ite (h.setChannel fun ho => Channel.write_mem _ _ _ (hreads ho)) ?_)
    have hwritten : (s.setChannel ch (({ (({ k with writes := rest } : Channel).readUnit (w.unit % shareUnits)).1 with
        journal := (({ k with writes := rest } : Channel).readUnit (w.unit % shareUnits)).1.journal ++
          [{ unit := w.unit % shareUnits, data := (({ k with writes := rest } : Channel).readUnit (w.unit % shareUnits)).2.1,
             bruise := (({ k with writes := rest } : Channel).readUnit (w.unit % shareUnits)).2.2.1, damage := .sound }] } : Channel).write (w.unit % shareUnits) w.data w.bruise)).Kept ok b i :=
      h.setChannel fun ho => Channel.write_mem _ _ _ (hunit ho)
    exact State.Kept.ite (hwritten.modCore fun _ hc => hc) hwritten

theorem deepStall (h : s.Kept ok b i) : HoldsAfter (State.Kept · ok b i) (execDeepStall ch s) := channelCommand (State.Kept.ite (h.setChannel h.channel_memOk) h)

theorem deepStallEnd {periods : Nat} (h : s.Kept ok b i) : HoldsAfter (State.Kept · ok b i) (execDeepStallEnd ch periods s) := by
  refine channelCommand (State.Kept.ite h ?_)
  refine State.Kept.modPlot (h.setChannel h.channel_memOk) fun p => ?_
  dsimp only
  split <;> rfl

theorem dsRefresh (h : s.Kept ok b i) : HoldsAfter (State.Kept · ok b i) (execDsRefresh ch s) := channelCommand (h.setChannel h.channel_memOk)

theorem dsScrub {unit : Nat} (h : s.Kept ok b i) : HoldsAfter (State.Kept · ok b i) (execDsScrub ch unit s) := by
  refine channelCommand ?_
  have hread := h.setChannel (ch := ch) fun ho => (Channel.readUnit_mem unit (Channel.takeReads_memOk (fun u => u.unit % shareUnits == unit && !s.requestsBefore ch u.req u.entry) (h.channel_memOk (ch := ch) ho)))
  dsimp only
  split
  · exact hread
  · split
    · exact hread
    · exact hread.modPlot fun _ => rfl

end State.Kept

end Sys2Proof.Machine
end

section
/-! Reports, records, placement and repairs keep the module's memories. -/

namespace Sys2Proof.Machine

namespace State.Kept

variable {s t : State} {ok : Prop} {b : Boot} {i : BitVec 48} {cid : CoreId} {ch : ChanId} {fn : Fn} {code : Code} {d0 d1 d2 : Word} {r : Report} {st : Staged}

/-- A fold over a list with what its members are. -/
theorem foldl_mem {α : Type} {f : State → α → State} (l : List α) (hf : ∀ (s : State) (a : α), a ∈ l → s.Kept ok b i → (f s a).Kept ok b i) (h : s.Kept ok b i) : (l.foldl f s).Kept ok b i := by
  induction l generalizing s with
  | nil => exact h
  | cons a l ih => exact ih (fun s x hx => hf s x (List.mem_cons_of_mem _ hx)) (hf s a (List.mem_cons_self ..) h)

/-- A change of the hub die that leaves flash, start-up and idle bell alone. -/
theorem hubOf {g : Hub} (h : s.Kept ok b i) (hflash : g.flash.mem = s.hub.flash.mem) (hboot : g.boot = s.hub.boot) (hidle : g.idleBell = s.hub.idleBell) : ({ s with hub := g } : State).Kept ok b i :=
  ⟨fun ho => by
    obtain ⟨hcores, hchannels, hmem, hplots⟩ := h.1 ho
    exact ⟨hcores, hchannels, by rw [show ({ s with hub := g } : State).hub.flash.mem = s.hub.flash.mem from hflash]; exact hmem, hplots⟩, hboot.trans h.boot, hidle.trans h.idle⟩

/-! ### Reports -/

theorem logReport (h : s.Kept ok b i) : (s.logReport code d0 d1 d2).Kept ok b i := by
  obtain ⟨f, l, hhub⟩ := s.logReport_hub code d0 d1 d2
  exact State.Kept.hubOf (g := (s.logReport code d0 d1 d2).hub) h (by rw [hhub]) (by rw [hhub]) (by rw [hhub])

theorem sumUp (u : Hub) (r : Report) : (u.sumUp r).flash.mem = u.flash.mem ∧ (u.sumUp r).boot = u.boot ∧ (u.sumUp r).idleBell = u.idleBell := by
  unfold Hub.sumUp
  split <;> exact ⟨rfl, rfl, rfl⟩

theorem queueReport (h : s.Kept ok b i) : (s.queueReport fn r).Kept ok b i := by
  unfold State.queueReport
  obtain ⟨hflash, hboot, hidle⟩ := State.Kept.sumUp s.hub r
  exact State.Kept.hubOf (s := s.modPlot fn _) (h.modPlot fun _ => rfl) hflash hboot hidle

theorem queueReports {rs : List Report} (h : s.Kept ok b i) : (s.queueReports fn rs).Kept ok b i := State.Kept.foldl (fun _ _ hs => hs.queueReport) rs h

theorem plotReport {stop : Bool} (h : s.Kept ok b i) : (s.plotReport fn code stop d0 d1 d2).Kept ok b i := h.queueReport

theorem clearReports (h : s.Kept ok b i) : (s.clearReports fn).Kept ok b i :=
  State.Kept.modPlot (State.Kept.foldl (fun _ _ hs => by exact hs.modCore fun _ hc => hc) (s.plot fn).cores h) fun _ => rfl

/-! ### Records -/

theorem wearWarn {old new : Counter} (h : s.Kept ok b i) : (s.wearWarn old new).Kept ok b i := by
  unfold State.wearWarn
  exact State.Kept.ite h (State.Kept.logReport (s := s.modHub _) h)

theorem closeRecord {blocks : List StepBlock} {close : Nat} {bell : BitVec 48} {time : Word} (h : s.Kept ok b i) : (s.closeRecord fn blocks close bell time).Kept ok b i := by
  unfold State.closeRecord
  extract_lets p old inc counter sign stops decides _ report blocks' head body text signed _ s1 s2 s3
  have h1 : s1.Kept ok b i := State.Kept.hubOf (s := s.setPlot fn _) (h.setPlotOf rfl) rfl rfl rfl
  clear_value s1
  have h2 : s2.Kept ok b i := State.Kept.ite (h1.modPlot fun _ => rfl) h1
  have h3 : s3.Kept ok b i := h2.wearWarn
  exact State.Kept.ite h3 h3.queueReport

theorem addBlock {blk : StepBlock} {conds : List Nat} {bell : BitVec 48} (h : s.Kept ok b i) : (s.addBlock fn blk conds bell).Kept ok b i := by
  unfold State.addBlock
  extract_lets p old parted s1 blocks conds1 conds2
  have h1 : s1.Kept ok b i := State.Kept.ite (h.closeRecord.modPlot fun _ => rfl) h
  clear_value s1 conds2
  cases conds2 with
  | nil => exact h1.modPlot fun _ => rfl
  | cons c cs => exact h1.closeRecord.modPlot fun _ => rfl

/-! ### Placement -/

theorem setPass (h : s.Kept ok b i) : (s.setPass fn).Kept ok b i := h.setPlotOf rfl

theorem leave_memOk {c : CoreState} : c.leave.memOk := ⟨by rfl, by rfl⟩

theorem leaveCores {cs : List CoreId} (h : s.Kept ok b i) : (s.leaveCores cs).Kept ok b i := State.Kept.foldl (fun _ _ hs => hs.modCore fun _ _ => leave_memOk) cs h

theorem joinCores {cs : List CoreId} (h : s.Kept ok b i) : (s.joinCores fn cs).Kept ok b i := State.Kept.foldl (fun _ _ hs => by exact hs.modCore fun _ hc => hc) cs h

/-- A change of every channel that keeps the channels' memories. -/
theorem channelsOf {cs : AMap Channel} (h : s.Kept ok b i) (hcs : ok → ∀ e ∈ cs, e.2.memOk) : ({ s with channels := cs } : State).Kept ok b i :=
  ⟨fun ho => ⟨(h.1 ho).1, hcs ho, (h.1 ho).2.2⟩, h.2⟩

theorem releaseChannels (h : s.Kept ok b i) : (s.releaseChannels fn).Kept ok b i := by
  refine h.channelsOf fun ho e he => ?_
  obtain ⟨c, hc, rfl⟩ := List.mem_map.1 (List.mem_filter.1 he).1
  have hmem : c.2.memOk := (h.1 ho).2.1 c hc
  split
  · exact hmem
  · exact hmem

theorem bind {chs : List ChanId} (h : s.Kept ok b i) : (s.bind fn chs).Kept ok b i := State.Kept.foldl (fun _ _ hs => by exact hs.setChannel hs.channel_memOk) _ h

theorem rebind {d : Dim} {fs : List Nat} (h : s.Kept ok b i) : (s.rebind fn d fs).Kept ok b i := State.Kept.ite h h.releaseChannels.bind

theorem orphanAll (h : s.Kept ok b i) : (s.orphanAll fn).Kept ok b i := h

theorem assignMail (h : s.Kept ok b i) : (s.assignMail fn).Kept ok b i := h

theorem assignTallies {lo n : Nat} (h : s.Kept ok b i) : (s.assignTallies fn lo n).Kept ok b i := h

theorem loadCores {body : List Byte} {d : Dim} {keep : Bool} (h : s.Kept ok b i) : (s.loadCores fn body d keep).Kept ok b i := by
  unfold State.loadCores
  extract_lets p cs s1 chs s2
  have h1 : s1.Kept ok b i := State.Kept.foldl (fun _ q hs => hs.modCore fun c hc => CoreState.load_memOk _ _ _ _ hc (loadedCore_memOk _ _ _ _)) _ h
  clear_value s1
  have h2 : s2.Kept ok b i := State.Kept.foldl_mem _ (fun u c hc hu => hu.setChannel fun ho => (h1.1 ho).2.1 c (List.mem_filter.1 hc).1) h1
  exact h2.modPlot fun _ => rfl

theorem loadBody {slot : BitVec 4} {body : List Byte} {d : Dim} (h : s.Kept ok b i) : (s.loadBody fn slot body d).Kept ok b i := by
  unfold State.loadBody
  dsimp only
  have hload : ((s.rebind fn d (s.plot fn).fieldList).loadCores fn body d false).Kept ok b i := h.rebind.loadCores
  generalize (s.rebind fn d (s.plot fn).fieldList).loadCores fn body d false = u at hload ⊢
  exact State.Kept.setPass (hload.modPlot fun _ => rfl)

/-! ### Repairs -/

theorem coreReport (h : s.Kept ok b i) : (s.coreReport fn cid code d0 d1 d2).Kept ok b i := State.Kept.queueReport (h.modPlot fun _ => rfl)

theorem readImage (h : s.Kept ok b i) : (s.readImage fn cid).Kept ok b i := by
  unfold State.readImage
  split
  · exact h
  · exact State.Kept.coreReport (h.modCore fun _ hc => hc)

theorem readImages (h : s.Kept ok b i) : (s.readImages fn).Kept ok b i := State.Kept.foldl (fun _ _ hs => hs.readImage) _ h

theorem rebuildCore (h : s.Kept ok b i) : (s.rebuildCore fn cid).Kept ok b i := h.readImage.modCore fun _ hc => ⟨hc.2, hc.2⟩

theorem setPhysCore {k : PhysCore} (h : s.Kept ok b i) : (s.setPhysCore cid k).Kept ok b i := h

theorem remapRow {f : FieldId} {row : Nat} {new : RowMap} (h : s.Kept ok b i) : (s.remapRow f row new).Kept ok b i := by
  refine State.Kept.foldl (fun u k hu => ?_) _ h.setField
  dsimp only
  split
  · exact hu.rebuildCore
  · exact hu

theorem moveCore {own : Option Fn} {w : Nat × Nat × Nat} (h : s.Kept ok b i) : (State.moveCore own s w).Kept ok b i := by
  unfold State.moveCore
  dsimp only
  split
  · exact State.Kept.rebuildCore (s := s.setField _ _) h
  · exact h

theorem takeMaps {own : Option Fn} (h : s.Kept ok b i) : (s.takeMaps own).Kept ok b i := h

theorem takeRemaps {own : Option Fn} (h : s.Kept ok b i) : (s.takeRemaps own).Kept ok b i :=
  (State.Kept.foldl (fun _ _ hs => hs.moveCore) (s.waitingCores own) h).takeMaps (own := own)

end State.Kept

end Sys2Proof.Machine
end

section
/-! What management packets and host packets do to a plot keeps the module's memories. -/

namespace Sys2Proof.Machine

theorem mem_insertBy {α : Type} {le : α → α → Bool} {x y : α} {l : List α} (h : y ∈ insertBy le x l) : y = x ∨ y ∈ l := by
  induction l with
  | nil => exact .inl (List.mem_singleton.1 h)
  | cons z l ih =>
    unfold insertBy at h
    split at h
    · rcases List.mem_cons.1 h with rfl | h
      · exact .inr (List.mem_cons_self ..)
      · exact (ih h).imp_right (List.mem_cons_of_mem _)
    · exact List.mem_cons.1 h

/-- A sorted list has no other members. -/
theorem mem_of_mem_sortBy {α : Type} {le : α → α → Bool} {y : α} {l : List α} (h : y ∈ sortBy le l) : y ∈ l := by
  have hfold : ∀ (l acc : List α), y ∈ l.foldl (fun acc x => insertBy le x acc) acc → y ∈ l ∨ y ∈ acc := fun l => by
    induction l with
    | nil => exact fun acc h => .inr h
    | cons x l ih =>
      intro acc h
      rcases ih _ h with h | h
      · exact .inl (List.mem_cons_of_mem _ h)
      · exact (mem_insertBy h).elim (fun h => .inl (h ▸ List.mem_cons_self ..)) .inr
  exact (hfold l [] h).resolve_right List.not_mem_nil

namespace State.Kept

variable {s t : State} {ok : Prop} {b : Boot} {i : BitVec 48} {cid : CoreId} {ch : ChanId} {fn : Fn} {code : Code} {d0 d1 d2 : Word} {st : Staged} {p : PacketIn} {w param : Word} {rows cols y x : Nat}
  {type : BitVec 8} {bell : BitVec 48}

/-! ### Plots -/

theorem moveOrdinals {old new : List Nat} (h : s.Kept ok b i) : (s.moveOrdinals fn old new).Kept ok b i := by
  unfold State.moveOrdinals
  refine State.Kept.foldl_mem _ (fun u c hc hu => ?_) h
  have hmem (ho : ok) : c.2.1.memOk := by
    obtain ⟨e, he, rfl⟩ := List.mem_map.1 (List.mem_filter.1 (mem_of_mem_sortBy hc)).1
    exact (h.1 ho).2.1 e (List.mem_filter.1 he).1
  dsimp only
  split
  · exact hu
  · refine State.Kept.setChannel (hu.setChannel ?_) ?_
    · exact hmem
    · exact hmem

theorem createPlot (h : s.Kept ok b i) : (s.createPlot fn rows cols y x).Kept ok b i := by
  unfold State.createPlot
  exact State.Kept.setPass (State.Kept.setPlot h.joinCores.assignMail fun _ _ hk => absurd hk List.not_mem_nil)

theorem resizePlot (h : s.Kept ok b i) : (s.resizePlot fn rows cols y x).Kept ok b i := by
  unfold State.resizePlot
  extract_lets p new s1
  have h1 : s1.Kept ok b i := (h.leaveCores.joinCores).setPlot h.saved_memOk
  clear_value s1
  split
  · split
    · exact h1.rebind.loadCores.setPass
    · exact h1
  · exact h1.setPass

theorem preemptPlot (h : s.Kept ok b i) : (s.preemptPlot fn).Kept ok b i := by
  unfold State.preemptPlot
  extract_lets s1 p saved
  have h1 : s1.Kept ok b i := State.Kept.ite h h.readImages
  clear_value s1
  have hsaved (ho : ok) : ∀ k ∈ saved, k.work.memOk := by
    intro k hk
    simp only [saved] at hk
    split at hk
    · exact absurd hk List.not_mem_nil
    · obtain ⟨c, -, rfl⟩ := List.mem_map.1 hk
      exact (h1.core_memOk (c := c.1) ho).2
  exact h1.orphanAll.setPlot hsaved

theorem resumePlot (h : s.Kept ok b i) : (s.resumePlot fn rows cols y x).Kept ok b i := by
  unfold State.resumePlot
  dsimp only
  refine State.Kept.ite (h.setPlotOf rfl) (State.Kept.setPass ?_)
  split
  · exact State.Kept.loadCores (h.moveOrdinals.joinCores.setPlot h.saved_memOk)
  · exact h.moveOrdinals.joinCores.setPlot h.saved_memOk

theorem reclaim (h : s.Kept ok b i) : (s.reclaim fn).Kept ok b i :=
  State.Kept.foldl (fun _ _ hs => by exact State.Kept.ite hs.assignTallies (hs.modPlot fun _ => rfl)) _ h.assignMail

theorem removePlot (h : s.Kept ok b i) : (s.removePlot fn).Kept ok b i :=
  State.Kept.setPlot (h.orphanAll.leaveCores.releaseChannels (fn := fn)) fun _ _ hk => absurd hk List.not_mem_nil

theorem commonsOp (h : s.Kept ok b i) : (s.commonsOp fn param).Kept ok b i := by
  unfold State.commonsOp
  dsimp only
  split
  · exact State.Kept.ite h.assignMail (h.assignTallies.modPlot fun _ => rfl)
  · exact h.modPlot fun _ => rfl
  · exact h.modPlot fun _ => rfl

theorem sendWord {port : PortId} (h : s.Kept ok b i) : (s.sendWord port w).Kept ok b i := State.Kept.ite h.setPort h

theorem sendDown {g : BitVec 8} (h : s.Kept ok b i) : (s.sendDown g w).Kept ok b i := State.Kept.foldl (fun _ _ hs => hs.sendWord) _ h

theorem groupSend {g : BitVec 8} (h : s.Kept ok b i) : (s.groupSend g w).Kept ok b i := State.Kept.ite h.sendDown h.sendWord

theorem joinPlot (h : s.Kept ok b i) : (s.joinPlot fn st).Kept ok b i := by
  unfold State.joinPlot
  extract_lets digest gid s1
  have h1 : s1.Kept ok b i := h.modPlot fun _ => rfl
  clear_value s1
  exact State.Kept.ite (s := { s1 with system := _ }) h1 h1.sendWord

theorem leavePlot (h : s.Kept ok b i) : (s.leavePlot fn).Kept ok b i := h.modPlot fun _ => rfl

theorem setBudget {m : BitVec 16} (h : s.Kept ok b i) : (s.setBudget fn m).Kept ok b i := by
  unfold State.setBudget
  extract_lets old s1
  have h1 : s1.Kept ok b i := State.Kept.setPass (h.modPlot fun _ => rfl)
  clear_value s1
  exact State.Kept.ite h1 (h1.modPlot fun _ => rfl)

theorem mgmtApply (h : s.Kept ok b i) : (s.mgmtApply type p).Kept ok b i := by
  unfold State.mgmtApply
  dsimp only
  split
  · exact h.createPlot
  · exact h.resizePlot
  · exact h.preemptPlot
  · exact h.resumePlot
  · exact h.modPlot fun _ => rfl
  · exact h.setBudget
  · exact h.commonsOp
  · exact h

/-! ### Host packets -/

theorem vector2_saved (q : Plot) : q.vector2.moving = q.moving := by
  unfold Plot.vector2
  split <;> rfl

theorem complete (h : s.Kept ok b i) : (s.complete st bell code).Kept ok b i := State.Kept.ite h (State.Kept.modPlot (s := { s with hub.seq := s.hub.seq + 1 }) h fun _ => rfl)

theorem refuse (h : s.Kept ok b i) : (s.refuse st code).Kept ok b i := State.Kept.complete (h.modPlot fun _ => congrArg Moving.saved (vector2_saved _))

theorem refuseStaged (h : s.Kept ok b i) : (s.refuseStaged fn).Kept ok b i := State.Kept.foldl (fun _ _ hs => hs.refuse) _ (h.modPlot fun _ => rfl)

theorem copyIn {first : Nat} {bs : List Byte} (h : s.Kept ok b i) : (s.copyIn fn first bs).Kept ok b i := by
  refine State.Kept.foldl (fun u k hu => ?_) _ h
  split
  · exact hu.setChannel fun ho => Channel.write_mem _ _ _ (hu.channel_memOk ho)
  · exact hu

theorem readUnits {first n : Nat} (h : s.Kept ok b i) : (s.readUnits fn first n).1.Kept ok b i := by
  refine State.Kept.foldl_fst (β := List (BitVec 512 × BitVec 8) × List (BitVec 9 × Nat)) (fun a k ha => ?_) _ h
  dsimp only
  split
  · exact ha.setChannel fun ho => Channel.readUnit_mem _ (ha.channel_memOk ho)
  · exact ha

theorem fetchNow {stopped : Bool} (h : s.Kept ok b i) : (s.fetchNow st bell stopped).1.Kept ok b i := by
  unfold State.fetchNow
  extract_lets fn r data bruised pkt _ out _ _ s1
  have hread : r.1.Kept ok b i := h.readUnits
  have h1 : s1.Kept ok b i := State.Kept.modPlot (s := { r.1 with hub.seq := r.1.hub.seq + 1 }) hread fun _ => rfl
  clear_value s1
  refine State.Kept.foldl (fun u k hu => ?_) _ h1
  refine hu.plotReport.modPlot fun q => ?_
  split <;> rfl

theorem closeRun {close : Nat} (h : s.Kept ok b i) : (s.closeRun fn close).Kept ok b i := State.Kept.ite (h.closeRecord.modPlot fun _ => rfl) h

theorem endRun {close : Nat} (h : s.Kept ok b i) : (s.endRun fn close).Kept ok b i := h.closeRun.modPlot fun _ => rfl

theorem quitRun (h : s.Kept ok b i) : (s.quitRun fn).Kept ok b i := by
  unfold State.quitRun
  extract_lets t u
  have hu : u.Kept ok b i := h.closeRun.modPlot fun _ => rfl
  exact State.Kept.ite (hu.modPlot fun _ => congrArg Moving.saved (vector2_saved _)) hu

theorem resetPlot (h : s.Kept ok b i) : (s.resetPlot fn).Kept ok b i := by
  unfold State.resetPlot
  have hquit : ((s.quitRun fn).refuseStaged fn).Kept ok b i := h.quitRun.refuseStaged
  generalize (s.quitRun fn).refuseStaged fn = u at hquit ⊢
  dsimp only
  generalize (u.plot fn).faults.queue = l
  exact State.Kept.removePlot (State.Kept.ite (State.Kept.modPlot (hquit.modPlot fun _ => rfl) fun _ => rfl) hquit)

theorem takeMgmt (h : s.Kept ok b i) : (s.takeMgmt st).1.Kept ok b i := by
  unfold State.takeMgmt
  dsimp only
  split
  · exact h
  · split
    · exact h
    · split
      · exact h
      · split
        · exact h
        · exact h.quitRun.preemptPlot
        · exact h.resetPlot
        · split
          · exact h.leavePlot
          · exact h.joinPlot
        · exact h.hubOf rfl rfl rfl
        · exact h.hubOf rfl rfl rfl
        · exact h.mgmtApply

theorem takeLoad (h : s.Kept ok b i) : (s.takeLoad st).1.Kept ok b i := by
  unfold State.takeLoad
  dsimp only
  split
  · exact h
  · split
    · exact (h.leaveCores.releaseChannels.joinCores).modPlot fun _ => rfl
    · split
      · exact h
      · exact h.loadBody

theorem settle {c : Option Code} (h : s.Kept ok b i) : (s.settle st bell c).Kept ok b i := by
  cases c with
  | none => exact h
  | some c => exact State.Kept.ite h.complete h.refuse

theorem carryPacket (h : s.Kept ok b i) : (s.carryPacket st).Kept ok b i := by
  unfold State.carryPacket
  exact State.Kept.ite h h.groupSend

theorem acceptPacket (h : s.Kept ok b i) : (s.acceptPacket st).Kept ok b i := by
  unfold State.acceptPacket
  exact State.Kept.ite h.fetchNow (State.Kept.ite h (State.Kept.ite h.takeMgmt.settle (h.modPlot fun _ => rfl)))

/-- The device reads a packet. -/
theorem readPacket (h : s.Kept ok b i) : (s.readPacket type p).Kept ok b i := by
  unfold State.readPacket
  extract_lets q avail p1 st s1
  have h1 : s1.Kept ok b i := h.modPlot fun _ => rfl
  clear_value s1
  refine State.Kept.ite h (State.Kept.ite (h.refuse.modPlot fun _ => congrArg Moving.saved (vector2_saved _)) (State.Kept.ite h (State.Kept.ite (h.modPlot fun _ => rfl) ?_)))
  split
  · exact h1.refuse
  · exact h1.carryPacket.acceptPacket

/-! ### Start-up plots -/

theorem takeStart (h : s.Kept ok b i) : ∀ u, s.takeStart type fn param = .ok u → u.Kept ok b i := by
  unfold State.takeStart
  extract_lets p st r
  have hr : r.1.Kept ok b i := by
    simp only [r]
    split
    · exact h.takeLoad
    · exact h.takeMgmt
  clear_value r
  intro u hu
  split at hu
  · cases hu
  · split at hu
    · cases hu
    · split at hu
      · cases hu
      · split at hu
        · cases hu
        · split at hu
          · split at hu
            · cases hu
              exact hr
            · cases hu
          · cases hu
            exact hr

end State.Kept

end Sys2Proof.Machine
end

section
/-! Groups, ceilings and the parts of a bell keep the module's memories. -/

namespace Sys2Proof.Machine

namespace State.Kept

variable {s t : State} {ok : Prop} {b : Boot} {i : BitVec 48} {cid : CoreId} {ch : ChanId} {fn : Fn} {code : Code} {d0 d1 d2 w : Word} {st : Staged} {g : BitVec 8} {f : FieldId} {n now : Nat} {bell : BitVec 48}

theorem advance {dh : Nat} (h : s.Kept ok b i) : (s.advance dh).Kept ok b i := State.Kept.ite h h

/-- A change of the system state is none of a memory. -/
theorem withSystem {y : System} (h : s.Kept ok b i) : ({ s with system := y } : State).Kept ok b i := h

/-- A change of the commons is none of a memory. -/
theorem withCommons {c : Commons} (h : s.Kept ok b i) : ({ s with commons := c } : State).Kept ok b i := h

/-- A change of the hub die that leaves flash, start-up and idle bell alone, whatever hub die it meets. -/
theorem modHub {g : Hub → Hub} (h : s.Kept ok b i) (hg : ∀ u : Hub, (g u).flash.mem = u.flash.mem ∧ (g u).boot = u.boot ∧ (g u).idleBell = u.idleBell) : (s.modHub g).Kept ok b i := by
  obtain ⟨hflash, hboot, hidle⟩ := hg s.hub
  exact h.hubOf hflash hboot hidle

/-! ### Groups -/

theorem sendAll (h : s.Kept ok b i) : (s.sendAll w).Kept ok b i := State.Kept.foldl (fun _ _ hs => hs.sendWord) _ h

theorem fixEpoch (h : s.Kept ok b i) : (s.fixEpoch g n).Kept ok b i := by
  unfold State.fixEpoch
  dsimp only
  have hsent : (s.sendDown g (bellWord 3 g n (s.system.stime.toNat + s.groupMargin g))).Kept ok b i := h.sendDown
  generalize s.sendDown g _ = u at hsent ⊢
  split
  · exact hsent
  · exact State.Kept.modPlot (s := { u with system := _ }) hsent fun _ => rfl

theorem ringEvents_saved (p : Plot) (late : Bool) (now : Nat) (stamp : Word) : (p.ringEvents late now stamp).1.moving.saved = p.moving.saved := by
  unfold Plot.ringEvents
  dsimp only
  split
  · rfl
  · split
    · rfl
    · split <;> rfl

theorem epochEvents_saved (p : Plot) (root here : Bool) (now : Nat) (free : Word) : (p.epochEvents root here now free).1.moving.saved = p.moving.saved := by
  unfold Plot.epochEvents
  dsimp only
  split
  · rfl
  · split
    · rfl
    · split
      · rfl
      · split <;> rfl

theorem tryEpoch (h : s.Kept ok b i) : (s.tryEpoch g n).Kept ok b i := by
  unfold State.tryEpoch
  split
  · exact h
  · dsimp only
    refine State.Kept.ite h ?_
    split
    · refine State.Kept.fixEpoch (h.setPlotOf ?_)
      split
      · rfl
      · exact ringEvents_saved _ _ _ _
    · exact h.fixEpoch

theorem afterArrival (h : s.Kept ok b i) : (s.afterArrival g n).Kept ok b i := by
  unfold State.afterArrival
  refine State.Kept.ite h (State.Kept.ite (State.Kept.tryEpoch ?_) h.sendWord)
  split
  · exact h.modPlot fun _ => rfl
  · exact h

theorem groupEdge (h : s.Kept ok b i) : (s.groupEdge g n now).Kept ok b i := by
  unfold State.groupEdge
  have hedge : ∀ u : State, u.Kept ok b i → (if u.subtreeArrived g n then u.tryEpoch g n else u).Kept ok b i := fun u hu => State.Kept.ite hu.tryEpoch hu
  refine State.Kept.ite h (hedge _ ?_)
  split
  · exact h.modPlot fun _ => rfl
  · exact h

theorem tryDomains (h : s.Kept ok b i) : s.tryDomains.Kept ok b i := State.Kept.ite h (State.Kept.foldl (fun _ _ hs => State.Kept.ite hs.tryEpoch hs) _ h)

/-! ### Ceilings -/

theorem driveVset (h : s.Kept ok b i) : s.driveVset.Kept ok b i := h

theorem setCeiling (h : s.Kept ok b i) : (s.setCeiling f).Kept ok b i := by
  unfold State.setCeiling
  dsimp only
  generalize min (s.field f).ceiling.toNat _ = low
  refine State.Kept.driveVset (h.setField.modHub fun u => ?_)
  split
  · exact ⟨rfl, rfl, rfl⟩
  · split <;> exact ⟨rfl, rfl, rfl⟩

theorem takeCeiling (h : s.Kept ok b i) : (s.takeCeiling f).Kept ok b i := h

theorem takeCeilings (h : s.Kept ok b i) : (s.takeCeilings fn).Kept ok b i := State.Kept.foldl (fun _ _ hs => State.Kept.ite hs hs.takeCeiling) _ h

theorem vsetSettled (h : s.Kept ok b i) : HoldsAfter (State.Kept · ok b i) (execVsetSettled s) :=
  State.Kept.foldl (s := s.modHub _) (fun _ _ hs => State.Kept.ite hs hs.takeCeiling) allFields h

/-! ### The cores and channels of a plot -/

theorem mapCores {f : CoreState → CoreState} (h : s.Kept ok b i) (hf : ∀ c : CoreState, c.memOk → (f c).memOk) : (s.mapCores fn f).Kept ok b i := State.Kept.foldl (fun _ _ hs => hs.modCore hf) _ h

theorem mapChannels {f : Channel → Channel} (h : s.Kept ok b i) (hf : ∀ k : Channel, k.memOk → (f k).memOk) : (s.mapChannels fn f).Kept ok b i := by
  refine h.channelsOf fun ho e he => ?_
  obtain ⟨c, hc, rfl⟩ := List.mem_map.1 he
  have hmem : c.2.memOk := (h.1 ho).2.1 c hc
  split
  · exact hf _ hmem
  · exact hmem

theorem clearMesh (h : s.Kept ok b i) : (s.clearMesh fn).Kept ok b i := h

theorem commitStep_memOk {c : CoreState} (h : c.memOk) : c.commitStep.memOk := by
  have hreset : (if (c.returnDrains.readS 23).getLsbD 63 then c.returnDrains else (c.returnDrains.setDseq 0 0).setDseq 1 0).memOk := by split <;> exact h
  unfold CoreState.commitStep
  dsimp only
  generalize (if (c.returnDrains.readS 23).getLsbD 63 then c.returnDrains else (c.returnDrains.setDseq 0 0).setDseq 1 0) = d at hreset ⊢
  have hagain : (if (d.readS 31).getLsbD 63 then d else d.setDseq 2 0).memOk := by split <;> exact hreset
  generalize (if (d.readS 31).getLsbD 63 then d else d.setDseq 2 0) = e at hagain ⊢
  exact ⟨hagain.1, hagain.1⟩

theorem restoreUnit_memOk {k : Channel} {j : JournalEntry} (h : k.memOk) : (k.restoreUnit j).memOk := by
  have hwrite := Channel.write_mem j.unit j.data (if j.damage == .uncorrectable then 0xFF else j.bruise) h
  unfold Channel.restoreUnit Channel.memOk
  dsimp only
  generalize k.write j.unit j.data _ = w at hwrite ⊢
  exact hwrite

theorem restoreUnits_memOk (l : List JournalEntry) {k : Channel} (h : k.memOk) : (l.foldl Channel.restoreUnit k).memOk := by
  induction l generalizing k with
  | nil => exact h
  | cons j l ih => exact ih (restoreUnit_memOk h)

theorem noteStranded (h : s.Kept ok b i) : (s.noteStranded fn).Kept ok b i := State.Kept.foldl (fun _ _ hs => by exact State.Kept.dropFlit (hs.modCore fun _ hc => hc)) _ h

/-! ### Release and stop -/

theorem openStep (h : s.Kept ok b i) : (s.openStep fn).Kept ok b i :=
  State.Kept.modPlot (State.Kept.mapChannels (h.mapCores fun _ hc => hc) fun _ hk => hk) fun _ => rfl

theorem reeveChanges (h : s.Kept ok b i) : (s.reeveChanges fn).Kept ok b i := h.takeRemaps.takeCeilings

theorem takeLate (h : s.Kept ok b i) : (s.takeLate st).Kept ok b i := h.takeMgmt.settle

theorem stopNow {also : List Staged} (h : s.Kept ok b i) : (s.stopNow fn code also).Kept ok b i := by
  unfold State.stopNow
  dsimp only
  have hstop (q : Plot → Plot) (hq : ∀ p, (q p).moving.saved = p.moving.saved) : ((s.modPlot fn q).reeveChanges fn).Kept ok b i := State.Kept.reeveChanges (h.modPlot hq)
  refine State.Kept.refuseStaged (State.Kept.foldl (fun _ _ hs => hs.takeLate) _ (State.Kept.modPlot (hstop _ ?_) fun _ => rfl))
  exact fun p => congrArg Moving.saved (vector2_saved _)

theorem groupWord {kind : Nat} (h : s.Kept ok b i) : (s.groupWord fn kind).Kept ok b i := State.Kept.ite h.groupSend h

theorem closeBetween {l : List EventEntry} (h : s.Kept ok b i) : (s.closeBetween fn l).Kept ok b i := State.Kept.ite h.addBlock h

theorem stopHere (h : s.Kept ok b i) : (s.stopHere fn code d0 d1 d2).Kept ok b i := by
  unfold State.stopHere
  exact h.queueReport.closeBetween.stopNow.groupWord

theorem stopBetween (h : s.Kept ok b i) : (s.stopBetween fn code d0 d1 d2).Kept ok b i := State.Kept.ite (h.modPlot fun _ => rfl) h.stopHere

theorem divergeHere (h : s.Kept ok b i) : (s.divergeHere fn).Kept ok b i := by
  unfold State.divergeHere
  exact h.stopHere.modHub fun _ => ⟨rfl, rfl, rfl⟩

theorem meetPartner (h : s.Kept ok b i) : (s.meetPartner fn).Kept ok b i := by
  unfold State.meetPartner
  dsimp only
  refine State.Kept.ite h (State.Kept.ite h.stopHere ?_)
  split
  · exact State.Kept.ite (h.setPlotOf rfl) h.divergeHere
  · exact h.divergeHere
  · exact h

theorem openOrHold {last : Option Nat} (h : s.Kept ok b i) : (s.openOrHold fn last).Kept ok b i := by
  unfold State.openOrHold
  have hmeet : (s.meetPartner fn).Kept ok b i := h.meetPartner
  generalize s.meetPartner fn = u at hmeet ⊢
  dsimp only
  refine State.Kept.ite hmeet ?_
  split
  · exact hmeet.stopHere
  · exact State.Kept.ite hmeet.openStep (hmeet.setPlotOf rfl)

theorem releaseHeld (h : s.Kept ok b i) : (s.releaseHeld fn).Kept ok b i := State.Kept.ite h.reeveChanges.openStep h

theorem noteRefHold (h : s.Kept ok b i) : (s.noteRefHold fn).Kept ok b i := State.Kept.plotReport (h.modPlot fun _ => rfl)

theorem endRefHold (h : s.Kept ok b i) : (s.endRefHold fn).Kept ok b i := h.noteRefHold.releaseHeld

theorem easeHolds (h : s.Kept ok b i) : s.easeHolds.Kept ok b i :=
  State.Kept.foldl (fun _ _ hs => by exact State.Kept.ite hs (State.Kept.releaseHeld (hs.setPlotOf rfl))) _ h

/-! ### Abandoning an attempt -/

theorem noteJournals (h : s.Kept ok b i) : (s.noteJournals fn).Kept ok b i := State.Kept.foldl (fun _ _ hs => State.Kept.foldl (fun _ _ hu => hu.logReport) _ hs) _ h

theorem restorePlot (h : s.Kept ok b i) : (s.restorePlot fn).Kept ok b i := by
  unfold State.restorePlot
  dsimp only
  have hread : (((s.clearMesh fn).noteJournals fn).readImages fn).Kept ok b i := h.clearMesh.noteJournals.readImages
  generalize ((s.clearMesh fn).noteJournals fn).readImages fn = u at hread ⊢
  have hchannels := (hread.mapCores (fn := fn) fun _ hc => CoreState.restoreStep_memOk hc).mapChannels (fn := fn) (f := Channel.restoreStep) fun k hk => restoreUnits_memOk k.journal.reverse hk
  exact hchannels.modPlot fun _ => rfl

theorem abandonStop {rs : List Report} (h : s.Kept ok b i) : (s.abandonStop fn rs n).Kept ok b i := by
  unfold State.abandonStop
  dsimp only
  refine State.Kept.stopNow (State.Kept.ite (State.Kept.addBlock ?_) ?_)
  · exact h.queueReports.restorePlot.modPlot fun _ => rfl
  · exact h.queueReports.restorePlot.modPlot fun _ => rfl

theorem abandonRetry {rs : List Report} (h : s.Kept ok b i) : (s.abandonRetry fn rs n).Kept ok b i := by
  unfold State.abandonRetry
  dsimp only
  exact State.Kept.modPlot (State.Kept.restorePlot (h.queueReports.modPlot fun _ => rfl)) fun _ => rfl

theorem judge (h : s.Kept ok b i) : (s.judge fn).Kept ok b i := by
  unfold State.judge
  dsimp only
  split
  · exact State.Kept.ite h (State.Kept.ite h.abandonStop.groupWord h.abandonRetry.groupWord)
  · exact h.abandonRetry.groupWord
  · exact h.abandonStop.groupWord

/-! ### Committing -/

theorem commonsDrop {r : CommonsReq} (h : s.Kept ok b i) : (s.commonsDrop fn r).Kept ok b i := h.plotReport.modPlot fun _ => rfl

theorem commonsCommit {r : CommonsReq} (h : s.Kept ok b i) : (s.commonsCommit fn r).Kept ok b i := by
  unfold State.commonsCommit
  dsimp only
  refine State.Kept.ite (State.Kept.ite h (State.Kept.commonsDrop ?_)) (State.Kept.ite h.commonsDrop h)
  exact State.Kept.ite (h.modPlot fun _ => rfl) h

theorem commonsRun (h : s.Kept ok b i) : (s.commonsRun fn).Kept ok b i := State.Kept.modPlot (State.Kept.foldl (fun _ _ hs => hs.commonsCommit) _ h) fun _ => rfl

theorem takeMailbox (h : s.Kept ok b i) : (s.takeMailbox fn).Kept ok b i := by
  unfold State.takeMailbox
  refine State.Kept.ite ?_ h
  have hview : (s.mapCores fn (fun c => { c with viewMail := none })).Kept ok b i := h.mapCores fun _ hc => hc
  generalize s.mapCores fn (fun c => { c with viewMail := none }) = u at hview ⊢
  exact hview.withCommons.modPlot fun _ => rfl

theorem commitPlot (h : s.Kept ok b i) : (s.commitPlot fn).Kept ok b i := by
  unfold State.commitPlot
  exact State.Kept.setPass (State.Kept.modPlot (State.Kept.mapChannels (h.clearMesh.mapCores fun _ hc => commitStep_memOk hc) fun _ hk => hk) fun _ => rfl)

/-! ### The packets of a bell -/

theorem takeOne {act : State → Staged → State × Option Code} {r : BellRun} (hact : ∀ (s : State) st, s.Kept ok b i → (act s st).1.Kept ok b i) (h : r.1.Kept ok b i) : (Machine.takeOne act r st).1.Kept ok b i := by
  unfold Machine.takeOne
  dsimp only
  split
  · exact h
  · exact hact _ _ h

theorem stageRun {due : List Staged} {stage : Nat} {act : State → Staged → State × Option Code} {r : BellRun} (hact : ∀ (s : State) st, s.Kept ok b i → (act s st).1.Kept ok b i) (h : r.1.Kept ok b i) :
    (Machine.stageRun due stage act r).1.Kept ok b i := State.Kept.foldl_fst (fun _ _ hr => State.Kept.takeOne hact hr) _ h

theorem takeRunStart (h : s.Kept ok b i) : (s.takeRunStart st).1.Kept ok b i := by
  unfold State.takeRunStart
  dsimp only
  split
  · exact h
  · exact h.modPlot fun _ => rfl

theorem laterStages {due : List Staged} {r : BellRun} (h : r.1.Kept ok b i) : (Machine.laterStages due r).1.Kept ok b i := by
  have hmgmt := State.Kept.stageRun (due := due) (stage := 3) (act := State.takeMgmt) (fun _ _ hs => hs.takeMgmt) h
  have hload := State.Kept.stageRun (due := due) (stage := 4) (act := State.takeLoad) (fun _ _ hs => hs.takeLoad) hmgmt
  have hstart := State.Kept.stageRun (due := due) (stage := 5) (act := State.takeRunStart) (fun _ _ hs => hs.takeRunStart) hload
  unfold Machine.laterStages
  dsimp only
  generalize Machine.stageRun due 5 State.takeRunStart _ = q at hstart ⊢
  exact State.Kept.stageRun (fun _ _ hs => by exact hs.modPlot fun _ => rfl) (State.Kept.stageRun (fun _ _ hs => by exact hs.copyIn) hstart)

theorem settleBell {due : List Staged} {r : BellRun} (h : r.1.Kept ok b i) : (State.settleBell due fn bell r).Kept ok b i := by
  refine State.Kept.modPlot (State.Kept.foldl (fun u x hu => ?_) due h) fun _ => rfl
  split
  · exact hu.settle
  · exact hu

theorem fetchStage {due : List Staged} {r : BellRun} (h : r.1.Kept ok b i) : (Machine.fetchStage due bell r).1.1.Kept ok b i := by
  have hfold : ∀ (l : List Staged) (a : BellRun × List Item), a.1.1.Kept ok b i → (l.foldl (fun (a : BellRun × List Item) st =>
      let r := Machine.takeOne (fun s st => ((s.fetchNow st bell false).1, none)) a.1 st
      if r.2.any (fun o => o.1 == st && o.2 == none) then
        let data := (a.1.1.fetchNow st bell false).2
        (r, a.2 ++ [{ tag := st.p.tag, kind := 2, type := 0x82, length := BitVec.ofNat 32 data.length, digest := digestOf data }])
      else (r, a.2)) a).1.1.Kept ok b i := fun l => by
    induction l with
    | nil => exact fun _ ha => ha
    | cons st l ih =>
      intro a ha
      have hone := State.Kept.takeOne (st := st) (act := fun s st => ((s.fetchNow st bell false).1, none)) (fun _ _ hs => hs.fetchNow) ha
      refine ih _ ?_
      dsimp only
      split
      · exact hone
      · exact hone
  exact hfold _ _ h

theorem unstage {due : List Staged} (h : s.Kept ok b i) : (s.unstage fn due).Kept ok b i := h.modPlot fun _ => rfl

theorem countBell (h : s.Kept ok b i) : (s.countBell fn).Kept ok b i := h.modPlot fun _ => rfl

theorem afterBell {loads : Nat} (h : s.Kept ok b i) : (s.afterBell fn loads).Kept ok b i := by
  unfold State.afterBell
  have hreeve : ((s.countBell fn).reeveChanges fn).Kept ok b i := h.countBell.reeveChanges
  dsimp only
  generalize (s.countBell fn).reeveChanges fn = u at hreeve ⊢
  exact State.Kept.ite (State.Kept.openOrHold (hreeve.mapCores fun _ hc => ⟨hc.1, hc.1⟩)) (State.Kept.ite (hreeve.modPlot fun _ => rfl) hreeve)

end State.Kept

end Sys2Proof.Machine
end

section
/-! The bell and its commands, droop and references keep the module's memories. -/

namespace Sys2Proof.Machine

namespace State.Kept

variable {s t : State} {ok : Prop} {b : Boot} {i : BitVec 48} {cid : CoreId} {fn : Fn} {code : Code} {d0 d1 d2 w : Word} {st : Staged} {field : FieldId} {dh : Nat}

/-! ### Start-up plots -/

theorem startPlot {e : StartEntry} (h : s.Kept ok b i) : (s.startPlot e).1.Kept ok b i := by
  have hrun (a : State × Option Code) (type : BitVec 8) (param : Word) (ha : a.1.Kept ok b i) :
      (match a.2 with | some _ => a | none => match a.1.takeStart type e.fn param with | .ok t => (t, none) | .error c => (a.1, some c) : State × Option Code).1.Kept ok b i := by
    split
    · exact ha
    · split
      · next t ht => exact ha.takeStart t ht
      · exact ha
  exact hrun _ _ _ (hrun _ _ _ (hrun _ _ _ (hrun (s, none) _ _ h)))

/-! ### The commit of a bell -/

theorem commitBell {extra : List EventEntry} (h : s.Kept ok b i) : (s.commitBell fn extra).Kept ok b i := by
  unfold State.commitBell
  extract_lets rs evs s1 s2 s3 p bell due s4 f r ends took away last conds s5 limit closed refused s6 s7 loads s8
  have h3 : s3.Kept ok b i := State.Kept.commonsRun (State.Kept.takeMailbox (h.queueReports.modPlot fun _ => rfl))
  clear_value s3
  have h4 : s4.Kept ok b i := h3.unstage
  clear_value s4
  have hr : r.1.Kept ok b i := State.Kept.fetchStage h4
  clear_value r
  have h5 : s5.Kept ok b i := State.Kept.stageRun (fun _ _ hs => by exact hs) hr
  clear_value s5
  have h6 : s6.Kept ok b i := State.Kept.commitPlot (State.Kept.addBlock h5)
  clear_value s6 refused
  have h7 : s7.Kept ok b i := State.Kept.foldl (fun _ _ hs => hs.plotReport) extra (h6.modPlot fun _ => rfl)
  clear_value s7
  have h8 : s8.Kept ok b i := State.Kept.ite (h7.modPlot fun _ => rfl) h7
  clear_value s8 last
  split
  · have hsettle : (State.settleBell due fn bell (s8, ends.2)).Kept ok b i := State.Kept.settleBell h8
    exact State.Kept.stopNow (State.Kept.modPlot (State.Kept.countBell (State.Kept.ite hsettle.queueReport hsettle)) fun _ => rfl)
  · exact State.Kept.afterBell (State.Kept.settleBell (State.Kept.laterStages h8))

theorem emptyBell (h : s.Kept ok b i) : (s.emptyBell fn).Kept ok b i := by
  unfold State.emptyBell
  extract_lets p bell due s1 f r
  have h1 : s1.Kept ok b i := State.Kept.setPass (h.unstage.modPlot fun _ => rfl)
  have hr : r.1.Kept ok b i := State.Kept.stageRun (fun _ _ hs => by exact hs) (State.Kept.fetchStage h1)
  clear_value r bell
  split
  · have hsettle : ((State.settleBell due fn bell r).countBell fn).Kept ok b i := (State.Kept.settleBell hr).countBell
    exact State.Kept.stopNow (State.Kept.queueReport (hsettle.modPlot fun _ => rfl))
  · exact State.Kept.afterBell (State.Kept.settleBell (State.Kept.laterStages hr))

theorem noteCommons (h : s.Kept ok b i) : (s.noteCommons fn).Kept ok b i := State.Kept.ite h (h.modHub fun _ => ⟨rfl, rfl, rfl⟩)

theorem compare (h : s.Kept ok b i) : (s.compare fn).Kept ok b i := by
  have hdiverge (d0 d1 : Word) : State.Kept (((s.modPlot fn (fun p => p.hubReport fn 0x3007 s.stamp d0 d1 (s.hub.faults.partner.setWidth 64))).judge fn).modHub (fun h => { h with faults.diverged := true })) ok b i :=
    State.Kept.modHub (State.Kept.judge (h.modPlot fun _ => rfl)) fun _ => ⟨rfl, rfl, rfl⟩
  unfold State.compare
  dsimp only
  split
  · exact State.Kept.ite h (State.Kept.ite h.noteCommons.commitBell (hdiverge _ _))
  · exact hdiverge _ _
  · exact h

theorem lockDown (h : s.Kept ok b i) : (s.lockDown fn).Kept ok b i := State.Kept.judge (h.modPlot fun _ => rfl)

theorem ringWith {note : Plot → Plot × List EventEntry} (hnote : ∀ p, (note p).1.moving.saved = p.moving.saved) (h : s.Kept ok b i) : (s.ringWith fn note).Kept ok b i := by
  unfold State.ringWith
  have hstrand : (s.noteStranded fn).Kept ok b i := h.noteStranded
  generalize s.noteStranded fn = u at hstrand ⊢
  extract_lets now p q t
  have ht : t.Kept ok b i := hstrand.setPlotOf (hnote _)
  clear_value t
  refine State.Kept.ite hstrand.judge (State.Kept.ite hstrand (State.Kept.ite ht.noteCommons.commitBell (State.Kept.ite ht.lockDown (State.Kept.compare ?_))))
  exact ht.modPlot fun _ => rfl

theorem ring {late : Bool} (h : s.Kept ok b i) : (s.ring fn late).Kept ok b i := h.ringWith fun p => ringEvents_saved p _ _ _

theorem bellRings (h : s.Kept ok b i) : HoldsAfter (State.Kept · ok b i) (execBellRings fn dh s) := by
  unfold execBellRings
  have htry : (s.advance dh).tryDomains.Kept ok b i := h.advance.tryDomains
  generalize (s.advance dh).tryDomains = u at htry ⊢
  dsimp only
  split
  · exact htry
  · split
    · exact State.Kept.ite htry.tryEpoch htry
    · exact State.Kept.ite htry.ring htry

theorem bellIntervalElapsed (h : s.Kept ok b i) : HoldsAfter (State.Kept · ok b i) (execBellIntervalElapsed fn dh s) := h.bellRings

theorem syncLate (h : s.Kept ok b i) : HoldsAfter (State.Kept · ok b i) (execSyncLate fn dh s) := by
  unfold execSyncLate
  have htry : (s.advance dh).tryDomains.Kept ok b i := h.advance.tryDomains
  generalize (s.advance dh).tryDomains = u at htry ⊢
  dsimp only
  split
  · split
    · exact State.Kept.ite htry.tryEpoch htry
    · exact State.Kept.ite htry.ring htry
  · split
    · split
      · exact State.Kept.endRefHold (State.Kept.plotReport (htry.setPlotOf rfl))
      · exact htry
    · exact htry

theorem fieldArrivalRegistered (h : s.Kept ok b i) : HoldsAfter (State.Kept · ok b i) (execFieldArrivalRegistered fn field dh s) := by
  unfold execFieldArrivalRegistered
  have hnow : (s.advance dh).Kept ok b i := h.advance
  generalize s.advance dh = u at hnow ⊢
  dsimp only
  split
  · split
    · exact State.Kept.ite (State.Kept.afterArrival (hnow.setPlotOf rfl)) (hnow.setPlotOf rfl)
    · exact hnow.setPlotOf rfl
  · exact hnow

theorem plotEdge (h : s.Kept ok b i) : (s.plotEdge fn).Kept ok b i := by
  unfold State.plotEdge
  dsimp only
  refine State.Kept.ite h (State.Kept.ite (h.setPlotOf rfl) (State.Kept.ite (State.Kept.endRefHold (h.setPlotOf rfl)) (State.Kept.ite (State.Kept.ite ?_ ?_) (h.setPlotOf rfl))))
  · exact State.Kept.groupEdge (h.setPlotOf rfl)
  · exact State.Kept.sendWord (h.setPlotOf rfl)

theorem bellInEdge {falling : Bool} (h : s.Kept ok b i) : HoldsAfter (State.Kept · ok b i) (execBellInEdge falling dh s) :=
  State.Kept.foldl (fun _ _ hs => State.Kept.ite hs.plotEdge hs) _ (h.advance (dh := dh))

theorem stepRelease (h : s.Kept ok b i) : HoldsAfter (State.Kept · ok b i) (execStepRelease fn field s) := by
  refine h.modPlot fun p => ?_
  split <;> rfl

theorem coreArrives (h : s.Kept ok b i) : HoldsAfter (State.Kept · ok b i) (execCoreArrives cid s) := by
  refine h.coreCommand fun _ c hc => ?_
  split <;> exact hc

theorem stepLimit (h : s.Kept ok b i) : HoldsAfter (State.Kept · ok b i) (execStepLimit fn s) := by
  unfold execStepLimit
  dsimp only
  split
  · exact h
  · split
    · exact h
    · exact State.Kept.judge (h.modCore fun _ hc => hc)

theorem emptyBellRow (h : s.Kept ok b i) : HoldsAfter (State.Kept · ok b i) (execEmptyBell fn dh s) := by
  unfold execEmptyBell
  have hnow : (s.advance dh).Kept ok b i := h.advance
  generalize s.advance dh = u at hnow ⊢
  dsimp only
  split
  · exact hnow
  · split
    · exact State.Kept.ite hnow.afterArrival hnow
    · exact State.Kept.ite hnow hnow.emptyBell

/-! ### The idle domain -/

theorem idleChanges (h : s.Kept ok b i) : s.idleChanges.Kept ok b i := State.Kept.foldl (fun _ _ hs => hs.reeveChanges) _ h.takeRemaps

theorem takeIdle (h : s.Kept ok b i) : s.takeIdle.Kept ok b i :=
  State.Kept.foldl (fun _ _ hs => by exact hs.takeMgmt.settle) _ (h.idleChanges.modHub fun _ => ⟨rfl, rfl, rfl⟩)

/-! ### Clocks -/

theorem droopTrip (h : s.Kept ok b i) : HoldsAfter (State.Kept · ok b i) (execDroopTrip field s) := State.Kept.ite h h.setField

theorem droopRecovery (h : s.Kept ok b i) : HoldsAfter (State.Kept · ok b i) (execDroopRecovery field s) := h

theorem droopFloor (h : s.Kept ok b i) : HoldsAfter (State.Kept · ok b i) (execDroopFloor field s) := by
  unfold execDroopFloor
  extract_lets f s1 hit
  have h1 : s1.Kept ok b i := State.Kept.setCeiling h.setField
  clear_value s1
  split
  · exact h
  · split
    · exact h1.logReport
    · exact State.Kept.foldl (fun _ _ hs => by exact hs.modPlot fun _ => rfl) _ h1

theorem droopCeilingRestore (h : s.Kept ok b i) : HoldsAfter (State.Kept · ok b i) (execDroopCeilingRestore field s) := by
  unfold execDroopCeilingRestore
  dsimp only
  split
  · exact h
  · exact State.Kept.setCeiling h.setField

theorem refLoss (h : s.Kept ok b i) : s.refLoss.Kept ok b i := h.logReport.modHub fun _ => ⟨rfl, rfl, rfl⟩

theorem sysrefLoss (h : s.Kept ok b i) : HoldsAfter (State.Kept · ok b i) (execSysrefLoss dh s) := by
  unfold execSysrefLoss
  have hnow : (s.advance dh).Kept ok b i := h.advance
  generalize s.advance dh = u at hnow ⊢
  dsimp only
  split
  · exact State.Kept.refLoss (hnow.modHub fun _ => ⟨rfl, rfl, rfl⟩)
  · split
    · exact hnow
    · exact State.Kept.refLoss (hnow.modHub fun _ => ⟨rfl, rfl, rfl⟩)

theorem relockPlot (h : s.Kept ok b i) : (s.relockPlot fn).Kept ok b i := by
  unfold State.relockPlot
  exact State.Kept.ite h (State.Kept.ite (h.setPlotOf rfl) h.endRefHold)

theorem sysrefRelock (h : s.Kept ok b i) : HoldsAfter (State.Kept · ok b i) (execSysrefRelock dh s) := by
  unfold execSysrefRelock
  extract_lets s1 was s2
  have h2 : s2.Kept ok b i := (h.advance (dh := dh)).modHub fun _ => ⟨rfl, rfl, rfl⟩
  clear_value s2
  exact State.Kept.ite (State.Kept.foldl (fun _ _ hs => hs.relockPlot) _ h2) h2

theorem stopGroupPlot (h : s.Kept ok b i) : (s.stopGroupPlot fn d0 d1).Kept ok b i := by
  unfold State.stopGroupPlot
  exact State.Kept.ite h (State.Kept.ite (State.Kept.stopHere (State.Kept.ite h.noteRefHold h)) (h.setPlotOf rfl))

theorem holdoverExpiry (h : s.Kept ok b i) : HoldsAfter (State.Kept · ok b i) (execHoldoverExpiry dh s) := by
  unfold execHoldoverExpiry
  have hnow : (s.advance dh).Kept ok b i := h.advance
  generalize s.advance dh = u at hnow ⊢
  dsimp only
  split
  · exact hnow
  · have hports : State.Kept ((List.range 16).foldl (fun (s : State) k =>
        (if (s.port (BitVec.ofNat 4 k)).state = 0 then s else s.setPort (BitVec.ofNat 4 k) { s.port (BitVec.ofNat 4 k) with state := 3 }).logReport 0x3006 (opticalD0 k) ((s.port (BitVec.ofNat 4 k)).neighbour.setWidth 64) 0) u) ok b i :=
      State.Kept.foldl (fun _ _ hs => State.Kept.logReport (State.Kept.ite hs hs.setPort)) _ hnow
    exact State.Kept.foldl (fun _ _ hs => hs.stopGroupPlot) _ hports

theorem pcieRefclkLoss (h : s.Kept ok b i) : HoldsAfter (State.Kept · ok b i) (execPcieRefclkLoss dh s) := by
  unfold execPcieRefclkLoss
  have hnow : (s.advance dh).Kept ok b i := h.advance
  generalize s.advance dh = u at hnow ⊢
  dsimp only
  split
  · exact hnow
  · exact State.Kept.refLoss (hnow.modHub fun _ => ⟨rfl, rfl, rfl⟩)

theorem pcieRefclkRelock (h : s.Kept ok b i) : HoldsAfter (State.Kept · ok b i) (execPcieRefclkRelock dh s) := (h.advance (dh := dh)).modHub fun _ => ⟨rfl, rfl, rfl⟩

end State.Kept

/-! ### Commands that move the start-up or the idle bell on -/

section MemOk

variable {s : State}

/-- The start-up plots load; HUB.BOOTSTAT may count them. -/
theorem State.MemOk.loadStarts {count : Bool} (h : s.MemOk) : (s.loadStarts count).MemOk := by
  unfold State.loadStarts
  have htally (u : State) (good : Bool) (hu : u.MemOk) :
      (u.modHub (fun h => if !count then h else if good then { h with boot.plotsLoaded := h.boot.plotsLoaded + 1 } else { h with boot.plotsFailed := h.boot.plotsFailed + 1 })).MemOk := by
    refine hu.modHub ?_
    split
    · exact hu.2.2.1
    · split <;> exact hu.2.2.1
  generalize s.hub.flash.start = l
  induction l generalizing s with
  | nil => exact h
  | cons e l ih =>
    refine ih ?_
    have hstart : (s.startPlot e).1.MemOk := h.kept.startPlot.memOk
    dsimp only
    split
    · exact htally _ true hstart
    · exact (htally _ false hstart).kept.logReport.memOk

theorem State.MemOk.idleBell {dh : Nat} (h : s.MemOk) : HoldsAfter State.MemOk (execIdleBell dh s) := by
  unfold execIdleBell
  have hnow : (s.advance dh).MemOk := h.kept.advance.memOk
  generalize s.advance dh = u at hnow ⊢
  dsimp only
  split
  · exact hnow
  · have hcount : (u.modHub (fun h => { h with idleBell := h.idleBell + 1 })).MemOk := hnow
    have hidle : ((u.modHub (fun h => { h with idleBell := h.idleBell + 1 })).takeIdle).MemOk := hcount.kept.takeIdle.memOk
    generalize (u.modHub (fun h => { h with idleBell := h.idleBell + 1 })).takeIdle = v at hidle ⊢
    show State.MemOk (if _ then _ else _)
    split
    · exact State.MemOk.loadStarts (s := { v with hub.boot.reload := false }) hidle
    · exact hidle

end MemOk

end Sys2Proof.Machine
end

section
/-! Failures of the part and their repair, and the host's side of the rings, keep the module's memories. -/

namespace Sys2Proof.Machine

namespace State.Kept

variable {s t : State} {ok : Prop} {b : Boot} {i : BitVec 48} {cid : CoreId} {ch : ChanId} {fn : Fn} {code : Code} {d0 d1 d2 w : Word} {st : Staged} {field : FieldId} {dh n : Nat} {off : Option Nat}

/-! ### Attempts -/

theorem stepAbandon (h : s.Kept ok b i) : HoldsAfter (State.Kept · ok b i) (execStepAbandon fn dh s) := State.Kept.ite (h.advance (dh := dh)).judge h.advance

theorem retryRelease (h : s.Kept ok b i) : HoldsAfter (State.Kept · ok b i) (execRetryRelease fn dh s) := by
  unfold execRetryRelease
  have hnow : (s.advance dh).Kept ok b i := h.advance
  generalize s.advance dh = u at hnow ⊢
  dsimp only
  split
  · exact hnow
  · split
    · exact hnow.abandonStop.groupWord
    · exact State.Kept.openStep (State.Kept.reeveChanges (hnow.queueReports.modPlot fun _ => rfl))

/-! ### Reports of the part and lost cores -/

theorem partReport {owner : Option Fn} {hubDie : Bool} (h : s.Kept ok b i) : (s.partReport cid owner hubDie code d0 d1 off).Kept ok b i := by
  unfold State.partReport
  cases owner with
  | none => exact h.modHub fun u => State.Kept.sumUp u _
  | some fn => exact State.Kept.ite (h.setPlotOf rfl) (State.Kept.ite (State.Kept.queueReports (h.setPlotOf rfl)) (State.Kept.queueReports (h.setPlotOf rfl)))

theorem failCore (h : s.Kept ok b i) : (s.failCore cid).Kept ok b i := by
  unfold State.failCore
  dsimp only
  generalize (if (s.rowMap cid).bad.getLsbD (s.physOf cid) then (s.rowMap cid, false) else (s.rowMap cid).fail (s.physOf cid)) = k
  have hrow : (s.remapRow (fieldOfCore cid) (rowOf cid % 16) k.1).Kept ok b i := h.remapRow
  generalize s.remapRow (fieldOfCore cid) (rowOf cid % 16) k.1 = u at hrow ⊢
  refine State.Kept.ite h (State.Kept.ite hrow.partReport ?_)
  split
  · exact State.Kept.ite hrow.stopBetween hrow.partReport
  · exact hrow.partReport

theorem coreLost {cause : LostCause} (h : s.Kept ok b i) : HoldsAfter (State.Kept · ok b i) (execCoreLost cid cause s) := by
  unfold execCoreLost
  split
  · exact trivial
  · exact h.failCore

theorem powerDomainFault (h : s.Kept ok b i) : HoldsAfter (State.Kept · ok b i) (execPowerDomainFault cid s) := by
  unfold execPowerDomainFault
  split
  · exact trivial
  · exact h.failCore

theorem logicCheckEvent (h : s.Kept ok b i) : HoldsAfter (State.Kept · ok b i) (execLogicCheckEvent cid s) := by
  unfold execLogicCheckEvent
  dsimp only
  split
  · exact trivial
  · exact State.Kept.ite (State.Kept.failCore h.setPhysCore) (State.Kept.partReport h.setPhysCore)

theorem failColumn (h : s.Kept ok b i) : (s.failColumn cid off n).Kept ok b i := by
  unfold State.failColumn
  extract_lets k m new
  cases new with
  | none => exact h.failCore
  | some r => exact State.Kept.partReport h.setPhysCore

theorem columnTestDone {found : BitVec 34} (h : s.Kept ok b i) : HoldsAfter (State.Kept · ok b i) (execColumnTestDone cid found s) := by
  unfold execColumnTestDone
  split
  · exact trivial
  · split
    · exact h
    · extract_lets off' s1 cols
      have h1 : s1.Kept ok b i := h.modCore fun _ hc => hc
      clear_value s1
      split
      · exact h1.partReport
      · exact State.Kept.foldl (fun _ _ hs => hs.failColumn) _ h1

theorem bridgeLinkFailure {edge : BitVec 2} {link : BitVec 6} (h : s.Kept ok b i) : HoldsAfter (State.Kept · ok b i) (execBridgeLinkFailure field edge link s) := by
  unfold execBridgeLinkFailure
  split
  · exact h
  · dsimp only
    split
    · exact h
    · next e _ _ =>
      have hedge : State.Kept { s with edges := AMap.put {} s.edges e ((AMap.get {} s.edges e).fail link.toNat).1 } ok b i := h
      generalize ({ s with edges := AMap.put {} s.edges e ((AMap.get {} s.edges e).fail link.toNat).1 } : State) = u at hedge ⊢
      split
      · exact hedge.partReport
      · split
        · exact State.Kept.ite hedge.partReport hedge.partReport
        · refine State.Kept.foldl (fun v _ hv => ?_) _ hedge
          refine State.Kept.ite hv.stopBetween (State.Kept.ite (State.Kept.takeRemaps ?_) ?_)
          · exact State.Kept.ite hv.partReport hv.partReport
          · exact State.Kept.ite hv.partReport hv.partReport

/-! ### Images, lasers and the lock-step partner -/

theorem imageReload {object : BitVec 4} {block : BitVec 12} {copyBad hub : Bool} {k : CoreState} {key : Nat} (hk : ok → k.memOk) (h : s.Kept ok b i) : (execImageScrubPass.reload cid object block copyBad s k key hub).Kept ok b i := by
  unfold execImageScrubPass.reload
  have hset : (s.setCore cid { k with tables.passesSinceReload := AMap.set k.tables.passesSinceReload key 0 }).Kept ok b i := h.setCore hk
  exact State.Kept.ite hset.partReport.partReport hset.partReport

theorem imageScrubPass {object : BitVec 4} {block : BitVec 12} {mismatch copyBad : Bool} (h : s.Kept ok b i) : HoldsAfter (State.Kept · ok b i) (execImageScrubPass cid object block mismatch copyBad s) := by
  have hcore (ho : ok) := h.core_memOk (c := cid) ho
  unfold execImageScrubPass
  dsimp only
  split
  · exact trivial
  · split
    · exact h.setCore hcore
    · split
      · split
        · exact h.failCore
        · exact h.imageReload hcore
      · exact h.imageReload hcore

theorem laserAgeing {port : PortId} (h : s.Kept ok b i) : HoldsAfter (State.Kept · ok b i) (execLaserAgeing port s) :=
  State.Kept.foldl (fun _ _ hs => by exact State.Kept.ite (State.Kept.logReport hs.setPort) hs.setPort) _ h

theorem lockstepDigestReceived {x : LockstepExchange} (h : s.Kept ok b i) : HoldsAfter (State.Kept · ok b i) (execLockstepDigestReceived fn x s) := by
  unfold execLockstepDigestReceived
  have hpart : (s.modPlot fn (fun p => { p with step.partner := some x })).Kept ok b i := h.modPlot fun _ => rfl
  generalize s.modPlot fn (fun p => { p with step.partner := some x }) = u at hpart ⊢
  dsimp only
  split
  · exact h
  · split
    · exact hpart.compare
    · split
      · split
        · exact hpart.divergeHere
        · exact hpart.meetPartner.releaseHeld
      · exact hpart

/-! ### Ends of clearing, saving and restoring -/

theorem preemptSaveDone (h : s.Kept ok b i) : HoldsAfter (State.Kept · ok b i) (execPreemptSaveDone fn s) := by
  unfold execPreemptSaveDone
  dsimp only
  split
  · exact h
  · exact h.leaveCores.modPlot fun _ => rfl

theorem resumeRestoreDone (h : s.Kept ok b i) : HoldsAfter (State.Kept · ok b i) (execResumeRestoreDone fn s) := by
  unfold execResumeRestoreDone
  dsimp only
  split
  · exact h
  · refine State.Kept.reclaim (State.Kept.setPlot (State.Kept.foldl_mem _ (fun u k hk hu => ?_) h) fun _ _ hk => absurd hk List.not_mem_nil)
    split
    · exact hu.setCore fun ho => ⟨h.saved_memOk ho k hk, h.saved_memOk ho k hk⟩
    · exact hu

theorem coreClearDone (h : s.Kept ok b i) : HoldsAfter (State.Kept · ok b i) (execCoreClearDone cid s) := by
  unfold execCoreClearDone
  split
  · exact trivial
  · exact h.modCore fun _ hc => hc

theorem channelZeroDone (h : s.Kept ok b i) : HoldsAfter (State.Kept · ok b i) (execChannelZeroDone ch s) := channelCommand (State.Kept.ite (h.setChannel fun _ => rfl) h)

/-! ### Rings -/

theorem ignoreWrite (h : s.Kept ok b i) : (s.ignoreWrite fn n).Kept ok b i := h.modPlot fun _ => rfl

theorem writeRing {completion : Bool} {f : Ring → Option Ring} (h : s.Kept ok b i) : (s.writeRing fn completion n f).Kept ok b i := by
  unfold State.writeRing
  dsimp only
  split
  · exact h.ignoreWrite
  · refine h.setPlotOf ?_
    split <;> rfl

theorem ringCtl {completion : Bool} (h : s.Kept ok b i) : (s.ringCtl fn completion w).Kept ok b i := h.writeRing

theorem ringEnable {completion : Bool} (h : s.Kept ok b i) : HoldsAfter (State.Kept · ok b i) (execRingEnable fn completion w s) := h.ringCtl

theorem ringDisable {completion : Bool} (h : s.Kept ok b i) : HoldsAfter (State.Kept · ok b i) (execRingDisable fn completion w s) := h.ringCtl

theorem sqtailDoorbell {tail : BitVec 32} (h : s.Kept ok b i) : HoldsAfter (State.Kept · ok b i) (execSqtailDoorbell fn tail s) := h.writeRing

theorem cqheadWrite {head : BitVec 32} (h : s.Kept ok b i) : HoldsAfter (State.Kept · ok b i) (execCqheadWrite fn head s) := h.writeRing

theorem sqReadResume (h : s.Kept ok b i) : HoldsAfter (State.Kept · ok b i) (execSqReadResume fn s) := h.modPlot fun _ => rfl

theorem signal_saved (p : Plot) (n : Nat) (irq : Bool) : (p.signal n irq).moving.saved = p.moving.saved := by
  unfold Plot.signal
  dsimp only
  split <;> rfl

theorem emit_saved (p : Plot) (d : DevPacket) : (p.emit d).moving.saved = p.moving.saved := signal_saved _ _ _

theorem devicePacketWrite (h : s.Kept ok b i) : HoldsAfter (State.Kept · ok b i) (execDevicePacketWrite fn s) := by
  unfold execDevicePacketWrite
  split
  · exact h
  · split
    · exact h
    · extract_lets s1 s2
      have h1 : s1.Kept ok b i := by
        refine h.modPlot fun p => (emit_saved _ _).trans ?_
        split <;> rfl
      exact State.Kept.easeHolds (State.Kept.ite (h1.modHub fun _ => ⟨rfl, rfl, rfl⟩) h1)

theorem recordDelivery (h : s.Kept ok b i) : HoldsAfter (State.Kept · ok b i) (execRecordDelivery s) := by
  unfold execRecordDelivery
  split
  · exact h
  · split
    · exact h
    · exact State.Kept.easeHolds (State.Kept.modPlot (h.modHub fun _ => ⟨rfl, rfl, rfl⟩) fun _ => emit_saved _ _)

theorem irqHoldoffExpiry (h : s.Kept ok b i) : HoldsAfter (State.Kept · ok b i) (execIrqHoldoffExpiry fn s) := by
  refine h.modPlot fun p => ?_
  split <;> rfl

theorem dmaError {completion : Bool} (h : s.Kept ok b i) : HoldsAfter (State.Kept · ok b i) (execDmaError fn completion s) := by
  refine h.modPlot fun p => (congrArg Moving.saved (vector2_saved _)).trans ?_
  split <;> rfl

theorem pcieLinkDown (h : s.Kept ok b i) : HoldsAfter (State.Kept · ok b i) (execPcieLinkDown s) := h.modHub fun _ => ⟨rfl, rfl, rfl⟩

theorem pcieLinkRetrain (h : s.Kept ok b i) : HoldsAfter (State.Kept · ok b i) (execPcieLinkRetrain s) := h.modHub fun _ => ⟨rfl, rfl, rfl⟩

theorem flrOne (h : s.Kept ok b i) : (s.flrOne fn).Kept ok b i := State.Kept.modHub (h.setPlotOf rfl) fun _ => ⟨rfl, rfl, rfl⟩

theorem flrAll (h : s.Kept ok b i) : s.flrAll.Kept ok b i := State.Kept.foldl (fun _ _ hs => hs.flrOne) _ h

theorem flr (h : s.Kept ok b i) : HoldsAfter (State.Kept · ok b i) (execFlr fn s) := State.Kept.ite h.flrAll h.flrOne

theorem perstNDeassert (h : s.Kept ok b i) : HoldsAfter (State.Kept · ok b i) (execPerstNDeassert s) := h.modHub fun _ => ⟨rfl, rfl, rfl⟩

/-! ### Mailboxes -/

theorem answer_saved (p : Plot) (w : Word) : (p.answer w).moving.saved = p.moving.saved := by
  unfold Plot.answer
  split <;> rfl

theorem drainNow (h : s.Kept ok b i) : (s.drainNow fn).Kept ok b i := by
  unfold State.drainNow
  exact State.Kept.ite (h.setPlotOf (answer_saved _ _)) h

theorem mailCommand (h : s.Kept ok b i) : (s.mailCommand fn w).Kept ok b i := by
  unfold State.mailCommand
  dsimp only
  refine State.Kept.ite h.ignoreWrite ?_
  split
  · exact h.setPlotOf (answer_saved _ _)
  · exact h.setPlotOf (answer_saved _ _)
  · exact State.Kept.drainNow (h.setPlotOf rfl)
  · exact h.setPlotOf (answer_saved _ _)

theorem ping {arg : BitVec 56} (h : s.Kept ok b i) : HoldsAfter (State.Kept · ok b i) (execPing fn arg s) := h.mailCommand

theorem status {arg : BitVec 56} (h : s.Kept ok b i) : HoldsAfter (State.Kept · ok b i) (execStatus fn arg s) := h.mailCommand

theorem drain {arg : BitVec 56} (h : s.Kept ok b i) : HoldsAfter (State.Kept · ok b i) (execDrain fn arg s) := h.mailCommand

theorem drainComplete (h : s.Kept ok b i) : HoldsAfter (State.Kept · ok b i) (execDrainComplete fn s) := h.drainNow

theorem readMbox (h : s.Kept ok b i) : (s.readMbox fn).Kept ok b i := by
  unfold State.readMbox
  refine State.Kept.setPlotOf (s := s.modHub _) (h.modHub fun _ => ⟨rfl, rfl, rfl⟩) ?_
  dsimp only
  split
  · rfl
  · exact answer_saved _ _

theorem mboxfromRead (h : s.Kept ok b i) : HoldsAfter (State.Kept · ok b i) (execMboxfromRead fn s) := h.readMbox

end State.Kept

theorem State.MemOk.perstN {s : State} (h : s.MemOk) : HoldsAfter State.MemOk (execPerstN s) := by
  unfold execPerstN
  have hreset : (s.modHub (fun h => { h with pins.perstN := false, pins.pcieUp := false })).MemOk := h
  generalize s.modHub (fun h => { h with pins.perstN := false, pins.pcieUp := false }) = u at hreset ⊢
  show State.MemOk (if _ then _ else _)
  split
  · exact hreset.kept.flrAll.memOk.modHub hreset.kept.flrAll.memOk.2.2.1
  · exact hreset

end Sys2Proof.Machine
end

section
/-! Registers and start-up keep the module's memories. -/

namespace Sys2Proof.Machine

namespace State.Kept

variable {s t : State} {ok : Prop} {b : Boot} {i : BitVec 48} {cid : CoreId} {ch : ChanId} {fn : Fn} {code : Code} {d0 d1 d2 w v : Word} {f : FieldId} {dh n off : Nat} {addr : RegAddr}

/-! ### Reads -/

theorem clearFunction (h : s.Kept ok b i) : (s.clearFunction fn off).Kept ok b i := by
  unfold State.clearFunction
  split
  · exact h.modPlot fun _ => rfl
  · exact h.readMbox
  · exact h.modPlot fun _ => rfl
  · exact h.modPlot fun _ => rfl
  · exact h.modPlot fun _ => rfl
  · exact h.modPlot fun _ => rfl
  · exact h

theorem clearReg_memOk {c : CoreState} (h : c.memOk) : (c.clearReg off).memOk := by
  unfold CoreState.clearReg
  split <;> exact h

theorem clearModule (h : s.Kept ok b i) : (s.clearModule off).Kept ok b i := by
  unfold State.clearModule
  refine State.Kept.ite h.setPort (State.Kept.ite (h.setChannel h.channel_memOk) ?_)
  split
  · exact h.clearFunction
  · exact h

theorem clearRead (h : s.Kept ok b i) : (s.clearRead fn addr).Kept ok b i := by
  unfold State.clearRead
  split
  · exact h.clearFunction
  · split
    · exact h.modCore fun _ hc => clearReg_memOk hc
    · exact h
  · exact State.Kept.ite h.clearModule h

theorem readClear (h : s.Kept ok b i) : HoldsAfter (State.Kept · ok b i) (execReadClear fn addr s) := (h.clearRead (fn := fn) (addr := addr)).modHub fun _ => ⟨rfl, rfl, rfl⟩

/-! ### Writes -/

theorem writeBellctl (h : s.Kept ok b i) : (s.writeBellctl fn v).Kept ok b i := State.Kept.ite h.ignoreWrite (h.modPlot fun _ => rfl)

theorem bellctlWrite (h : s.Kept ok b i) : HoldsAfter (State.Kept · ok b i) (execBellctlWrite fn v s) := h.writeBellctl

theorem writeRwl {l : List (RwlField × Nat)} (h : s.Kept ok b i) : (s.writeRwl fn off l).Kept ok b i := by
  unfold State.writeRwl
  exact State.Kept.ite h.ignoreWrite (h.setPlotOf rfl)

theorem writeRwlRegister {fields : List RwlField} {z : AccessSize} (h : s.Kept ok b i) : (s.writeRwlRegister fn off fields z w).Kept ok b i := by
  unfold State.writeRwlRegister
  split
  · exact h
  · exact h.writeRwl

theorem rwlFieldWrite {field : RwlField} (h : s.Kept ok b i) : HoldsAfter (State.Kept · ok b i) (execRwlFieldWrite fn field v s) := h.writeRwl

theorem beginDiag (h : s.Kept ok b i) : (s.beginDiag fn).Kept ok b i := State.Kept.modPlot (h.mapCores fun _ hc => hc) fun _ => rfl

theorem writeDiag (h : s.Kept ok b i) : (s.writeDiag fn v).Kept ok b i := by
  unfold State.writeDiag
  extract_lets p steps go _ s1
  have h1 : s1.Kept ok b i := h.setPlotOf rfl
  clear_value s1
  exact State.Kept.ite h.ignoreWrite (State.Kept.ite (State.Kept.beginDiag (h1.modPlot fun _ => rfl)) h1)

theorem diagGo (h : s.Kept ok b i) : HoldsAfter (State.Kept · ok b i) (execDiagGo fn v s) := h.writeDiag

theorem diagStep {fault : Option DiagFault} (h : s.Kept ok b i) : HoldsAfter (State.Kept · ok b i) (execDiagStep fn fault s) := by
  unfold execDiagStep
  extract_lets p given rs bad s1 left s2
  have h2 : s2.Kept ok b i := State.Kept.modPlot h.queueReports.restorePlot fun _ => rfl
  clear_value s2 left bad
  split
  · exact h
  · split
    · exact h
    · exact State.Kept.ite h2 h2.beginDiag

theorem writeFaultsum (h : s.Kept ok b i) : (s.writeFaultsum v).Kept ok b i := h.modHub fun _ => ⟨rfl, rfl, rfl⟩

theorem faultsumClear (h : s.Kept ok b i) : HoldsAfter (State.Kept · ok b i) (execFaultsumClear v s) := h.writeFaultsum

theorem writeIrqctl (h : s.Kept ok b i) : (s.writeIrqctl fn v).Kept ok b i := by
  unfold State.writeIrqctl
  exact State.Kept.ite h.ignoreWrite (h.setPlotOf rfl)

theorem writeFunction {z : AccessSize} (h : s.Kept ok b i) : (s.writeFunction fn off z v).Kept ok b i := by
  unfold State.writeFunction
  dsimp only
  generalize mergeAccess z _ v = m
  cases m with
  | none => exact h
  | some w =>
    dsimp only
    split
    · exact h.writeRing
    · exact h.ringCtl
    · exact h.writeRing
    · exact h.writeRing
    · exact h.ringCtl
    · exact h.writeRing
    · exact h.writeIrqctl
    · exact h.mailCommand
    · exact h.writeBellctl
    · exact h.writeRwlRegister
    · exact h.writeRwlRegister
    · exact h.writeRwlRegister
    · exact h.writeDiag
    · exact h

theorem registerWrite {size : AccessSize} (h : s.Kept ok b i) : HoldsAfter (State.Kept · ok b i) (execRegisterWrite fn addr size v s) := by
  unfold execRegisterWrite
  split
  · exact h.writeFunction
  · exact h
  · split
    · split
      · exact h.writeFaultsum
      · exact h
    · exact h

/-! ### The self-test -/

theorem testCore {row col : Nat} (h : s.Kept ok b i) : (s.testCore f row col).Kept ok b i := by
  unfold State.testCore
  dsimp only
  exact State.Kept.ite h (State.Kept.ite (State.Kept.logReport h.setField) (State.Kept.logReport h.setField))

theorem testColumn {col : Nat} (h : s.Kept ok b i) : (s.testColumn cid col).Kept ok b i := by
  unfold State.testColumn
  dsimp only
  refine State.Kept.ite h (State.Kept.ite ?_ (State.Kept.logReport h.setPhysCore))
  split
  · exact h.testCore
  · exact State.Kept.logReport h.setPhysCore

/-- A change of the bridge links is none of a memory. -/
theorem withEdges {e : AMap Edge} (h : s.Kept ok b i) : ({ s with edges := e } : State).Kept ok b i := h

theorem testFinding {x : TestFinding} (h : s.Kept ok b i) : (s.testFinding x).Kept ok b i := by
  cases x with
  | core f row col => exact h.testCore
  | column c col => exact State.Kept.ite h.testColumn h
  | bridge e link => exact State.Kept.ite h h.withEdges.logReport
  | channel c => exact State.Kept.ite h (State.Kept.logReport (h.setChannel h.channel_memOk))

end State.Kept

/-! ### Start-up -/

namespace State.MemOk

variable {s : State} {dh : Nat}

/-- A change of the hub die that leaves the flash alone. -/
theorem hubOf {g : Hub} (h : s.MemOk) (hflash : g.flash.mem = s.hub.flash.mem) : State.MemOk { s with hub := g } := by
  obtain ⟨hcores, hchannels, hmem, hplots⟩ := h
  exact ⟨hcores, hchannels, by rw [show ({ s with hub := g } : State).hub.flash.mem = s.hub.flash.mem from hflash]; exact hmem, hplots⟩

theorem logReport {code : Code} {d0 d1 d2 : Word} (h : s.MemOk) : (s.logReport code d0 d1 d2).MemOk := h.kept.logReport.memOk

theorem powerLost (h : s.MemOk) : s.powerLost.MemOk := ⟨fun _ he => absurd he List.not_mem_nil, fun _ he => absurd he List.not_mem_nil, h.2.2.1, fun _ he => absurd he List.not_mem_nil⟩

theorem pwrOkFall (h : s.MemOk) : HoldsAfter State.MemOk (execPwrOkFall s) := by
  unfold execPwrOkFall
  split
  · exact h
  · exact h.powerLost.hubOf rfl

theorem pwrOkRise (h : s.MemOk) : HoldsAfter State.MemOk (execPwrOkRise s) := by
  unfold execPwrOkRise
  split
  · exact h
  · exact h

theorem tripped {f : Battery → Battery} (h : s.MemOk) : (s.tripped f).MemOk := h.powerLost.hubOf rfl

theorem railTrip {rail : BitVec 4} (h : s.MemOk) : HoldsAfter State.MemOk (execRailTrip rail s) := by
  unfold execRailTrip
  split
  · exact h
  · exact h.tripped

theorem thermtrip {sensor : Nat} (h : s.MemOk) : HoldsAfter State.MemOk (execThermtrip sensor s) := by
  unfold execThermtrip
  split
  · exact h
  · exact h.tripped.hubOf rfl

theorem vbatLoss (h : s.MemOk) : HoldsAfter State.MemOk (execVbatLoss s) := h

theorem vbatApplied (h : s.MemOk) : HoldsAfter State.MemOk (execVbatApplied s) := by
  show State.MemOk (if _ then _ else _)
  split
  · exact h
  · exact h

theorem calendarEnd (h : s.MemOk) : HoldsAfter State.MemOk (execCalendarEnd dh s) := h.kept.advance.memOk

theorem resetPhaseDone (h : s.MemOk) : HoldsAfter State.MemOk (execResetPhaseDone s) := by
  unfold execResetPhaseDone
  split
  · exact h
  · exact h

theorem hubTestDone {pass : Bool} (h : s.MemOk) : HoldsAfter State.MemOk (execHubTestDone pass s) := by
  unfold execHubTestDone
  split
  · exact h
  · cases pass
    · exact h
    · exact h

theorem keysDone (h : s.MemOk) : HoldsAfter State.MemOk (execKeysDone s) := by
  unfold execKeysDone
  split
  · exact h
  · exact h

theorem readHeader (h : s.MemOk) : s.readHeader.MemOk := by
  unfold State.readHeader
  dsimp only
  split
  · exact logReport (s := s.modHub _) h
  · refine State.MemOk.modHub h ?_
    exact h.2.2.1

theorem readConfig (h : s.MemOk) : s.readConfig.MemOk := by
  unfold State.readConfig
  dsimp only
  split
  · exact logReport (s := s.modHub _) h
  · refine State.MemOk.modHub h ?_
    exact h.2.2.1

theorem flashPhaseDone (h : s.MemOk) : HoldsAfter State.MemOk (execFlashPhaseDone s) := by
  unfold execFlashPhaseDone
  split
  · exact h
  · have hread := h.readHeader.readConfig
    generalize s.readHeader.readConfig = u at hread ⊢
    exact hread.hubOf rfl

theorem beginTest (h : s.MemOk) : s.beginTest.MemOk := by
  refine ⟨h.1, fun e he => ?_, h.2.2⟩
  obtain ⟨c, -, rfl⟩ := List.mem_map.1 he
  rfl

theorem fieldTestDone {l : List TestFinding} (h : s.MemOk) : HoldsAfter State.MemOk (execFieldTestDone l s) := by
  unfold execFieldTestDone
  split
  · exact h
  · exact (State.Kept.foldl (fun _ _ hs => hs.testFinding) l h.beginTest.kept).memOk.hubOf rfl

theorem loadPhaseDone (h : s.MemOk) : HoldsAfter State.MemOk (execLoadPhaseDone s) := by
  unfold execLoadPhaseDone
  split
  · exact h
  · refine (h.loadStarts (count := true)).hubOf ?_
    dsimp only
    split <;> rfl

theorem loadedNRise (h : s.MemOk) : HoldsAfter State.MemOk (execLoadedNRise dh s) := by
  unfold execLoadedNRise
  have hnow : (s.advance dh).MemOk := h.kept.advance.memOk
  generalize s.advance dh = u at hnow ⊢
  have hrise : (u.modHub (fun h => { h with boot.line := true, boot.risen := true })).MemOk := hnow
  dsimp only
  generalize u.modHub (fun h => { h with boot.line := true, boot.risen := true }) = v at hrise ⊢
  split
  · exact hnow
  · split
    · exact hrise
    · exact hrise.kept.withSystem.sendAll.memOk

theorem loadedNFall (h : s.MemOk) : HoldsAfter State.MemOk (execLoadedNFall s) := by
  show State.MemOk (if _ then _ else _)
  split
  · exact h
  · exact h

theorem bellZero (h : s.MemOk) : HoldsAfter State.MemOk (execBellZero dh s) := by
  unfold execBellZero
  have hnow : (s.advance dh).MemOk := h.kept.advance.memOk
  generalize s.advance dh = u at hnow ⊢
  extract_lets _ _ v u0
  have hzero : u0.MemOk := hnow
  clear_value u0
  split
  · exact hnow
  · exact (State.Kept.foldl (fun _ _ hs => hs.emptyBell) _ hzero.kept).takeIdle.memOk

end State.MemOk

end Sys2Proof.Machine
end

section
/-! Optical links, supply, temperature, the debug port, the management bus and host packets keep the module's memories. -/

namespace Sys2Proof.Machine

namespace State.Kept

variable {s t : State} {ok : Prop} {b : Boot} {i : BitVec 48} {cid gate : CoreId} {fn : Fn} {code : Code} {d0 d1 d2 w v : Word} {field : FieldId} {dh n periods : Nat} {port : PortId} {lane : BitVec 4} {seq : BitVec 12} {g : BitVec 8}

/-! ### Lanes and ports -/

theorem setLane {l : Lane} (h : s.Kept ok b i) : (s.setLane port lane l).Kept ok b i := h

theorem laneCommand {act : Port → Lane → State} (hact : ∀ p l, (act p l).Kept ok b i) : HoldsAfter (State.Kept · ok b i) (Machine.laneCommand s port lane act) := by
  unfold Machine.laneCommand
  split
  · exact trivial
  · exact hact _ _

theorem codewordReceived {errors : Nat} (h : s.Kept ok b i) : HoldsAfter (State.Kept · ok b i) (execCodewordReceived port lane seq errors s) := laneCommand fun _ _ => State.Kept.ite h.setLane h.setLane

theorem linkStop (h : s.Kept ok b i) : (s.linkStop fn d0 d1).Kept ok b i := by
  have htold : (s.modPlot fn (fun p => p.hubReport fn 0x3006 s.stamp d0 d1 0)).Kept ok b i := h.modPlot fun _ => rfl
  unfold State.linkStop
  dsimp only
  exact State.Kept.ite h (State.Kept.ite htold.judge (State.Kept.ite htold h.stopBetween))

theorem lockStop (h : s.Kept ok b i) : (s.lockStop fn).Kept ok b i := State.Kept.ite h.lockDown (State.Kept.ite h.meetPartner h)

theorem opticalDown (h : s.Kept ok b i) : (s.opticalDown port).Kept ok b i := by
  unfold State.opticalDown
  extract_lets p users lock s1
  have h1 : s1.Kept ok b i := h.setPort
  clear_value s1
  exact State.Kept.ite (State.Kept.foldl (fun _ _ hs => hs.lockStop) _ h1.logReport) (State.Kept.ite h1.logReport (State.Kept.foldl (fun _ _ hs => hs.linkStop) _ h1))

theorem opticalLinkDown (h : s.Kept ok b i) : HoldsAfter (State.Kept · ok b i) (execOpticalLinkDown port s) := h.opticalDown

theorem nakReceived {replayed : Nat} (h : s.Kept ok b i) : HoldsAfter (State.Kept · ok b i) (execNakReceived port lane seq replayed s) :=
  laneCommand fun _ _ => State.Kept.ite (State.Kept.ite h.setLane.opticalDown h.setLane.setPort) h.setLane

theorem ackReceived (h : s.Kept ok b i) : HoldsAfter (State.Kept · ok b i) (execAckReceived port lane seq s) := laneCommand fun _ _ => h.setLane

theorem spareLaneTrained {good : Bool} (h : s.Kept ok b i) : HoldsAfter (State.Kept · ok b i) (execSpareLaneTrained port good s) := by
  unfold execSpareLaneTrained
  dsimp only
  split
  · exact h
  · exact State.Kept.ite h.setPort h.opticalDown

theorem classify (h : s.Kept ok b i) : (s.classify port).Kept ok b i := by
  unfold State.classify
  exact State.Kept.ite h (State.Kept.ite (State.Kept.logReport h.setPort) h.setPort)

theorem linkTraining {r : TrainResult} (h : s.Kept ok b i) : HoldsAfter (State.Kept · ok b i) (execLinkTraining port r s) := by
  unfold execLinkTraining
  extract_lets p lanes q s1
  have h1 : s1.Kept ok b i := h.setPort
  clear_value s1
  split
  · exact h.setPort
  · split
    · exact h.setPort
    · split
      · exact h1
      · exact State.Kept.ite h1.classify.sendWord h1.classify

/-! ### Bell words -/

theorem bellFrameReceived {crc : Bool} (h : s.Kept ok b i) : HoldsAfter (State.Kept · ok b i) (execBellFrameReceived port w crc s) := State.Kept.ite h.setPort h

theorem wordCommand {kind : Nat} {act : State → State} (h : s.Kept ok b i) (hact : ∀ u : State, u.Kept ok b i → (act u).Kept ok b i) : HoldsAfter (State.Kept · ok b i) (Machine.wordCommand s port w kind act) := by
  unfold Machine.wordCommand
  dsimp only
  split
  · exact h
  · exact hact _ h.setPort

theorem sync {correction : Int} (h : s.Kept ok b i) : HoldsAfter (State.Kept · ok b i) (execSync port w correction s) :=
  h.wordCommand fun _ hu => State.Kept.ite hu.withSystem.setPort (State.Kept.ite hu.sendWord hu)

theorem arrive (h : s.Kept ok b i) : HoldsAfter (State.Kept · ok b i) (execArrive port w s) := h.wordCommand fun _ hu => hu.withSystem.afterArrival

theorem edge (h : s.Kept ok b i) : HoldsAfter (State.Kept · ok b i) (execEdge port w s) := h.wordCommand fun _ hu => State.Kept.ite hu.groupEdge hu.sendWord

theorem ringWord (h : s.Kept ok b i) : HoldsAfter (State.Kept · ok b i) (execRing port w s) := by
  refine h.wordCommand fun u hu => ?_
  dsimp only
  refine State.Kept.ite (State.Kept.sendAll (State.Kept.ite hu hu.withSystem)) ?_
  have hdown : (u.sendDown (wordGroup w) w).Kept ok b i := hu.sendDown
  generalize u.sendDown (wordGroup w) w = x at hdown ⊢
  split
  · exact hdown.withSystem
  · exact hdown.withSystem.modPlot fun _ => rfl

theorem haltPlot (h : s.Kept ok b i) : (s.haltPlot fn).Kept ok b i := State.Kept.ite h.abandonRetry h

theorem spread (h : s.Kept ok b i) : (s.spread port w).Kept ok b i := State.Kept.ite h.sendDown h.sendWord

theorem halt (h : s.Kept ok b i) : HoldsAfter (State.Kept · ok b i) (execHalt port w s) := by
  refine h.wordCommand fun u hu => ?_
  dsimp only
  split
  · exact State.Kept.ite hu.spread.haltPlot hu.spread
  · exact hu.spread

theorem stopMember (h : s.Kept ok b i) : (s.stopMember fn n).Kept ok b i := by
  unfold State.stopMember
  extract_lets p c s1 rs evs s2 s3
  have h1 : s1.Kept ok b i := h.modHub fun _ => ⟨rfl, rfl, rfl⟩
  clear_value s1
  have h2 : s2.Kept ok b i := h1.queueReports.restorePlot
  clear_value s2
  have h3 : s3.Kept ok b i := h2.modPlot fun _ => rfl
  clear_value s3
  exact State.Kept.ite h (State.Kept.ite (State.Kept.stopNow (State.Kept.ite h3.addBlock h3)) h1.closeBetween.stopNow)

theorem stopWord (h : s.Kept ok b i) : HoldsAfter (State.Kept · ok b i) (execStop port w s) := by
  refine h.wordCommand fun u hu => ?_
  dsimp only
  split
  · exact State.Kept.ite hu.spread.stopMember hu.spread
  · exact hu.spread

theorem control (h : s.Kept ok b i) : HoldsAfter (State.Kept · ok b i) (execControl port w s) := by
  refine h.wordCommand fun u hu => ?_
  dsimp only
  refine State.Kept.ite (State.Kept.ite hu.withSystem.sendWord (State.Kept.ite hu.withSystem.sendDown hu)) ?_
  have hdown : (u.sendDown (wordGroup w) w).Kept ok b i := hu.sendDown
  exact State.Kept.ite hdown.withSystem hdown

/-! ### Joins and the group bell -/

theorem joinConfirmed (h : s.Kept ok b i) : HoldsAfter (State.Kept · ok b i) (execJoinConfirmed g s) := by
  unfold execJoinConfirmed
  extract_lets js s1
  have h1 : s1.Kept ok b i := State.Kept.foldl (fun _ _ hs => by exact hs.modPlot fun _ => rfl) _ h
  clear_value s1
  split
  · exact h
  · exact State.Kept.ite h1.fixEpoch h1

theorem joinTimeout (h : s.Kept ok b i) : HoldsAfter (State.Kept · ok b i) (execJoinTimeout g s) := by
  refine State.Kept.foldl (fun u fn hu => ?_) _ h.withSystem
  split
  · exact State.Kept.refuse (hu.modPlot fun _ => rfl)
  · exact hu

theorem bellEpoch (h : s.Kept ok b i) : HoldsAfter (State.Kept · ok b i) (execBellEpoch fn dh s) := by
  unfold execBellEpoch
  have hnow : (s.advance dh).Kept ok b i := h.advance
  generalize s.advance dh = u at hnow ⊢
  dsimp only
  split
  · exact hnow
  · split
    · exact hnow
    · split
      · exact State.Kept.complete (hnow.setPlotOf rfl)
      · split
        · exact State.Kept.emptyBell (hnow.withSystem.modPlot fun _ => rfl)
        · split
          · exact State.Kept.ringWith (fun p => epochEvents_saved p _ _ _ _) (hnow.modHub fun _ => ⟨rfl, rfl, rfl⟩)
          · exact hnow

/-! ### Flits between modules -/

theorem transitFlit (h : s.Kept ok b i) : HoldsAfter (State.Kept · ok b i) (execTransitFlit n s) := h.flitCommand fun _ => State.Kept.ite h.dropFlit h

theorem endGateStall (h : s.Kept ok b i) : (s.endGateStall gate port periods).Kept ok b i := by
  unfold State.endGateStall
  split
  · exact h
  · exact State.Kept.ite h (State.Kept.setPort (h.modPlot fun _ => rfl))

theorem gateRelease (h : s.Kept ok b i) : HoldsAfter (State.Kept · ok b i) (execGateRelease gate n periods s) := by
  unfold execGateRelease
  split
  · exact trivial
  · split
    · generalize (s.core gate).owner = owner
      cases owner with
      | none => exact h
      | some fn => exact h.stallGate
    · split
      · split
        · exact h
        · refine State.Kept.ite h.endGateStall.withSystem.setFlit (State.Kept.modCore h.endGateStall.withSystem.setFlit fun c hc => collision_memOk ?_)
          exact hc
      · exact h

theorem creditReturn (h : s.Kept ok b i) : HoldsAfter (State.Kept · ok b i) (execCreditReturn gate n periods s) := by
  unfold execCreditReturn
  split
  · exact trivial
  · exact h.withSystem.endGateStall

/-! ### Temperature and power -/

theorem sampleField {x : ThermalReading} (h : s.Kept ok b i) : (s.sampleField x field).Kept ok b i := by
  unfold State.sampleField
  exact State.Kept.setCeiling (s := { s.setField field _ with fieldHold := _ }) h

theorem sampleOptic {x : Nat × Nat} (h : s.Kept ok b i) : (s.sampleOptic x).Kept ok b i := by
  unfold State.sampleOptic
  extract_lets s1
  have h1 : s1.Kept ok b i := State.Kept.ite (State.Kept.logReport (h.modHub fun _ => ⟨rfl, rfl, rfl⟩)) h
  clear_value s1
  exact State.Kept.ite h1.opticalDown h1

theorem thermalSample {x : ThermalReading} (h : s.Kept ok b i) : HoldsAfter (State.Kept · ok b i) (execThermalSample x s) :=
  State.Kept.foldl (fun _ _ hs => hs.sampleOptic) _ (State.Kept.modHub (State.Kept.foldl (fun _ _ hs => hs.sampleField) allFields h) fun _ => ⟨rfl, rfl, rfl⟩)

/-- A change of the holds of the fields is none of a memory. -/
theorem withHolds {m : AMap FieldHold} (h : s.Kept ok b i) : ({ s with fieldHold := m } : State).Kept ok b i := h

theorem thermal (h : s.Kept ok b i) : HoldsAfter (State.Kept · ok b i) (execThermal field s) := by
  unfold execThermal
  dsimp only
  split
  · exact h
  · refine State.Kept.foldl (fun u fn hu => State.Kept.plotReport (hu.modPlot fun p => ?_)) _ h.withHolds
    split <;> rfl

theorem thermalHoldEnd (h : s.Kept ok b i) : HoldsAfter (State.Kept · ok b i) (execThermalHoldEnd field s) := by
  unfold execThermalHoldEnd
  dsimp only
  split
  · exact h
  · exact State.Kept.foldl (fun _ _ hs => by exact State.Kept.ite (State.Kept.releaseHeld (hs.setPlotOf rfl)) hs) _ h.withHolds

theorem powerLimits {f : Field → Nat} (h : s.Kept ok b i) : (s.powerLimits f).Kept ok b i := State.Kept.foldl (fun _ _ hs => State.Kept.setCeiling hs.setField) allFields h

theorem powerSample {watts amps : Nat} (h : s.Kept ok b i) : HoldsAfter (State.Kept · ok b i) (execPowerSample watts amps s) := by
  unfold execPowerSample
  extract_lets samples mean env high low below s1
  have h1 : s1.Kept ok b i := h.modHub fun _ => ⟨rfl, rfl, rfl⟩
  clear_value s1
  exact State.Kept.ite h1.powerLimits (State.Kept.ite h1.powerLimits h1)

/-! ### The debug port and the management bus -/

theorem jtagInstruction {ins : JtagInstr} (h : s.Kept ok b i) : HoldsAfter (State.Kept · ok b i) (execJtagInstruction ins s) :=
  State.Kept.ite (h.modHub fun _ => ⟨rfl, rfl, rfl⟩) (State.Kept.logReport (h.modHub fun _ => ⟨rfl, rfl, rfl⟩))

theorem debugUnlock {level : BitVec 8} {key signature : Nat} (h : s.Kept ok b i) : HoldsAfter (State.Kept · ok b i) (execDebugUnlock level key signature s) := by
  unfold execDebugUnlock
  extract_lets d good s1 s2
  have h1 : s1.Kept ok b i := h.modHub fun _ => ⟨rfl, rfl, rfl⟩
  clear_value s1 good
  have h2 : s2.Kept ok b i := h1.modHub fun _ => ⟨rfl, rfl, rfl⟩
  clear_value s2
  split
  · exact h1.modHub fun _ => ⟨rfl, rfl, rfl⟩
  · exact State.Kept.ite (h2.modHub fun _ => ⟨rfl, rfl, rfl⟩) h2

theorem i3cDynamicAddress {a : BitVec 7} (h : s.Kept ok b i) : HoldsAfter (State.Kept · ok b i) (execI3cDynamicAddress a s) := State.Kept.ite (h.modHub fun _ => ⟨rfl, rfl, rfl⟩) h

theorem i3cSetOffset {a : BitVec 32} (h : s.Kept ok b i) : HoldsAfter (State.Kept · ok b i) (execI3cSetOffset a s) := State.Kept.ite (h.modHub fun _ => ⟨rfl, rfl, rfl⟩) h

theorem busRead {len : Nat} (h : s.Kept ok b i) : (s.busRead len).Kept ok b i := by
  unfold State.busRead
  dsimp only
  refine State.Kept.modHub (State.Kept.foldl (fun _ _ hs => hs.clearModule) _ h) fun u => ?_
  split <;> exact ⟨rfl, rfl, rfl⟩

theorem i3cRead {len : Nat} (h : s.Kept ok b i) : HoldsAfter (State.Kept · ok b i) (execI3cRead len s) := State.Kept.ite h.busRead h

theorem i3cWrite {a : BitVec 32} {ws : List Word} (h : s.Kept ok b i) : HoldsAfter (State.Kept · ok b i) (execI3cWrite a ws s) := by
  unfold execI3cWrite
  split
  · exact h
  · exact State.Kept.foldl (fun _ _ hs => by exact State.Kept.ite hs.writeFaultsum hs) _ (h.modHub fun _ => ⟨rfl, rfl, rfl⟩)

theorem logportRead (h : s.Kept ok b i) : HoldsAfter (State.Kept · ok b i) (execLogportRead s) := State.Kept.ite (State.Kept.busRead (h.modHub fun _ => ⟨rfl, rfl, rfl⟩)) h

end State.Kept

/-! ### Commands that move the start-up on -/

namespace State.MemOk

variable {s : State}

theorem linksDone {r : LinksResult} (h : s.MemOk) : HoldsAfter State.MemOk (execLinksDone r s) := by
  unfold execLinksDone
  split
  · exact h
  · split
    · exact logReport (s := s.modHub _) h
    · extract_lets m _ s1 s2
      have h2 : s2.MemOk := h
      clear_value s2
      exact State.Kept.memOk (State.Kept.foldl (f := State.classify) (fun _ _ hs => hs.classify) ((List.range 16).map (BitVec.ofNat 4)) h2.kept)

theorem flashRun {p : PacketIn} (h : s.MemOk) : ∀ t, s.flashRun p = .ok t → t.MemOk := by
  have hflash : Memory.wf s.hub.flash.mem = true := h.2.2.1
  intro t ht
  unfold State.flashRun at ht
  dsimp only at ht
  split at ht
  · split at ht
    · cases ht
    · cases ht
      exact h.modHub (Flash.eraseRange_mem _ _ hflash)
  · cases ht
    exact h.modHub (Flash.program_mem _ _ hflash)
  · split at ht
    · cases ht
    · cases ht
      exact h.modHub (Flash.writeCatalogue_mem _ _ hflash)
  · cases ht
    exact h.modHub (Flash.writeCatalogue_mem _ _ hflash)
  · cases ht
    exact h.modHub (Flash.program_mem _ _ hflash)
  · cases ht
    exact h.modHub hflash
  · cases ht
    exact h.modHub hflash
  · cases ht
    exact h

theorem flashOpDone (h : s.MemOk) : HoldsAfter State.MemOk (execFlashOpDone s) := by
  unfold execFlashOpDone
  split
  · exact h
  · next o rest _ =>
    have hops : (s.modHub (fun h => { h with flash.ops := rest })).MemOk := h
    dsimp only
    generalize s.modHub (fun h => { h with flash.ops := rest }) = u at hops ⊢
    split
    · exact hops.kept.refuse.memOk
    · split
      · next t ht => exact (hops.flashRun t ht).kept.complete.memOk
      · exact hops.kept.refuse.memOk

end State.MemOk

end Sys2Proof.Machine
end

section
/-! The last steps of O6: every row of the table keeps the module's memories, and so does a step. -/

namespace Sys2Proof.Machine

/-- What is kept says in particular that the memories are in canonical form. -/
theorem HoldsAfter.memOk {b : Boot} {i : BitVec 48} {answer : Host.Outcome State Fault Refusal} (h : HoldsAfter (State.Kept · True b i) answer) : HoldsAfter State.MemOk answer := by
  cases answer with
  | next t => exact State.Kept.memOk h
  | _ => exact trivial

/-- Every row of the table keeps the memories: the slot rows as one, the packet rows as one, and each other row by its own lemma. -/
theorem exec_memOk (row : Instr) {s : State} (h : s.MemOk) : HoldsAfter State.MemOk (exec row s) := by
  cases hslot : Claims.slotIssue row with
  | some k => exact (h.kept.slotRow hslot).memOk
  | none =>
    cases row with
    | snop | sadd | saddi | smul | slogic | sshift | sminmax | scmp | ssel | slui | smovi | sfeat | amov | aadd | aget | lbegin | linc | snext | sown | vnop | vadd | vmul | vmulh
    | vshift | vlogic | vminmax | vcount | vcmp | vsel | vperm | vunpk | vpack | vlut | vmovi | vsplat | vget | mset | mlogic | mnop | mload | mstream | mtile | manchor | mread
    | mprobe | lnop | ldv | lds | ldvs | ldvg | snopst | stv | sts | stvs | stvg | synop | wait | test | tadd | sig | bar | post | select | release | cadd | cwait | cput | ctake
    | amsg => cases hslot
    | nop | state | request | fetch | steparg | runStart | runEnd | recordClose | loadImage | plotCreate | plotResize | plotPreempt | plotResume | plotReset | quota | budget
    | commonsAssign | commonsGrant | commonsRevoke | plotJoin | plotLeave | calendar | flashBegin | flashWrite | flashCommit | flashDelete | flashConfig | flashRaise
    | flashKeyload => exact h.kept.readPacket.memOk
    | loopEnd => exact h.kept.loopEnd.memOk
    | stopBundle => exact h.kept.stopBundle.memOk
    | mtilePass => exact h.kept.mtilePass.memOk
    | mstreamColumn => exact h.kept.mstreamColumn.memOk
    | contributionLands => exact h.kept.contributionLands.memOk
    | residueCheckEvent => exact h.kept.residueCheckEvent.memOk
    | columnTestDone => exact h.kept.columnTestDone.memOk
    | resultWriteLands => exact h.kept.resultWriteLands.memOk
    | storeWriteLands => exact h.kept.storeWriteLands.memOk
    | fillOpResumes => exact h.kept.fillOpResumes.memOk
    | patrolScrubRead => exact h.kept.patrolScrubRead.memOk
    | patrolScrubWriteback => exact h.kept.patrolScrubWriteback.memOk
    | signalLands => exact h.kept.signalLands.memOk
    | postedMessageLands => exact h.kept.postedMessageLands.memOk
    | granarySpill => exact h.kept.granarySpill.memOk
    | granaryDrainLands => exact h.kept.granaryDrainLands.memOk
    | postedFlitAdvance => exact h.kept.postedFlitAdvance.memOk
    | activeMessageArrives => exact h.kept.activeMessageArrives.memOk
    | handlerStart => exact h.kept.handlerStart.memOk
    | barrierCompletionLands => exact h.kept.barrierCompletionLands.memOk
    | orphanWait => exact h.kept.orphanWait.memOk
    | dozeEntry => exact h.kept.dozeEntry.memOk
    | lineFiring => exact h.kept.lineFiring.memOk
    | partialFiring => exact h.kept.partialFiring.memOk
    | landFiring => exact h.kept.landFiring.memOk
    | recvFiring => exact h.kept.recvFiring.memOk
    | bridgeFlitArrives => exact h.kept.bridgeFlitArrives.memOk
    | flitAdvance => exact h.kept.flitAdvance.memOk
    | scheduledFlitLands => exact h.kept.scheduledFlitLands.memOk
    | partialMergeLands => exact h.kept.partialMergeLands.memOk
    | dsReadFiring => exact h.kept.dsReadFiring.memOk
    | dsWriteFiring => exact h.kept.dsWriteFiring.memOk
    | dsGranaryFiring => exact h.kept.dsGranaryFiring.memOk
    | dsReadUnitLands => exact h.kept.dsReadUnitLands.memOk
    | dsWritePerformed => exact h.kept.dsWritePerformed.memOk
    | deepStall => exact h.kept.deepStall.memOk
    | deepStallEnd => exact h.kept.deepStallEnd.memOk
    | dsRefresh => exact h.kept.dsRefresh.memOk
    | dsScrub => exact h.kept.dsScrub.memOk
    | coreArrives => exact h.kept.coreArrives.memOk
    | fieldArrivalRegistered => exact h.kept.fieldArrivalRegistered.memOk
    | bellIntervalElapsed => exact h.kept.bellIntervalElapsed.memOk
    | bellInEdge => exact h.kept.bellInEdge.memOk
    | syncLate => exact h.kept.syncLate.memOk
    | bellRings => exact h.kept.bellRings.memOk
    | stepRelease => exact h.kept.stepRelease.memOk
    | stepLimit => exact h.kept.stepLimit.memOk
    | idleBell => exact h.idleBell
    | emptyBell => exact h.kept.emptyBellRow.memOk
    | droopTrip => exact h.kept.droopTrip.memOk
    | droopFloor => exact h.kept.droopFloor.memOk
    | droopCeilingRestore => exact h.kept.droopCeilingRestore.memOk
    | sysrefLoss => exact h.kept.sysrefLoss.memOk
    | sysrefRelock => exact h.kept.sysrefRelock.memOk
    | holdoverExpiry => exact h.kept.holdoverExpiry.memOk
    | pcieRefclkLoss => exact h.kept.pcieRefclkLoss.memOk
    | pcieRefclkRelock => exact h.kept.pcieRefclkRelock.memOk
    | stepAbandon => exact h.kept.stepAbandon.memOk
    | retryRelease => exact h.kept.retryRelease.memOk
    | coreLost c cause => exact (h.kept.coreLost (cause := cause)).memOk
    | powerDomainFault => exact h.kept.powerDomainFault.memOk
    | logicCheckEvent => exact h.kept.logicCheckEvent.memOk
    | bridgeLinkFailure => exact h.kept.bridgeLinkFailure.memOk
    | imageScrubPass => exact h.kept.imageScrubPass.memOk
    | laserAgeing => exact h.kept.laserAgeing.memOk
    | lockstepDigestReceived => exact h.kept.lockstepDigestReceived.memOk
    | recordDelivery => exact h.kept.recordDelivery.memOk
    | joinConfirmed => exact h.kept.joinConfirmed.memOk
    | joinTimeout => exact h.kept.joinTimeout.memOk
    | flashOpDone => exact h.flashOpDone
    | preemptSaveDone => exact h.kept.preemptSaveDone.memOk
    | resumeRestoreDone => exact h.kept.resumeRestoreDone.memOk
    | coreClearDone => exact h.kept.coreClearDone.memOk
    | channelZeroDone => exact h.kept.channelZeroDone.memOk
    | sqReadResume => exact h.kept.sqReadResume.memOk
    | devicePacketWrite => exact h.kept.devicePacketWrite.memOk
    | irqHoldoffExpiry => exact h.kept.irqHoldoffExpiry.memOk
    | dmaError => exact h.kept.dmaError.memOk
    | pcieLinkDown => exact h.kept.pcieLinkDown.memOk
    | pcieLinkRetrain => exact h.kept.pcieLinkRetrain.memOk
    | flr => exact h.kept.flr.memOk
    | perstN => exact h.perstN
    | sqtailDoorbell => exact h.kept.sqtailDoorbell.memOk
    | cqheadWrite => exact h.kept.cqheadWrite.memOk
    | ringEnable => exact h.kept.ringEnable.memOk
    | ringDisable => exact h.kept.ringDisable.memOk
    | bellctlWrite => exact h.kept.bellctlWrite.memOk
    | rwlFieldWrite => exact h.kept.rwlFieldWrite.memOk
    | diagGo => exact h.kept.diagGo.memOk
    | diagStep => exact h.kept.diagStep.memOk
    | faultsumClear => exact h.kept.faultsumClear.memOk
    | mboxfromRead => exact h.kept.mboxfromRead.memOk
    | readClear => exact h.kept.readClear.memOk
    | registerWrite => exact h.kept.registerWrite.memOk
    | ping => exact h.kept.ping.memOk
    | status => exact h.kept.status.memOk
    | drain => exact h.kept.drain.memOk
    | drainComplete => exact h.kept.drainComplete.memOk
    | pwrOkRise => exact h.pwrOkRise
    | pwrOkFall => exact h.pwrOkFall
    | resetPhaseDone => exact h.resetPhaseDone
    | hubTestDone => exact h.hubTestDone
    | keysDone => exact h.keysDone
    | flashPhaseDone => exact h.flashPhaseDone
    | fieldTestDone => exact h.fieldTestDone
    | linksDone => exact h.linksDone
    | loadPhaseDone => exact h.loadPhaseDone
    | loadedNRise => exact h.loadedNRise
    | bellZero => exact h.bellZero
    | codewordReceived => exact h.kept.codewordReceived.memOk
    | nakReceived => exact h.kept.nakReceived.memOk
    | ackReceived => exact h.kept.ackReceived.memOk
    | bellFrameReceived => exact h.kept.bellFrameReceived.memOk
    | spareLaneTrained => exact h.kept.spareLaneTrained.memOk
    | linkTraining => exact h.kept.linkTraining.memOk
    | opticalLinkDown => exact h.kept.opticalLinkDown.memOk
    | sync => exact h.kept.sync.memOk
    | arrive => exact h.kept.arrive.memOk
    | edge => exact h.kept.edge.memOk
    | ring => exact h.kept.ringWord.memOk
    | halt => exact h.kept.halt.memOk
    | stop => exact h.kept.stopWord.memOk
    | control => exact h.kept.control.memOk
    | bellEpoch => exact h.kept.bellEpoch.memOk
    | transitFlit => exact h.kept.transitFlit.memOk
    | gateRelease => exact h.kept.gateRelease.memOk
    | creditReturn => exact h.kept.creditReturn.memOk
    | thermalSample => exact h.kept.thermalSample.memOk
    | thermal => exact h.kept.thermal.memOk
    | thermalHoldEnd => exact h.kept.thermalHoldEnd.memOk
    | powerSample => exact h.kept.powerSample.memOk
    | vsetSettled => exact h.kept.vsetSettled.memOk
    | railTrip => exact h.railTrip
    | thermtrip sensor => exact h.thermtrip (sensor := sensor)
    | vbatLoss => exact h.vbatLoss
    | calendarEnd => exact h.calendarEnd
    | jtagInstruction => exact h.kept.jtagInstruction.memOk
    | debugUnlock => exact h.kept.debugUnlock.memOk
    | i3cDynamicAddress => exact h.kept.i3cDynamicAddress.memOk
    | i3cSetOffset => exact h.kept.i3cSetOffset.memOk
    | i3cRead => exact h.kept.i3cRead.memOk
    | i3cWrite => exact h.kept.i3cWrite.memOk
    | logportRead => exact h.kept.logportRead.memOk
    | droopRecovery => exact h.kept.droopRecovery.memOk
    | commonsViewUpdate => exact h.kept.commonsViewUpdate.memOk
    | commonsRequestAccepted => exact h.kept.commonsRequestAccepted.memOk
    | perstNDeassert => exact h.kept.perstNDeassert.memOk
    | loadedNFall => exact h.loadedNFall
    | vbatApplied => exact h.vbatApplied

end Sys2Proof.Machine

namespace Sys2Proof.Claims

open Sys2Proof.Machine

/-- Settles O6: the queue is no memory, and every row keeps the memories in canonical form. -/
theorem memoriesStayCanonical : Obligations.MemoriesStayCanonical := by
  intro s t hmem hstep
  unfold step at hstep
  split at hstep
  · cases hstep
    exact hmem
  · next c rest _ =>
    have hexec : HoldsAfter State.MemOk (exec c { s with pending := rest }) := exec_memOk c hmem
    rw [hstep] at hexec
    exact hexec

end Sys2Proof.Claims
end

section
/-! Start-up (O52): the phases and what each command of start-up leaves. -/

namespace Sys2Proof.Machine

section Startup

variable {s : State} {dh : Nat}

/-- A module with power good and no failure is in the phase that it reads. -/
theorem State.inPhase_eq (hpwr : s.hub.pins.pwrOk = true) (hlatch : s.hub.pins.powerLatched = false) (hfail : s.hub.boot.failed = false) (k : Nat) : s.inPhase k = (s.hub.boot.phase.toNat == k) := by
  unfold State.inPhase
  rw [hpwr, hlatch, hfail]
  rfl

/-- Time that passes leaves pins and start-up as they are. -/
theorem State.advance_pins (s : State) (dh : Nat) : (s.advance dh).hub.pins = s.hub.pins := by
  unfold State.advance
  split <;> rfl

theorem State.advance_boot (s : State) (dh : Nat) : (s.advance dh).hub.boot = s.hub.boot := (s.keptFrom.advance (dh := dh)).boot

theorem State.advance_inPhase (s : State) (dh k : Nat) : (s.advance dh).inPhase k = s.inPhase k := by
  unfold State.inPhase
  rw [State.advance_pins, State.advance_boot]

theorem State.advance_root (s : State) (dh : Nat) : (s.advance dh).system.root = s.system.root := by
  unfold State.advance
  split <;> rfl

theorem State.advance_standalone (s : State) (dh : Nat) : (s.advance dh).system.standalone = s.system.standalone := by
  unfold State.advance
  split <;> rfl

theorem State.advance_time (hpwr : s.hub.pins.pwrOk = true) (hlatch : s.hub.pins.powerLatched = false) : (s.advance dh).hub.time = s.hub.time + dh := by
  unfold State.advance Pins.hubOn
  rw [hpwr, hlatch]
  rfl

/-! ### The boot header and the configuration -/

/-- What a configuration copy reads as rests on the flash bytes alone. -/
theorem Flash.configGenOf_of_mem {f g : Flash} (h : f.mem = g.mem) (copy : Bool) : f.configGenOf copy = g.configGenOf copy := by
  unfold Flash.configGenOf Flash.read
  rw [h]

theorem State.readHeader_mem (s : State) : s.readHeader.hub.flash.mem = s.hub.flash.mem := by
  unfold State.readHeader
  dsimp only
  split
  · obtain ⟨f, l, hhub⟩ := (s.modHub fun h => { h with flash := { h.flash with catalogue := [], generation := 0 }, boot.headerB := false }).logReport_hub 0x5001 0 0 0
    rw [hhub]
    rfl
  · dsimp only [State.modHub]

theorem State.readHeader_some {copy : Bool} (h : newerCopy (s.hub.flash.headerGen false) (s.hub.flash.headerGen true) = some copy) :
    s.readHeader.hub.boot.headerB = copy ∧ s.readHeader.hub.flash.generation = BitVec.ofNat 32 ((s.hub.flash.headerGen copy).getD 0) := by
  unfold State.readHeader
  dsimp only
  rw [h]
  exact ⟨rfl, rfl⟩

theorem State.readHeader_none (h : newerCopy (s.hub.flash.headerGen false) (s.hub.flash.headerGen true) = none) : s.readHeader.hub.flash.catalogue = [] := by
  obtain ⟨f, l, hhub⟩ := (s.modHub fun h => { h with flash := { h.flash with catalogue := [], generation := 0 }, boot.headerB := false }).logReport_hub 0x5001 0 0 0
  unfold State.readHeader
  dsimp only
  rw [h]
  dsimp only
  rw [hhub]
  rfl

/-- Reading the configuration leaves the start-up state and the header's part of the flash as they are. -/
theorem State.readConfig_header (s : State) :
    s.readConfig.hub.boot = s.hub.boot ∧ s.readConfig.hub.flash.generation = s.hub.flash.generation ∧ s.readConfig.hub.flash.catalogue = s.hub.flash.catalogue := by
  unfold State.readConfig
  dsimp only
  split
  · obtain ⟨f, l, hhub⟩ := (s.modHub fun h => { h with
      faults := { h.faults with lockPort := 0, lockEnable := false, partner := 0 }
      flash := { h.flash with start := [], loadedPolicy := false, configGen := 0, configB := false } }).logReport_hub 0x5001 0 0 0
    rw [hhub]
    exact ⟨rfl, rfl, rfl⟩
  · refine ⟨?_, ?_, ?_⟩ <;> dsimp only [State.modHub]

theorem State.readConfig_none (h : newerCopy (s.hub.flash.configGenOf false) (s.hub.flash.configGenOf true) = none) :
    s.readConfig.hub.flash.start = [] ∧ s.readConfig.hub.flash.loadedPolicy = false ∧ s.readConfig.hub.faults.lockEnable = false := by
  have hlog := (s.modHub fun h => { h with
      faults := { h.faults with lockPort := 0, lockEnable := false, partner := 0 }
      flash := { h.flash with start := [], loadedPolicy := false, configGen := 0, configB := false } }).logReport_hub 0x5001 0 0 0
  have hlock := (State.logReport_clerical (s := s.modHub fun h => { h with
      faults := { h.faults with lockPort := 0, lockEnable := false, partner := 0 }
      flash := { h.flash with start := [], loadedPolicy := false, configGen := 0, configB := false } }) 0x5001 0 0 0).lock
  obtain ⟨f, l, hhub⟩ := hlog
  unfold State.readConfig
  dsimp only
  rw [h]
  refine ⟨?_, ?_, hlock⟩
  · dsimp only
    rw [hhub]
    rfl
  · dsimp only
    rw [hhub]
    rfl

/-! ### The self-test -/

/-- A channel whose units are cleared for the test. -/
def Channel.untested (k : Channel) : Channel := { k with mem := [], bruise := [], damage := [] }

/-- The test begins with deep store cleared and the LIVE counts at 0 (R470, R478). -/
theorem State.beginTest_channel (s : State) (ch : ChanId) : (s.beginTest.channel ch).mem = [] ∧ (s.beginTest.channel ch).bruise = [] := by
  have hget : s.beginTest.channel ch = (s.channel ch).untested := AMap.get_map_value (d := ({} : Channel)) Channel.untested s.channels ch.toNat
  rw [hget]
  exact ⟨rfl, rfl⟩

/-- A field whose LIVE counts are cleared for the test. -/
def Field.untested (f : Field) : Field :=
  { f with rows := f.rows.map (fun r => (r.1, { r.2 with live := 0 })), arrays := f.arrays.map (fun a => (a.1, { a.2 with map.live := 0 })) }

theorem State.beginTest_live (s : State) (f : FieldId) (row : Nat) : (AMap.get {} (s.beginTest.field f).rows row).live = 0 := by
  have hget : s.beginTest.field f = (s.field f).untested := AMap.get_map_value (d := ({} : Field)) Field.untested s.fields f.toNat
  have hrow : AMap.get {} (s.field f).untested.rows row = { AMap.get {} (s.field f).rows row with live := 0 } :=
    AMap.get_map_value (d := ({} : RowMap)) (fun r : RowMap => { r with live := 0 }) (s.field f).rows row
  rw [hget, hrow]

/-! ### Bell zero -/

/-- Bell zero sets the start-up state and the idle bell number, and no bell of a plot or of the idle domain that follows touches them. -/
theorem execBellZero_rings (hmay : (s.advance dh).mayRingZero = true) :
    ∃ t : State, exec (.bellZero dh) s = .next t ∧ t.hub.idleBell = 0 ∧ t.hub.boot =
      { (s.advance dh).hub.boot with phase := 8, bellZero := true, zeroAt := (s.advance dh).hub.time, bootMs := BitVec.ofNat 24 (min ((s.advance dh).hub.time / 1000000) (2 ^ 24 - 1)) } := by
  let u : State := State.modHub { s.advance dh with system.ringFrom := none } (fun h =>
    { h with boot := { h.boot with phase := 8, bellZero := true, zeroAt := h.time, bootMs := BitVec.ofNat 24 (min (h.time / 1000000) (2 ^ 24 - 1)) }, idleBell := 0 })
  have hexec : exec (.bellZero dh) s = .next (((u.plotNumbers.filter (fun fn => (u.plot fn).place.state == 1 || (u.plot fn).place.state == 2)).foldl State.emptyBell u).takeIdle) :=
    if_neg (by rw [hmay]; decide)
  have hkept := State.Kept.takeIdle (State.Kept.foldl (f := State.emptyBell) (fun _ _ hs => hs.emptyBell) (u.plotNumbers.filter (fun fn => (u.plot fn).place.state == 1 || (u.plot fn).place.state == 2)) u.keptFrom)
  exact ⟨_, hexec, hkept.idle, hkept.boot⟩

end Startup

end Sys2Proof.Machine

namespace Sys2Proof.Claims

open Sys2Proof.Machine

section Clauses

variable {s : State}

theorem resetPhase_ends (hphase : s.inPhase 0 = true) :
    ∃ t : State, exec .resetPhaseDone s = .next t ∧ t.hub.boot.phase = 1 ∧ t.hub.refs.sysrefOk = true ∧ t.hub.pins.pcieUp = (s.hub.pins.perstN && s.hub.refs.pcieOk) ∧ t.plots = s.plots :=
  ⟨_, if_neg (by rw [hphase]; decide), rfl, rfl, rfl, rfl⟩

theorem flashPhase_ends (hphase : s.inPhase 3 = true) :
    ∃ t : State, exec .flashPhaseDone s = .next t ∧ t.hub.boot.phase = 4 ∧
      (∀ b, newerCopy (s.hub.flash.headerGen false) (s.hub.flash.headerGen true) = some b → t.hub.boot.headerB = b ∧ t.hub.flash.generation = BitVec.ofNat 32 ((s.hub.flash.headerGen b).getD 0)) ∧
      (newerCopy (s.hub.flash.headerGen false) (s.hub.flash.headerGen true) = none → t.hub.flash.catalogue = []) ∧
      (newerCopy (s.hub.flash.configGenOf false) (s.hub.flash.configGenOf true) = none → t.hub.flash.start = [] ∧ t.hub.flash.loadedPolicy = false ∧ t.hub.faults.lockEnable = false) := by
  have hexec : exec .flashPhaseDone s = .next (s.readHeader.readConfig.modHub (fun h => { h with boot.phase := 4 })) := if_neg (by rw [hphase]; decide)
  obtain ⟨hboot, hgen, hcat⟩ := s.readHeader.readConfig_header
  have hconfig := s.readHeader.readConfig_none
  have hmem := s.readHeader_mem
  have hcopy : ∀ copy, newerCopy (s.hub.flash.headerGen false) (s.hub.flash.headerGen true) = some copy → _ := fun _ => s.readHeader_some
  have hnone := s.readHeader_none
  generalize s.readHeader.readConfig = v at *
  generalize s.readHeader = u at *
  refine ⟨_, hexec, rfl, fun copy hb => ?_, fun h => hcat.trans (hnone h), fun h => ?_⟩
  · obtain ⟨hheader, hnumber⟩ := hcopy copy hb
    exact ⟨(congrArg Boot.headerB hboot).trans hheader, hgen.trans hnumber⟩
  · rw [← Flash.configGenOf_of_mem hmem, ← Flash.configGenOf_of_mem hmem] at h
    exact hconfig h

theorem fieldTest_ends (hphase : s.testing = true) (htested : s.hub.boot.fieldTested = false) :
    ∃ t : State, exec (.fieldTestDone []) s = .next t ∧ t.hub.boot.fieldTested = true ∧ t.hub.boot.phase = (if s.hub.boot.linked then 6 else 5) ∧
      (∀ ch : ChanId, (t.channel ch).mem = [] ∧ (t.channel ch).bruise = []) ∧ ∀ (f : FieldId) (row : Nat), (AMap.get {} (t.field f).rows row).live = 0 :=
  ⟨_, if_neg (by rw [hphase, htested]; decide), rfl, rfl, s.beginTest_channel, s.beginTest_live⟩

theorem loadPhase_ends (hphase : s.inPhase 6 = true) :
    let v := s.loadStarts true
    let stays : Prop := v.hub.boot.plotsFailed ≠ 0 ∧ v.hub.flash.loadedPolicy = true
    (stays → exec .loadPhaseDone s = .next { v with hub := { v.hub with boot := { v.hub.boot with failed := true } } }) ∧
    (¬ stays → exec .loadPhaseDone s = .next { v with hub := { v.hub with boot := { v.hub.boot with phase := 7, released := true } } }) := by
  intro v stays
  have hexec : exec .loadPhaseDone s =
      .next (v.modHub (fun h => if h.boot.plotsFailed != 0 && h.flash.loadedPolicy then { h with boot.failed := true } else { h with boot.phase := 7, boot.released := true })) :=
    if_neg (by rw [hphase]; decide)
  have hstays : (v.hub.boot.plotsFailed != 0 && v.hub.flash.loadedPolicy) = true ↔ stays := by
    rw [Bool.and_eq_true, bne_iff_ne]
  refine ⟨fun hs => hexec.trans (congrArg Host.Outcome.next ?_), fun hs => hexec.trans (congrArg Host.Outcome.next ?_)⟩
  · exact congrArg (fun g : Hub => { v with hub := g }) (if_pos (hstays.2 hs))
  · exact congrArg (fun g : Hub => { v with hub := g }) (if_neg (fun h => hs (hstays.1 h)))

theorem loadedN_rises {dh : Nat} (hphase : s.inPhase 7 = true) (hrisen : s.hub.boot.risen = false) :
    (s.system.root = false → exec (.loadedNRise dh) s = .next { s.advance dh with hub := { (s.advance dh).hub with boot := { s.hub.boot with line := true, risen := true } } }) ∧
    (s.system.root = true → ∃ t : State, exec (.loadedNRise dh) s = .next t ∧ t.hub.boot.risen = true ∧ t.system.ringFrom = some ((s.advance dh).system.stime.toNat + 10000)) := by
  have hphase : (s.advance dh).inPhase 7 = true := (s.advance_inPhase dh 7).trans hphase
  have hboot := s.advance_boot dh
  have hroot := s.advance_root dh
  have htaken : (!(s.advance dh).inPhase 7 || (s.advance dh).hub.boot.risen) = false := by
    rw [hphase, hboot, hrisen]
    rfl
  refine ⟨fun hr => ?_, fun hr => ?_⟩
  · rw [← hboot]
    exact (if_neg (by rw [htaken]; decide)).trans (if_pos (by show (!(s.advance dh).system.root) = true; rw [hroot, hr]; rfl))
  · let u : State := { (s.advance dh).modHub (fun h => { h with boot.line := true, boot.risen := true }) with system.ringFrom := some ((s.advance dh).system.stime.toNat + 10000) }
    have hexec : exec (.loadedNRise dh) s = .next (u.sendAll (bellWord 3 0xFF 0 ((s.advance dh).system.stime.toNat + 10000))) :=
      (if_neg (by rw [htaken]; decide)).trans (if_neg (by show ¬ (!(s.advance dh).system.root) = true; rw [hroot, hr]; decide))
    have hsent := State.sendAll_sent (s := u) (bellWord 3 0xFF 0 ((s.advance dh).system.stime.toNat + 10000))
    exact ⟨_, hexec, congrArg (fun v : State => v.hub.boot.risen) hsent.rest, congrArg (fun v : State => v.system.ringFrom) hsent.rest⟩

end Clauses

/-- Settles O52, one clause after the other; at bell zero by what the bells of the plots and of the idle domain keep of the start-up state. -/
theorem startUpRunsThroughItsPhases : Obligations.StartUpRunsThroughItsPhases := by
  intro s hpwr hlatch hfail
  have hphase (k : Nat) : s.hub.boot.phase = BitVec.ofNat 4 k → k < 16 → s.inPhase k = true := fun h hk => by
    rw [State.inPhase_eq hpwr hlatch hfail, h, BitVec.toNat_ofNat, Nat.mod_eq_of_lt hk]
    exact beq_self_eq_true k
  refine ⟨fun h => resetPhase_ends (hphase 0 h (by decide)), fun h => ?_, fun h => ?_, fun h => flashPhase_ends (hphase 3 h (by decide)), fun h htested => fieldTest_ends ?_ htested,
    fun h => loadPhase_ends (hphase 6 h (by decide)), fun dh h hrisen => loadedN_rises (hphase 7 h (by decide)) hrisen, fun hrisen hzero => ?_, fun dh h hrisen halone _ => ?_⟩
  · exact ⟨if_neg (by rw [hphase 1 h (by decide)]; decide), if_neg (by rw [hphase 1 h (by decide)]; decide)⟩
  · exact if_neg (by rw [hphase 2 h (by decide)]; decide)
  · unfold State.testing
    rcases h with h | h
    · rw [hphase 4 h (by decide)]
      rfl
    · rw [hphase 5 h (by decide), Bool.or_true]
  · exact congrArg Host.Outcome.next (if_neg (by rw [hrisen, hzero]; decide))
  · have hmay : (s.advance dh).mayRingZero = true := by
      unfold State.mayRingZero
      rw [State.advance_inPhase, hphase 7 h (by decide), State.advance_boot, hrisen, State.advance_standalone, halone]
      rfl
    obtain ⟨t, hexec, hidle, hboot⟩ := execBellZero_rings hmay
    have htime := State.advance_time (dh := dh) hpwr hlatch
    refine ⟨t, hexec, by rw [hboot], by rw [hboot], by rw [hboot, htime], hidle, ?_⟩
    rw [hboot, htime]
    exact (BitVec.toNat_ofNat _ _).trans (Nat.mod_eq_of_lt (by omega))

end Sys2Proof.Claims
end
